-- ==== Sys2Proof/Word.lean ====
section
/-! DEFINITION. The word types, and the one sparse table (`SMap`) that every memory, register file and
array of units of the model is held in: an association list in canonical form (keys strictly rising, no
entry equal to what an unlisted key reads as). -/

namespace Sys2Proof

/-- One byte. -/
abbrev Byte := BitVec 8

/-- One 32-bit word. -/
abbrev Word := BitVec 32

/-- A sparse table from natural keys: plain data. What an unlisted key reads as is given at each read. -/
abbrev SMap (α : Type) := List (Nat × α)

namespace SMap

variable {α : Type}

/-- Read one key; `d` is what an unlisted key reads as. -/
def get (d : α) : SMap α → Nat → α
  | [], _ => d
  | (k, v) :: m, a => if a = k then v else get d m a

/-- Drop a key. -/
def erase : SMap α → Nat → SMap α
  | [], _ => []
  | (k, v) :: m, a => if k = a then erase m a else (k, v) :: erase m a

/-- Put a key in front of the first larger one. -/
def ins : SMap α → Nat → α → SMap α
  | [], a, x => [(a, x)]
  | (k, v) :: m, a, x => if a < k then (a, x) :: (k, v) :: m else (k, v) :: ins m a x

/-- Write one key, keeping the canonical form: writing what an unlisted key reads as removes the entry. -/
def set [DecidableEq α] (d : α) (m : SMap α) (a : Nat) (x : α) : SMap α :=
  if x = d then erase m a else ins (erase m a) a x

/-- Read, change and write one key. -/
def upd [DecidableEq α] (d : α) (m : SMap α) (a : Nat) (f : α → α) : SMap α :=
  set d m a (f (get d m a))

/-- Write consecutive keys from `a` on. -/
def sets [DecidableEq α] (d : α) : SMap α → Nat → List α → SMap α
  | m, _, [] => m
  | m, a, x :: xs => sets d (set d m a x) (a + 1) xs

/-- Read `n` consecutive keys from `a` on. -/
def gets (d : α) (m : SMap α) (a : Nat) : Nat → List α
  | 0 => []
  | n + 1 => get d m a :: gets d m (a + 1) n

/-- Drop every key for which `p` holds. -/
def drop (m : SMap α) (p : Nat → Bool) : SMap α := m.filter (fun kv => ! p kv.1)

/-- Change every listed entry by its key, keeping the canonical form; `f` leaves `d` as it is. -/
def mapV [DecidableEq α] (d : α) (f : Nat → α → α) : SMap α → SMap α
  | [] => []
  | (k, v) :: m => set d (mapV d f m) k (f k v)

/-- The keys rise strictly from `lo` on and no entry equals `d`. -/
def wfFrom [DecidableEq α] (d : α) : Nat → SMap α → Bool
  | _, [] => true
  | lo, (k, v) :: m => decide (lo ≤ k) && decide (v ≠ d) && wfFrom d (k + 1) m

/-- The canonical form of a table whose unlisted keys read as `d`. -/
def wf [DecidableEq α] (d : α) (m : SMap α) : Bool := wfFrom d 0 m

end SMap

end Sys2Proof
end

