-- ==== Sys2Proof/Syntax.lean ====
section
/-! DEFINITION. The commands of the module: one constructor per row of spec/opcode_table.json, with the
operands the row's rule gives it. Commands of a core's sequencer carry the core and the four words of the
128-bit command; object actions carry the requester and the value; events carry what the outside world
shows the device in that event (a sample, a frame, a packet, an error pattern). -/

namespace Sys2Proof

/-- A 128-bit engine or sequencer command, words W0 to W3 (R83, R97, R139). -/
structure Cmd where
  w0 : Word
  w1 : Word
  w2 : Word
  w3 : Word
deriving DecidableEq, Repr

/-- The roles of R419; `none` is a request outside a session (R424). -/
inductive Role where
  | none | observer | operator | owner
deriving DecidableEq, Repr

/-- Who makes an object request: its role and, through the control-core window, the control core
(number hub * 8 + core). -/
structure OdReq where
  role : Role
  cpu  : Option (Fin 16)
deriving DecidableEq, Repr

/-- A control core's access kinds; the AMO kinds are those of the RISC-V A extension. -/
inductive Access where
  | load
  | store
  | amoAdd | amoSwap | amoXor | amoAnd | amoOr | amoMin | amoMax | amoMinu | amoMaxu
deriving DecidableEq, Repr

/-- What the error code of a 64-bit scratchpad word or MSC word shows (R187, R207). -/
inductive Ecc where
  | clean | single | double
deriving DecidableEq, Repr

/-- What a command works on, and what the scratchpad words that it reads show: numbers of 64-bit words with their state, counted from the
first that is read (R187). -/
structure Met (α : Type) where
  on  : α
  ecc : List (Nat × Ecc)
deriving DecidableEq, Repr

/-- The error pattern a stack access meets: symbol positions 0 to 67 of the RS(68,64) codeword with the
value added there, at the first and at a second read, and the corrections the stack's own code reports
(R204, R205). -/
structure HbmErr where
  first  : List (Nat × Byte)
  second : List (Nat × Byte)
  inner  : Nat
deriving DecidableEq, Repr

/-- The 136-bit frame word of R268, lane headers joined, without the lane numbers. -/
structure FrameWord where
  slotc   : List Nat
  fseq    : Nat
  ackseq  : Nat
  nak     : Bool
  crkind  : Nat
  crcnt   : Nat
  keyph   : Nat
  tagpart : Word
deriving DecidableEq, Repr

/-- One frame: its frame word and its 20 slots of 256 bytes (R268). -/
structure Frame where
  word  : FrameWord
  slots : List (List Byte)
deriving DecidableEq, Repr

/-- What the receiver meets in one frame: the symbol errors of the codeword on each logical lane, and the LANE field read there
(R267, R268). -/
structure FrameObs where
  errors : List Nat
  lane   : List Nat
deriving DecidableEq, Repr

/-- A link message: header of R281 and body. -/
structure LinkMsg where
  ver  : Nat
  typ  : Nat
  rsvd : Nat
  mseq : Nat
  body : List Byte
deriving DecidableEq, Repr

/-- The slot code that carries a packet type (R269, R293). -/
def pktCode (t : Nat) : Nat :=
  if t < 0x10 then 1 else if t < 0x20 then 2 else if t < 0x30 then 3 else 4

/-- A packet: the header fields of R292 and the payload; `e2eTag` holds the 16 bytes of R458 when E2E is 1, `code` is the slot code
that carried it (R269), `hint` the hint of R192 of a remote request, for which the header has no field (R261; log 72). -/
structure Packet where
  ver     : Nat
  ptype   : Nat
  fm      : Bool
  e2e     : Bool
  epchk   : Bool
  rsvd    : Nat
  slice   : Nat
  epoch   : Nat
  dstdev  : Nat
  srcdev  : Nat
  stream  : Nat
  addr    : Nat
  tag     : Nat
  txn     : Nat
  arg     : Nat
  payload : List Byte
  e2eTag  : List Byte
  code    : Nat := pktCode ptype
  hint    : Nat := 0
deriving DecidableEq, Repr

/-- A Tabmir Object Access datagram: the client's IPv6 address and UDP port, the device's, the header of
R418, the body and the 16-byte tag of R420 (empty outside a session). -/
structure Datagram where
  client  : Nat
  cport   : Nat
  host    : Nat
  hport   : Nat
  magic   : Nat
  ver     : Nat
  typ     : Nat
  session : Nat
  seq     : Nat
  seg     : Nat
  nseg    : Nat
  body    : List Byte
  tag     : List Byte
deriving DecidableEq, Repr

/-- The frames of R417 that are not a session's datagrams. -/
inductive MgmtKind where
  | neighbourSolicit (target : Nat)
  | neighbourAdvert
  | echoRequest (data : List Byte)
  | pause
  | discarded
deriving DecidableEq, Repr

/-- A frame at the management port: the IPv6 address it came from and the one it is for, length, kind. -/
structure MgmtFrame where
  client : Nat
  host   : Nat
  len    : Nat
  kind   : MgmtKind
deriving DecidableEq, Repr

/-- The three clock sources of R381, by their code in ClockRefActive. -/
inductive ClockSrc where
  | iosc | xtal | rack
deriving DecidableEq, Repr

/-- A register of NUMFLAGS: an engine of a core, or a hub's reduction unit (R47). -/
inductive FlagUnit where
  | mxe (c : Fin 136)
  | vxe (c : Fin 136)
  | sfu (c : Fin 136)
  | hub (h : Fin 2)
deriving DecidableEq, Repr

/-- What a self-test item found (R471, R474): spare rows or lanes used, ports whose loopback fails on two
or more lanes, a fault confined to the south hub, any other unrepaired fault, and, for HBM training, the
lanes replaced per stack. -/
structure ItemReport where
  repaired    : Bool
  portFail    : BitVec 40
  southFault  : Bool
  otherFault  : Bool
  laneRepairs : List Nat
deriving DecidableEq, Repr

/-- What is written to a port's expected neighbour (R287, R289). -/
inductive PeerWrite where
  | peer (v : Word)
  | key (b : List Byte)
deriving DecidableEq, Repr

/-- An instruction of the test access port (R502); the scope number is the SCOPE bit of R460. -/
inductive TapInstr where
  | bypass
  | idcode
  | scoped (bit : Fin 4)
deriving DecidableEq, Repr

/-- The commands, in the table's order. -/
inductive Instr where
  -- The matrix engine
  | mxOpen (c : Fin 136) (w : Met Cmd)
  | mxOpenHeldStart (c : Met (Fin 136))
  | mxMac (c : Fin 136) (w : Cmd)
  | mxeGroupResult (c : Met (Fin 136))
  | mxClose (c : Fin 136) (w : Cmd)
  | mxMerge (c : Fin 136) (w : Met Cmd)
  | mxDrainResume (c : Fin 136)
  | mxDrainDone (c : Fin 136)
  -- The vector engine
  | vxSetvl (c : Fin 136) (w : Cmd)
  | vxLd (c : Fin 136) (w : Cmd) (ecc : List (Nat × Ecc))
  | vxSt (c : Fin 136) (w : Cmd)
  | vxStt (c : Fin 136) (w : Cmd)
  | vxHqpop (c : Fin 136) (w : Cmd)
  | hqpopEntryArrive (c : Fin 136)
  | vxAdd (c : Fin 136) (w : Cmd)
  | vxSub (c : Fin 136) (w : Cmd)
  | vxMul (c : Fin 136) (w : Cmd)
  | vxMax (c : Fin 136) (w : Cmd)
  | vxMin (c : Fin 136) (w : Cmd)
  | vxFma (c : Fin 136) (w : Cmd)
  | vxCvt (c : Fin 136) (w : Cmd)
  | vxQnt (c : Fin 136) (w : Cmd)
  | vxDqnt (c : Fin 136) (w : Cmd)
  | vxRsum (c : Fin 136) (w : Cmd)
  | vxRmax (c : Fin 136) (w : Cmd)
  | vxFn (c : Fin 136) (w : Cmd)
  | vxWelf (c : Fin 136) (w : Cmd)
  | vxWmrg (c : Fin 136) (w : Cmd)
  | vxWred (c : Fin 136) (w : Cmd)
  | vxWfin (c : Fin 136) (w : Cmd)
  -- The sequencer
  | sqSegment (c : Fin 136) (w : Cmd)
  | segmentBoundary (c : Fin 136)
  | sqWait (c : Fin 136) (w : Cmd)
  | sqWaitRelease (c : Fin 136)
  | sqWaitg (c : Fin 136) (w : Cmd)
  | waitgPoll (c : Fin 136)
  | sqSignal (c : Fin 136) (w : Cmd)
  | signalGateAdd (c : Fin 136)
  | sqBar (c : Fin 136) (w : Cmd)
  | barrierArrival (b : Fin 64)
  | sqFlagrd (c : Fin 136) (w : Cmd)
  | flagrdRead (c : Fin 136)
  | sqFlagclr (c : Fin 136) (w : Cmd)
  | flagclrClear (c : Fin 136) (coset : List (FlagUnit × BitVec 4))
  | sqLoop (c : Fin 136) (w : Cmd)
  | sqEndloop (c : Fin 136) (w : Cmd)
  | sqEnd (c : Fin 136) (w : Cmd)
  | sqEndComplete (c : Fin 136)
  | stall (c : Fin 136)
  | imageFaulted
  -- The stream engine
  | stIssue (c : Fin 136) (w : Cmd)
  | streamSlotTake (c : Fin 136)
  | steGrant (c : Met (Fin 136))
  | steResponse (c : Fin 136) (k : Nat)
  | streamRetire (c : Fin 136) (slot : Fin 16)
  | gateSignalSend (c : Fin 136)
  | reelPacketLand (p : Fin 40)
  | reelHold (p : Fin 40)
  -- Schedules
  | loadSchedule (q : OdReq) (off : BitVec 64)
  | loadComplete
  | startSchedule (q : OdReq) (e : BitVec 8)
  | stopSchedule (q : OdReq) (v : BitVec 8)
  | stopComplete
  | placeEpochAdvance (q : OdReq) (e : BitVec 16)
  -- Function tables, flags, windows
  | fnLoad (c : Fin 136) (v : Word)
  | fnCheckDone (c : Fin 136)
  | numflagsWindowClear (u : FlagUnit) (v : Word) (coset : BitVec 4)
  | flagClear (q : OdReq) (v : Word) (coset : List (FlagUnit × BitVec 4))
  | mxeCfgStore (c : Fin 136) (v : Word)
  | coreClkenStore (c : Fin 136) (v : Word)
  | controlWindowWrite (cpu : Fin 16) (off : BitVec 40) (width : Nat) (v : BitVec 64)
  | controlCoreAccess (cpu : Fin 16) (a : Access) (off : BitVec 40) (width : Nat) (v : BitVec 64) (ecc : Ecc) (err : HbmErr)
  -- Memory
  | hbmBandSet (q : OdReq) (v : BitVec 16)
  | bandChangeDone (b : Fin 36)
  | mscClean (r : Fin 24)
  | mscFlush (r : Fin 24)
  | mscDrop (r : Fin 24)
  | mscUnkeep (r : Fin 24)
  | mscOpDone (r : Fin 24)
  | mscRequest (r : Fin 24) (ecc : Ecc)
  | hbmAdmit (r : Fin 24) (pc : Fin 32) (bank : Fin 48)
  | hbmRequestComplete (r : Fin 24) (k : Nat) (err : HbmErr)
  | hbmRefresh (r : Fin 24)
  | hbmScrub (r : Fin 24) (err : HbmErr)
  | spadScrub (c : Fin 136) (word : Nat) (ecc : Ecc)
  | stackTempSample (r : Fin 24) (mdeg : Int)
  -- Die-to-die ports; adapter number = die code * 4 + port
  | d2dTrained (a : Fin 24)
  | d2dFlitReceive (a : Fin 24) (flit : List Byte)
  | d2dReplayRequest (a : Fin 24) (seq : Fin 64)
  | d2dReplayTimeout (a : Fin 24)
  -- Links
  | frameTransmit (p : Fin 40)
  | frameReceive (p : Fin 40) (f : Frame) (obs : FrameObs)
  | keepaliveSend (p : Fin 40)
  | keepalive (p : Fin 40) (m : LinkMsg)
  | keepaliveTimeout (p : Fin 40)
  | laneSignalLoss (p : Fin 40) (lanes : BitVec 9)
  | waltzRetry (p : Fin 40)
  | laneTrainingDone (p : Fin 40) (rates : BitVec 3) (failed : BitVec 9) (delay : Nat)
  | waltzStepTimeout (p : Fin 40)
  | hello (p : Fin 40) (m : LinkMsg)
  | attest (p : Fin 40) (m : LinkMsg)
  | kemek (p : Fin 40) (m : LinkMsg)
  | kemct (p : Fin 40) (m : LinkMsg)
  | caps (p : Fin 40) (m : LinkMsg)
  | verdict (p : Fin 40) (m : LinkMsg)
  | linkmsgReserved (p : Fin 40) (m : LinkMsg)
  | portEnable (q : OdReq) (p : Fin 40)
  | portDisable (q : OdReq) (p : Fin 40)
  | portRetrain (q : OdReq) (p : Fin 40)
  | expectedPeerWrite (q : OdReq) (p : Fin 40) (v : PeerWrite)
  -- The fabric
  | pktStop (p : Fin 40) (pk : Packet)
  | fenceLoss (p : Fin 40) (pk : Packet)
  | fenceSeal (p : Fin 40) (pk : Packet)
  | recoverResume (p : Fin 40) (pk : Packet)
  | pktObjreq (p : Fin 40) (pk : Packet)
  | pktObjrsp (p : Fin 40) (pk : Packet)
  | pktRead (p : Fin 40) (pk : Met Packet)
  | pktWrite (p : Fin 40) (pk : Packet)
  | pktAdd (p : Fin 40) (pk : Packet)
  | pktData (p : Fin 40) (pk : Packet)
  | pktAck (p : Fin 40) (pk : Packet)
  | pktErr (p : Fin 40) (pk : Packet)
  | pktReel (p : Fin 40) (pk : Packet)
  | pktColl (p : Fin 40) (pk : Packet)
  | packetCloseTimer (stream : Nat)
  | sliceSet (q : OdReq) (v : BitVec 64)
  | sliceStop (q : OdReq) (v : BitVec 8)
  -- Collectives
  | collLoad (h : Fin 2) (v : Word)
  | collStartGate (h : Fin 2)
  | collDescriptorDone (h : Fin 2)
  -- Training support
  | optPrepare (q : OdReq) (n : BitVec 64)
  | optPrepareDone
  | optCommit (q : OdReq) (n : BitVec 64)
  | trainStepSet (q : OdReq) (n : BitVec 64)
  -- The Husk
  | huskMapLoad (q : OdReq) (v : BitVec 8)
  | huskMapLoadDone
  | huskInit (q : OdReq) (g : BitVec 64)
  | huskInitDone
  | huskOpen (q : OdReq) (g : BitVec 64)
  | huskOpenDone
  | huskFold (q : OdReq) (g : BitVec 64)
  | huskTrailerPoll (h : Fin 2)
  | huskFoldDone
  | huskSeal (q : OdReq) (g : BitVec 64)
  | huskApplyDone
  | recoverySettleExpire
  | huskRestore (q : OdReq) (v : BitVec 8)
  | huskRestoreDone
  | huskRebuild (q : OdReq) (off : BitVec 64)
  | huskRebuildDone
  | huskDeclareLost (q : OdReq) (v : BitVec 8)
  | huskResume (q : OdReq) (v : BitVec 64)
  | huskFlushDone
  | actionLogAppend (q : OdReq) (b : List Byte)
  -- Clocks and power
  | ioscTrim
  | pllFirstLock
  | xtalQualify
  | rackrefQualify
  | clockWindow (src ref : ClockSrc) (count : Nat) (detect : Bool) (xtalIn3 ioscIn3 : Bool)
  | clockReselect (q : OdReq) (v : BitVec 8)
  | refEdgesMissing
  | pllRelock
  | pllUnlock
  | pllLockReturn (us : Nat)
  | levelRequest (d : Fin 4)
  | railSetpointReached (d : Fin 4)
  | regionClkenWrite (q : OdReq) (r : Fin 24) (v : BitVec 8)
  | hubClkenWrite (q : OdReq) (h : Fin 2) (v : BitVec 16)
  | ctlCoreEnableWrite (q : OdReq) (h : Fin 2) (v : BitVec 8)
  | clockOutSelWrite (q : OdReq) (v : Word)
  | vinSample (mv : Nat)
  | shedStageLeave
  | railSample (d : Fin 4) (mv : Nat)
  | powerSample (mw : Nat)
  | dieTempSample (sensors : List (List Int))
  | safeStateEntry
  -- The object dictionary and the management port
  | odWindowLoad (cpu : Fin 16) (off : BitVec 40) (width : Nat)
  | odWindowStore (cpu : Fin 16) (off : BitVec 40) (width : Nat) (v : BitVec 64)
  | windowCommit (cpu : Fin 16) (v : Word)
  | odWrite (q : OdReq) (idx : BitVec 16) (sub : BitVec 8) (b : List Byte)
  | toaHello (d : Datagram)
  | toaAuth (d : Datagram)
  | toaRead (d : Datagram)
  | toaWrite (d : Datagram)
  | toaSubscribe (d : Datagram)
  | toaEvack (d : Datagram)
  | toaPing (d : Datagram)
  | toaClose (d : Datagram)
  | eventSend (session : Nat)
  | eventResend (session : Nat) (seq : Nat)
  | authTimeout (session : Nat)
  | reassemblyTimeout (session : Nat) (seq : Nat)
  | sessionIdleTimeout (session : Nat)
  | eventRaise
  | eventCommit
  | eventPost (q : OdReq) (b : List Byte)
  | configSave (q : OdReq) (v : BitVec 8)
  | configErase (q : OdReq) (v : BitVec 8)
  | configDone (ok : Bool)
  | deviceReset (q : OdReq) (v : BitVec 8)
  -- Security
  | attestNonce (q : OdReq) (b : List Byte)
  | attestReportReady
  | svnRaise (q : OdReq) (v : BitVec 8)
  | ownerCommit (q : OdReq) (v : BitVec 8)
  | jobKey (q : OdReq) (b : List Byte)
  | jobRelease (q : OdReq) (v : BitVec 8)
  | jobImageListWrite (q : OdReq) (k : Fin 16) (b : List Byte)
  | debugUnlock (q : OdReq) (v : BitVec 8)
  | debugLock (q : OdReq) (v : BitVec 8)
  | debugExpire
  | entropyFail (h : Fin 2)
  -- Power-on, self-test, the Shell state and the black box
  | powerOn
  | holdupCharged
  | resetNAssert
  | resetNRelease
  | flashExtRelease
  | bootRomStart (kernelOk : Bool)
  | firmwareStart
  | selftestItem (rep : ItemReport)
  | selftestTimeout
  | blackBoxWrite (q : OdReq) (v : BitVec 8)
  | blackboxWritten (fail0 fail1 : Bool)
  | blackBoxSelect (q : OdReq) (rseq : BitVec 64)
  | fwSlotErase (q : OdReq) (v : BitVec 8)
  | fwSlotEraseDone (ok : Bool)
  | fwSlotData (q : OdReq) (b : List Byte) (ok : Bool)
  | fwActivate (q : OdReq) (v : BitVec 8)
  | inputFallWhileCharging
  | managementPortFrame (f : MgmtFrame)
  | mgmtBlockLock (up : Bool)
  | coolantSample (inlet outlet : Int)
  | testAccessPort (code : TapInstr)
  | flashExtNAssert
  | backgroundEraseDone (slot : Fin 8192) (ok0 ok1 : Bool)
deriving DecidableEq, Repr

end Sys2Proof
end

