-- ==== Sys2Proof/Decode.lean ====
section
/-! DEFINITION. The command that a word spells by the table's bits. No row of spec/opcode_table.json gives bits: a command reaches
the module as an access, a datagram, a packet, a frame or an event, not as one word (log 6). -/

namespace Sys2Proof

/-- The command of a word by the opcode table's bits: none, since no row has bits. -/
def decodeTableWord (_nbits _w : Nat) : Option Instr := none

end Sys2Proof
end

