-- ==== Sys2Proof/Machine/Float.lean ====
section
/-! DEFINITION. Number formats, rounding, the two numeric modes, conversions, quantisation (R26 to R46).
Values are handled exactly (sign, magnitude, power of two; quotients as a fraction) and rounded once. -/

namespace Sys2Proof.Machine

/-- NUMFLAGS bits [3:0]: INV, OVF, UNF, INX (R47). -/
abbrev Flags := BitVec 4

def fINV : Flags := 8
def fOVF : Flags := 4
def fUNF : Flags := 2
def fINX : Flags := 1

/-! Format codes of R26. -/
def cINT4 : Nat := 0
def cINT8 : Nat := 1
def cINT32 : Nat := 2
def cE4M3 : Nat := 3
def cE5M2 : Nat := 4
def cBF16 : Nat := 5
def cFP16 : Nat := 6
def cFP32 : Nat := 7

/-- Element size in bits (R26, R28). -/
def fmtBits : Nat → Nat
  | 0 => 4
  | 1 => 8
  | 2 => 32
  | 3 => 8
  | 4 => 8
  | 5 => 16
  | 6 => 16
  | 7 => 32
  | _ => 0

/-- Bytes that `n` elements of a format occupy. -/
def fmtBytes (f n : Nat) : Nat := cdiv (n * fmtBits f) 8

/-- Fraction width, exponent width and bias of a floating-point format (R27). -/
structure FF where
  fb : Nat
  eb : Nat
  bias : Nat
deriving DecidableEq, Repr

/-- R27's table. -/
def ffOf : Nat → FF
  | 3 => { fb := 3, eb := 4, bias := 7 }
  | 4 => { fb := 2, eb := 5, bias := 15 }
  | 5 => { fb := 7, eb := 8, bias := 127 }
  | 6 => { fb := 10, eb := 5, bias := 15 }
  | _ => { fb := 23, eb := 8, bias := 127 }

/-- Is the format a floating-point one? -/
def isFp (f : Nat) : Bool := decide (3 ≤ f ∧ f ≤ 7)

/-- A decoded operand: (−1)^neg · mag · 2^exp, an infinity, or a NaN with its fraction of width `w`. -/
inductive FVal where
  | fin (neg : Bool) (mag : Nat) (exp : Int)
  | inf (neg : Bool)
  | nan (neg : Bool) (frac w : Nat) (sig : Bool)
deriving DecidableEq, Repr

/-- Read an operand exactly as encoded, subnormals included (R27, R30). -/
def decodeF (f bits : Nat) : FVal :=
  let p := ffOf f
  let neg := decide ((bits >>> (p.fb + p.eb)) % 2 = 1)
  let e := (bits >>> p.fb) % 2 ^ p.eb
  let fr := bits % 2 ^ p.fb
  if f = cE4M3 then
    if e = 15 ∧ fr = 7 then .nan neg fr 3 false
    else if e = 0 then .fin neg fr (1 - (p.bias : Int) - p.fb)
    else .fin neg (2 ^ p.fb + fr) ((e : Int) - p.bias - p.fb)
  else if e = 2 ^ p.eb - 1 then
    if fr = 0 then .inf neg else .nan neg fr p.fb (decide (fr < 2 ^ (p.fb - 1)))
  else if e = 0 then .fin neg fr (1 - (p.bias : Int) - p.fb)
  else .fin neg (2 ^ p.fb + fr) ((e : Int) - p.bias - p.fb)

/-- The sign bit of a format, or 0. -/
def signBit (f : Nat) (neg : Bool) : Nat := if neg then 2 ^ ((ffOf f).fb + (ffOf f).eb) else 0

/-- The canonical NaN (R29). -/
def canonNaN : Nat → Nat
  | 3 => 0x7F
  | 4 => 0x7E
  | 5 => 0x7FC0
  | 6 => 0x7E00
  | _ => 0x7FC00000

/-- An infinite value written to a format; E4M3 has none and takes ±448 (R27, R38). -/
def infBits (f : Nat) (neg : Bool) : Nat :=
  signBit f neg + (if f = cE4M3 then 0x7E else (2 ^ (ffOf f).eb - 1) * 2 ^ (ffOf f).fb)

/-- Flags of writing an infinity to a format (R38). -/
def infFlags (f : Nat) : Flags := if f = cE4M3 then fOVF ||| fINX else 0

/-- A NaN operand written to a format in strict mode: quietened, the most significant fraction bits kept (R36). -/
def quietNaN (dst : Nat) (neg : Bool) (frac w : Nat) : Nat :=
  if dst = cE4M3 then signBit dst neg + 0x7F
  else
    let q := frac ||| 2 ^ (w - 1)
    let fb := (ffOf dst).fb
    let q' := if fb ≤ w then q >>> (w - fb) else q <<< (fb - w)
    signBit dst neg + (2 ^ (ffOf dst).eb - 1) * 2 ^ fb + q'

/-- Round num/den · 2^k (den > 0) to an integer: nearest, ties away (fast) or to even (strict); R32. The second
answer says whether the value changed. -/
def roundInt (strict : Bool) (num den : Nat) (k : Int) : Nat × Bool :=
  let n := if 0 ≤ k then num * 2 ^ k.toNat else num
  let d := if 0 ≤ k then den else den * 2 ^ (-k).toNat
  let q := n / d
  let r := n % d
  let up := decide (d < 2 * r) || (decide (2 * r = d) && (!strict || decide (q % 2 = 1)))
  (if up then q + 1 else q, decide (r ≠ 0))

/-- floor(log₂(num/den)), for num, den > 0. -/
def log2q (num den : Nat) : Int :=
  let l : Int := (Nat.log2 num : Int) - Nat.log2 den
  let n := if 0 ≤ l then num else num * 2 ^ (-l).toNat
  let d := if 0 ≤ l then den * 2 ^ l.toNat else den
  if d ≤ n then l else l - 1

/-- Round (−1)^neg · num/den · 2^e to a floating-point format once, by the mode, with the flags of R34 and R35. -/
def roundF (strict : Bool) (f : Nat) (neg : Bool) (num den : Nat) (e : Int) : Nat × Flags :=
  if num = 0 then (signBit f neg, 0)
  else
    let p := ffOf f
    let E := log2q num den + e
    let (s0, ix) := roundInt strict num den (e - (E - p.fb))
    let (sg, EU) := if s0 = 2 ^ (p.fb + 1) then (2 ^ p.fb, E + 1) else (s0, E)
    let emin : Int := 1 - p.bias
    let emax : Int := if f = cE4M3 then 8 else p.bias
    if EU < emin then
      if !strict && (f = cFP32 || f = cBF16) then (signBit f neg, fUNF)
      else if EU < emin - p.fb - 2 then (signBit f neg, fUNF ||| fINX)
      else
        let (sb, ix') := roundInt strict num den (e - (emin - p.fb))
        (signBit f neg + sb, if ix' then fUNF ||| fINX else 0)
    else if emax < EU || (f = cE4M3 && EU = 8 && sg = 15) then (infBits f neg, fOVF ||| fINX)
    else (signBit f neg + ((EU + p.bias).toNat * 2 ^ p.fb + (sg - 2 ^ p.fb)), if ix then fINX else 0)

/-- The NaN result of an operation with a NaN operand, if it has one (R34, R36). -/
def nanOf (strict : Bool) (dst : Nat) (ops : List FVal) : Option (Nat × Flags) :=
  let isNan : FVal → Bool := fun v => match v with | .nan _ _ _ _ => true | _ => false
  let isSig : FVal → Bool := fun v => match v with | .nan _ _ _ s => s | _ => false
  match ops.find? isNan with
  | some (.nan neg fr w _) =>
    if strict then some (quietNaN dst neg fr w, if ops.any isSig then fINV else 0)
    else some (canonNaN dst, fINV)
  | _ => none

/-- The result of an invalid operation with no NaN operand (R36). -/
def invalidF (dst : Nat) : Nat × Flags := (canonNaN dst, fINV)

/-- Exact sum of two finite values; an exact zero takes the sign of R31. -/
def addExact (n1 : Bool) (m1 : Nat) (e1 : Int) (n2 : Bool) (m2 : Nat) (e2 : Int) : Bool × Nat × Int :=
  let e := min e1 e2
  let a : Int := m1 * 2 ^ (e1 - e).toNat
  let b : Int := m2 * 2 ^ (e2 - e).toNat
  let s := (if n1 then -a else a) + (if n2 then -b else b)
  if s = 0 then ((n1 && n2) && decide (m1 = 0 ∧ m2 = 0), 0, e) else (decide (s < 0), s.natAbs, e)

/-- Floating-point addition in one format, rounded once (R101). -/
def addF (strict : Bool) (f a b : Nat) : Nat × Flags :=
  let x := decodeF f a
  let y := decodeF f b
  match nanOf strict f [x, y] with
  | some r => r
  | none =>
    match x, y with
    | .fin n1 m1 e1, .fin n2 m2 e2 =>
      let r := addExact n1 m1 e1 n2 m2 e2
      roundF strict f r.1 r.2.1 1 r.2.2
    | .inf n1, .inf n2 => if n1 = n2 then (infBits f n1, 0) else invalidF f
    | .inf n1, _ => (infBits f n1, 0)
    | _, .inf n2 => (infBits f n2, 0)
    | _, _ => invalidF f

/-- The encoding with the sign bit flipped. -/
def negBits (f a : Nat) : Nat := a ^^^ (2 ^ ((ffOf f).fb + (ffOf f).eb))

/-- Subtraction: a NaN operand is propagated as encoded; otherwise a + (−b). -/
def subF (strict : Bool) (f a b : Nat) : Nat × Flags :=
  match nanOf strict f [decodeF f a, decodeF f b] with
  | some r => r
  | none => addF strict f a (negBits f b)

/-- Product of two decoded operands, rounded once to `dst`. -/
def mulV (strict : Bool) (dst : Nat) (x y : FVal) : Nat × Flags :=
  match nanOf strict dst [x, y] with
  | some r => r
  | none =>
    match x, y with
    | .fin n1 m1 e1, .fin n2 m2 e2 => roundF strict dst (n1 != n2) (m1 * m2) 1 (e1 + e2)
    | .inf n1, .inf n2 => (infBits dst (n1 != n2), infFlags dst)
    | .inf n1, .fin n2 m2 _ => if m2 = 0 then invalidF dst else (infBits dst (n1 != n2), infFlags dst)
    | .fin n1 m1 _, .inf n2 => if m1 = 0 then invalidF dst else (infBits dst (n1 != n2), infFlags dst)
    | _, _ => invalidF dst

/-- Floating-point multiplication in one format (R101). -/
def mulF (strict : Bool) (f a b : Nat) : Nat × Flags := mulV strict f (decodeF f a) (decodeF f b)

/-- Is the product of the two operands invalid (zero times infinity)? -/
def prodInvalid (x y : FVal) : Bool :=
  match x, y with
  | .inf _, .fin _ m _ => decide (m = 0)
  | .fin _ m _, .inf _ => decide (m = 0)
  | _, _ => false

/-- Fused multiply-add of decoded operands, rounded once to `dst` (R36, R66, R101). -/
def fmaV (strict : Bool) (dst : Nat) (x y z : FVal) : Nat × Flags :=
  match nanOf strict dst [x, y, z] with
  | some r => (r.1, if prodInvalid x y then r.2 ||| fINV else r.2)
  | none =>
    if prodInvalid x y then invalidF dst
    else
      match x, y, z with
      | .fin n1 m1 e1, .fin n2 m2 e2, .fin n3 m3 e3 =>
        let r := addExact (n1 != n2) (m1 * m2) (e1 + e2) n3 m3 e3
        roundF strict dst r.1 r.2.1 1 r.2.2
      | .fin _ _ _, .fin _ _ _, .inf n3 => (infBits dst n3, 0)
      | x, y, z =>
        let ng : FVal → Bool := fun v => match v with | .fin n _ _ => n | .inf n => n | .nan n _ _ _ => n
        let s := ng x != ng y
        match z with
        | .inf n3 => if n3 = s then (infBits dst s, 0) else invalidF dst
        | _ => (infBits dst s, 0)

/-- Order key of a non-NaN encoding, with −0 below +0 (R77, R101). -/
def orderKey (f bits : Nat) : Int :=
  let w := (ffOf f).fb + (ffOf f).eb
  let m : Nat := bits % 2 ^ w
  if (bits >>> w) % 2 = 1 then -(m : Int) - 1 else (m : Int)

/-- IEEE 754-2019 maximum or minimum; the selected operand's encoding is the result (R34, R101). -/
def maxMinF (strict isMax : Bool) (f a b : Nat) : Nat × Flags :=
  match nanOf strict f [decodeF f a, decodeF f b] with
  | some r => r
  | none =>
    if isMax then (if orderKey f a < orderKey f b then b else a, 0)
    else (if orderKey f b < orderKey f a then b else a, 0)

/-- Saturate an exact integer to the INT32 accumulation range ±(2³¹ − 1) (R46). -/
def satInt32 (v : Int) : Nat × Flags :=
  if v > 2147483647 then (0x7FFFFFFF, fOVF)
  else if v < -2147483647 then (unsigned 32 (-2147483647), fOVF)
  else (unsigned 32 v, 0)

/-- INT32 addition and subtraction of R46. -/
def addI (a b : Nat) : Nat × Flags := satInt32 (signed 32 a + signed 32 b)
def subI (a b : Nat) : Nat × Flags := satInt32 (signed 32 a - signed 32 b)

/-- Is `f` to `g` a widening conversion (R30)? -/
def isWiden (f g : Nat) : Bool :=
  (g = cFP32 && isFp f && f != cFP32) || (g = cBF16 && (f = cE4M3 || f = cE5M2))

/-- Are `f` to `g` a source and destination of R38 without a scale? -/
def cvtLegal (f g : Nat) : Bool :=
  (f = cFP32 && (g = cBF16 || g = cFP16 || g = cE5M2 || g = cE4M3 || g = cINT32)) ||
  isWiden f g || (f = cFP16 && g = cBF16) || (f = cINT32 && g = cFP32) ||
  ((f = cINT4 || f = cINT8) && g = cINT32)

/-- Convert one floating-point element to a floating-point format (R30, R38). -/
def cvtFF (strict : Bool) (f g a : Nat) : Nat × Flags :=
  let x := decodeF f a
  match nanOf strict g [x] with
  | some r => r
  | none =>
    match x with
    | .fin n m e => if isWiden f g then roundF true g n m 1 e else roundF strict g n m 1 e
    | .inf n => (infBits g n, infFlags g)
    | _ => invalidF g

/-- FP32 to INT32 (R38). -/
def cvtFI (strict : Bool) (a : Nat) : Nat × Flags :=
  match decodeF cFP32 a with
  | .nan _ _ _ _ => (0, fINV)
  | .inf n => (if n then unsigned 32 (-2147483647) else 0x7FFFFFFF, fOVF)
  | .fin n m e =>
    let r := roundInt strict m 1 e
    let q := satInt32 (if n then -(r.1 : Int) else r.1)
    (q.1, q.2 ||| (if r.2 then fINX else 0))

/-- INT32 to FP32 (R38). -/
def cvtIF (strict : Bool) (a : Nat) : Nat × Flags :=
  let v := signed 32 a
  roundF strict cFP32 (decide (v < 0)) v.natAbs 1 0

/-- A conversion of R38 without a scale. -/
def cvt (strict : Bool) (f g a : Nat) : Nat × Flags :=
  if f = cINT4 then (unsigned 32 (signed 4 a), 0)
  else if f = cINT8 then (unsigned 32 (signed 8 a), 0)
  else if f = cINT32 then cvtIF strict a
  else if g = cINT32 then cvtFI strict a
  else cvtFF strict f g a

/-- Largest quantised magnitude: 127 for INT8, 7 for INT4 (R43). -/
def qmax (g : Nat) : Nat := if g = cINT4 then 7 else 127

/-- Is a BF16 scale usable (not zero, subnormal, infinite or NaN; R43)? -/
def scaleOk (s : Nat) : Bool := decide (0 < (s >>> 7) % 256 ∧ (s >>> 7) % 256 < 255)

/-- Quantise one FP32 value with a BF16 scale to INT8 or INT4 (R38, R43). -/
def quant (strict : Bool) (g x s : Nat) : Nat × Flags :=
  if !scaleOk s then (0, fINV)
  else
    match decodeF cFP32 x, decodeF cBF16 s with
    | .nan _ _ _ _, _ => (0, fINV)
    | .inf n, .fin ns _ _ => (unsigned (fmtBits g) (if n != ns then -(qmax g : Int) else qmax g), fOVF)
    | .fin n m e, .fin ns ms es =>
      let r := roundInt strict m ms (e - es)
      let q := min r.1 (qmax g)
      (unsigned (fmtBits g) (if n != ns then -(q : Int) else q),
        (if qmax g < r.1 then fOVF else 0) ||| (if r.2 then fINX else 0))
    | _, _ => (0, fINV)

/-- De-quantise: q × s, exact, rounded once to FP32 (R42). -/
def dequant (strict : Bool) (f q s : Nat) : Nat × Flags :=
  let v := signed (fmtBits f) q
  mulV strict cFP32 (.fin (decide (v < 0)) v.natAbs 0) (decodeF cBF16 s)

/-- Magnitude encoding of an FP32 value (sign cleared): orders magnitudes; NaN above infinity. -/
def magBits (x : Nat) : Nat := x % 2 ^ 31

/-- The scale chosen for a group of FP32 values (R44 steps 1 to 4); `none` is step 2's NaN or infinity. -/
def chooseScale (g : Nat) (xs : List Nat) : Option Nat :=
  let a := xs.foldl (fun m x => max m (magBits x)) 0
  if 0x7F800000 ≤ a then none
  else if a = 0 then some 0x3F80
  else
    match decodeF cFP32 a with
    | .fin _ m e =>
      let E := log2q m (qmax g) + e
      if E < -126 then some 0x0080
      else
        let k := e - (E - 7)
        let n := if 0 ≤ k then m * 2 ^ k.toNat else m
        let d := if 0 ≤ k then qmax g else qmax g * 2 ^ (-k).toNat
        let sg := cdiv n d
        if sg = 256 then some (((E + 1 + 127).toNat) * 128) else some ((E + 127).toNat * 128 + (sg - 128))
    | _ => none

/-- R44 and R43 on one group: the scale, the elements, the flags. -/
def quantGroup (strict : Bool) (g : Nat) (xs : List Nat) : Nat × List Nat × Flags :=
  match chooseScale g xs with
  | none => (0x7FC0, xs.map (fun _ => 0), fINV)
  | some s =>
    let rs := xs.map (fun x => quant strict g x s)
    (s, rs.map Prod.fst, rs.foldl (fun a r => a ||| r.2) 0)

/-- Bytes of a list of elements of a format, INT4 packed (R28). -/
def packElems (f : Nat) (xs : List Nat) : List Byte :=
  if f = cINT4 then packNibbles xs else xs.flatMap (fun x => leBytes (fmtBits f / 8) x)

/-- The elements of a format that a byte string holds. -/
def unpackElems (f : Nat) (bs : List Byte) : List Nat :=
  if f = cINT4 then nibbles bs else (chunks (fmtBits f / 8) bs.length bs).map ofLe

end Sys2Proof.Machine
end

