-- ==== Sys2Proof/Config.lean ====
section
/-! DEFINITION. What one implementation fixes and the free values: opaque constants, so that no proof can
see what they are and every claim holds whatever they are (assumption log 2 and 3). -/

namespace Sys2Proof.Config

/-- SHAKE256 (FIPS 202), `n` output bytes. The manual uses it by name only; log 2. -/
opaque shake256 : List Byte → Nat → List Byte

/-- The AES-256-GCM tag (FIPS 197, SP 800-38D), 16 bytes, of key, IV, additional data, plaintext; log 2. -/
opaque gcmTag : List Byte → List Byte → List Byte → List Byte → List Byte

/-- The AES-256-GCM key stream byte `i` under key and IV: ciphertext is plaintext xor stream; log 2. -/
opaque gcmStream : List Byte → List Byte → Nat → Byte

/-- ML-DSA-65 signature check (FIPS 204): public key, message, signature; log 2. -/
opaque dsaVerify : List Byte → List Byte → List Byte → Bool

/-- ML-DSA-65 signature of a message under the key pair derived from a seed, 3,309 bytes; log 2. -/
opaque dsaSign : List Byte → List Byte → List Byte

/-- ML-DSA-65 public key of a seed, 1,952 bytes; log 2. -/
opaque dsaPublic : List Byte → List Byte

/-- ML-KEM-768 encapsulation key of a seed (FIPS 203), 1,184 bytes; log 2. -/
opaque kemPublic : List Byte → List Byte

/-- ML-KEM-768 ciphertext of an encapsulation to a key with given randomness, 1,088 bytes; log 2. -/
opaque kemCipher : List Byte → List Byte → List Byte

/-- ML-KEM-768 shared secret of an encapsulation to a key with given randomness; log 2. -/
opaque kemShared : List Byte → List Byte → List Byte

/-- ML-KEM-768 decapsulation: seed, ciphertext; log 2. -/
opaque kemDecaps : List Byte → List Byte → List Byte

/-- 32 bytes drawn from the entropy source of a hub at draw number `n` (R441): a free value; log 3. -/
opaque random32 : Nat → List Byte

/-- A 32-bit free value, number `n`: what an undefined accumulator element or an unspecified read holds; log 3. -/
opaque freeWord : Nat → BitVec 32

/-- A free byte, number `n` (R195, R233); log 3. -/
opaque freeByte : Nat → Byte

/-- A free choice, number `n`; log 3. -/
opaque freeBool : Nat → Bool

/-- The images of the shipped function tables, slots 0 to 7 (R123): header words 0 to 15 and then the
segment words. The manual delivers them as a data file, not in its text; log 4. -/
opaque shippedTable : Nat → Nat → BitVec 32

/-- The vendor firmware public key in the boot ROM (R440); log 2. -/
opaque vendorFwKey : List Byte

/-- The vendor device-CA public key in the boot ROM (R440); log 2. -/
opaque vendorCaKey : List Byte

/-- The boot ROM version, 4 bytes (R445); log 2. -/
opaque romVersion : List Byte

/-- The device-unique secret of R439, a fuse value; log 2. -/
opaque uds : List Byte

/-- SerialNumber, at most 32 characters, a fuse value (R437); log 2. -/
opaque serial : List Byte

/-- The device certificate of R440, 3,309 bytes; log 2. -/
opaque deviceCert : List Byte

/-- MgmtMac, 48 bits, a fuse value (R437); log 2. -/
opaque mac : BitVec 48

/-- DieStepping of a die code, a fuse value (R437); log 2. -/
opaque dieStepping : Nat → BitVec 8

/-- The two physical core numbers disabled on a compute die, fuse values (R22); log 2. -/
opaque disabledCores : Nat → List Nat

/-- Is the older module with a device number an S1, rather than an S2? A fact of the system that no object of the device gives; log 78. -/
opaque memberS1 : Nat → Bool

/-- FirmwareVersion, which the running firmware supplies, by its measurement (R437); log 2. -/
opaque fwVersion : List Byte → List Byte

end Sys2Proof.Config
end

