-- ==== Sys2Proof/Machine/State.lean ====
section
/-! DEFINITION. The state of the module as plain data: every register, queue, buffer, counter, mode and pin
the manual gives it, chapter by chapter, and the queue of waiting commands. `State.reset` is the module
without input power. -/

namespace Sys2Proof.Machine

/-- A NUMFLAGS register (R47), whether its event was posted since its last clear (R54), and a clear that
waits for the engine's clock (R53). -/
structure FlagReg where
  v : BitVec 4 := 0
  posted : Bool := false
  pendClr : BitVec 4 := 0
deriving DecidableEq, Repr

/-! The matrix engine (chapter 3). -/

/-- A tile slot: state 0 FREE, 1 OPEN, 2 DRAINING (R89), its bindings (R70) and its accumulator, row-major. -/
structure Slot where
  st : Nat := 0
  afmt : Nat := 0
  bfmt : Nat := 0
  grp : Nat := 0
  acc : Bool := false
  strict : Bool := false
  accs : List Word := []
deriving DecidableEq, Repr

/-- Work of the array, executed one at a time in issue order (R74). `left` counts the groups still to enter; `ecc` is what the words
of the tile show when it is read (R187). -/
inductive ArrItem where
  | zero (slot : Nat)
  | load (slot laddr : Nat) (ecc : List (Nat × Ecc))
  | mac (slot kg left aaddr baddr ascl bscl : Nat)
  | merge (slot taddr : Nat) (ecc : List (Nat × Ecc))
deriving DecidableEq, Repr

/-- A drain: its command, its issue number, and the rows already entered in the hand-off queue (R76, R80). -/
structure Drain where
  slot : Nat
  w : Cmd
  num : Nat
  row : Nat := 0
deriving DecidableEq, Repr

structure MxeSt where
  cfg : Word := 0
  slots : SMap Slot := []
  arrQ : List (Nat × ArrItem) := []
  drains : List Drain := []
  hq : List (List Byte) := []
  num : Nat := 0
  flags : FlagReg := {}
deriving DecidableEq, Repr

/-! The vector engine and SFU (chapter 4). -/

/-- An instruction in the VXE with the mode, VL and RLEN it was issued under. -/
structure VxItem where
  w : Cmd
  strict : Bool
  vl : Nat
  rlen : Nat
  ecc : List (Nat × Ecc) := []
deriving DecidableEq, Repr

structure VxeSt where
  v : SMap Byte := []
  vl : Nat := 0
  rlen : Nat := 96
  /-- the instructions that the pipes hold, at most one in each, oldest first, and those that wait behind them (R94, R95) -/
  pipes : List VxItem := []
  q : List VxItem := []
  /-- the entries that the VX.HQPOP in the MEM pipe has taken -/
  popped : Nat := 0
  flags : FlagReg := {}
deriving DecidableEq, Repr

structure SfuSt where
  /-- loadable slots: word `k` of slot `f` at key f * 4096 + k -/
  tables : SMap Word := []
  valid : BitVec 8 := 0
  stage : SMap Byte := []
  checking : Option Nat := none
  lastSlot : Nat := 0
  result : Nat := 0
  flags : FlagReg := {}
deriving DecidableEq, Repr

/-! The sequencer (chapter 5). -/

/-- The segment in progress (R142, R170). -/
structure Segment where
  strict : Bool
  segid : Word
  pred : Word
  start : Nat
deriving DecidableEq, Repr

/-- An open loop: stream offset of its first body command, COUNT, passes completed (R148). -/
structure LoopSt where
  body : Nat
  count : Nat
  done : Nat
deriving DecidableEq, Repr

structure SeqSt where
  /-- 0 IDLE, 1 RUN, 2 WAIT, 3 DONE, 4 HALTED, 5 FAULT (R164) -/
  st : Nat := 0
  fcode : Nat := 0
  waitk : Nat := 0
  entry : Nat := 0
  pc : Nat := 0
  fault : Word := 0
  base : Nat := 0
  len : Nat := 0
  loops : List LoopSt := []
  /-- the SEQ command, or the held MX.OPEN, that has not completed -/
  cmd : Option Cmd := none
  seg : Option Segment := none
  seqno : Nat := 0
  lastIssue : Nat := 0
  stallPosted : Bool := false
  /-- the fetch buffer: the stream's bytes from SEQ_PC on, at most 4,096 (R140) -/
  buf : List Byte := []
deriving DecidableEq, Repr

/-! The stream engine (chapter 7). -/

/-- A gate addition on its way, with the placement epoch in force when it was issued (R153, R173, R234). -/
structure GateAdd where
  gaddr : Nat
  add : Nat
  epoch : Nat
deriving DecidableEq, Repr

/-- An ST.ISSUE in the issue queue, with the passes completed in each open loop, outermost first. -/
structure StCmd where
  w : Cmd
  passes : List Nat
deriving DecidableEq, Repr

/-- What an STE request moves: data unit `u` of the stream with its destination address, an index sector, or a
SCALEPANEL source sector, both by sector number. -/
inductive ReqKind where
  | unit (u dst : Nat)
  | index (sec : Nat)
  | scale (sec : Nat)
deriving DecidableEq, Repr

/-- A response that has come back to an STE: the bytes read (none for a write), or a status of R235. -/
structure Resp where
  slot : Nat
  kind : ReqKind
  data : List Byte
  status : Nat
deriving DecidableEq, Repr

/-- A stream in a slot (R213 to R236). `g` counts the grants that moved data, `secs` are the source sectors of a
SCALEPANEL with its scale entry, `idx` the index sectors held, `held` the writes that wait for an earlier one to the
same sector (R233). `status` 1 is a stream cancelled by a stop (R235). -/
structure Strm where
  busy : Bool := false
  desc : List Word := []
  descNo : Nat := 0
  pass : Nat := 0
  sig : Bool := false
  gaddr : Nat := 0
  add : Nat := 0
  t0 : Nat := 0
  epoch : Nat := 0
  g : Nat := 0
  secs : List Nat := []
  sbase : Nat := 0
  snv : Nat := 0
  sng : Nat := 0
  idx : List (Nat × List Byte) := []
  idxWait : Bool := false
  held : List (Nat × Nat × List Byte) := []
  order : Nat := 0
  starve : Nat := 0
  outst : List ReqKind := []
  /-- those of `outst` that hold an entry of the shared pool (R215) -/
  shared : List ReqKind := []
  /-- the scales that a SCALEPANEL has written in each 64-byte sector of its panel, by sector number (R252) -/
  panel : SMap Nat := []
  status : Nat := 0
deriving DecidableEq, Repr

structure SteSt where
  q : List StCmd := []
  slots : SMap Strm := []
  resp : List Resp := []
  err : Word := 0
  order : Nat := 0
  sigBusy : Nat := 0
  sigWait : List GateAdd := []
deriving DecidableEq, Repr

/-- One enabled core by its logical number; `spad` is its scratchpad, `ceCnt` and `ue` are SPAD_ERR. -/
structure CoreSt where
  clken : BitVec 5 := 0
  mxe : MxeSt := {}
  vxe : VxeSt := {}
  sfu : SfuSt := {}
  seq : SeqSt := {}
  ste : SteSt := {}
  spad : SMap Byte := []
  ceCnt : Nat := 0
  ue : Bool := false
  /-- the matrix and vector engines hold between groups and chunks (R390, R396, R397) -/
  mxePaused : Bool := false
  vxePaused : Bool := false
deriving DecidableEq, Repr

/-! The schedule image (chapter 5). -/

/-- One section of the held image (R127). -/
structure Section where
  typ : Nat
  core : Nat
  sub : Nat
  off : Nat
  len : Nat
deriving DecidableEq, Repr

structure SchedSt where
  /-- the codes of R134 -/
  st : Nat := 0
  loadOff : Nat := 0
  loadResult : Nat := 0
  digest : List Byte := []
  nentry : Nat := 0
  logn : Nat := 0
  logBase : Nat := 0
  imgOff : Nat := 0
  imgLen : Nat := 0
  secs : List Section := []
  entry : Nat := 0
  /-- a fault halts the image (R163): FAULTED follows when the engines are idle; `halted`: the stop has reached the other SEQs -/
  faulting : Bool := false
  halted : Bool := false
  /-- the hub that serves every barrier since the last load, when the other was fenced then (R154) -/
  barHub : Option Nat := none
  recDie : Nat := 0
  recCore : Nat := 0
  recCode : Nat := 0
  recCmd : Nat := 0
  recOff : Nat := 0
  recTime : Nat := 0
  recValid : Bool := false
  stallLimit : Nat := 100000
  overrun : Nat := 20
  placeEpoch : Nat := 0
  stale : Nat := 0
  future : Nat := 0
  futureSeen : List Nat := []
deriving DecidableEq, Repr

/-- A barrier unit (R154): participants as global core numbers, and arrivals since its last release. -/
structure BarSt where
  mask : List Nat := []
  arrived : Nat := 0
  waiting : List Nat := []
  inflight : List Nat := []
deriving DecidableEq, Repr

/-! Memory (chapter 6). -/

/-- An MSC line: stack line address, dirty, keep mark, 64 bytes (R191). -/
structure Line where
  tag : Nat
  dirty : Bool
  keep : Bool
  data : List Byte
deriving DecidableEq, Repr

/-- Who sent a request to a slice: a stream of an STE, a remote module (its job, and which sector of it), a remote or local gate
addition, or the slice itself for a victim that it writes back on behalf of a requester stream (R200). -/
inductive ReqOwner where
  | stream (core slot : Nat) (kind : ReqKind)
  | remote (job part : Nat)
  | gate
  | back (requester : Nat)
deriving DecidableEq, Repr

/-- What a request does: reads its sector, writes all of it, or adds to the gate in it. -/
inductive MemOp where
  | read
  | write (data : List Byte)
  | add (n : Nat)
deriving DecidableEq, Repr

/-- A request inside a slice: owner, band, stack address, operation and hint, and the OuterEccPolicy in force when it was admitted
(R205). -/
structure MemReq where
  owner : ReqOwner
  band : Nat
  addr : Nat
  op : MemOp
  hint : Nat
  policy : Nat := 0
deriving DecidableEq, Repr

/-- A remote request that the slices serve (R295): the request, the sectors still to come, those that have come, and the first status
other than OK. -/
structure RemoteJob where
  pkt : Packet
  left : Nat
  parts : List (Nat × List Byte) := []
  status : Nat := 0
deriving DecidableEq, Repr

/-- The open row of a bank and the open-row hits served ahead of its oldest request in succession (R202). -/
structure BankSt where
  row : Option Nat := none
  streak : Nat := 0
  lastAdm : Nat := 0
deriving DecidableEq, Repr

/-- One region: MSC slice, HBM controller and stack. -/
structure RegionSt where
  /-- lines of a set, most recently used first -/
  sets : SMap (List Line) := []
  op : Option Nat := none
  baseLo : Word := 0
  baseHi : Word := 0
  len : Word := 0
  result : Nat := 0
  q : List MemReq := []
  held : List MemReq := []
  adm : List MemReq := []
  banks : SMap BankSt := []
  poison : List Nat := []
  fenced : Bool := false
  /-- RegionClkEn: bit 1 MSC, bit 0 HBM (R392) -/
  clken : BitVec 2 := 0
  temp : Int := 0
  throttle : Nat := 0
  ce : Nat := 0
  uec : Nat := 0
  laneRepairs : Nat := 0
  scrubPos : Nat := 0
  refreshes : Nat := 0
deriving DecidableEq, Repr

structure MemSt where
  /-- HBM bytes at stack * 2^40 + stack address -/
  hbm : SMap Byte := []
  bandMap : BitVec 36 := 0
  /-- band changes in progress: band and the mode it takes -/
  bandChg : List (Nat × Bool) := []
  regions : SMap RegionSt := []
  /-- errors of stored sectors that the code could not correct, by the key of `hbm`; they stay until the sector is written (log 15) -/
  errs : SMap HbmErr := []
  /-- remote requests inside the slices, by job number -/
  jobs : SMap (Option RemoteJob) := []
  nextJob : Nat := 0
  eccPolicy : Nat := 0
  scrubPeriod : Nat := 24
  ceThreshold : Nat := 1000
  spadCe : SMap Nat := []
  remoteLimit : Nat := 0xD800000000
  streamErrors : Nat := 0
deriving DecidableEq, Repr

/-! Events (chapter 14). -/

/-- An event (R433). -/
structure Ev where
  code : Nat := 0
  sev : Nat := 0
  src : Nat := 0
  tsc : Nat := 0
  args : List Word := []
  late : Bool := false
  evseq : Nat := 0
deriving DecidableEq, Repr

structure LogSt where
  /-- raised, not yet delivered to the log; delivered, not yet committed -/
  raised : List Ev := []
  held : List Ev := []
  recs : SMap Ev := []
  next : Nat := 0
  oldest : Nat := 0
  lost : Nat := 0
deriving DecidableEq, Repr

/-! Die-to-die ports (chapter 1). -/

/-- A flit that waits for its SEQ: class, source and destination die codes, payload (R11). -/
structure Flit where
  cls : Nat
  src : Nat
  dst : Nat
  payload : List Byte
deriving DecidableEq, Repr

/-- A die-to-die adapter (R11 to R14). -/
structure AdapterSt where
  up : Bool := false
  failed : Bool := false
  /-- new flits sent since training: the SEQ of the next is this modulo 64 -/
  txCount : Nat := 0
  /-- flits of the classes 1 to 3 that wait to be sent, oldest first, without SEQ and CRC (log 66) -/
  queue : List Flit := []
  /-- the last 64 flits sent, oldest first -/
  replay : List (List Byte) := []
  rxExp : Nat := 0
  discarding : Bool := false
  reqCount : Nat := 0
  /-- the position the far side last asked for, counted in `txCount`, and the times it did so in succession -/
  askPos : Option Nat := none
  askCount : Nat := 0
  /-- the flits delivered to the die, newest first -/
  delivered : List (List Byte) := []
deriving DecidableEq, Repr

/-! Links (chapter 9). -/

/-- A packet or link message queued at a port: its slot code (R269), its slots of 256 bytes, and whether it enters
a ring here and needs 16 slots of credit beyond its own (R298). `land` is the landing whose bytes have left when the packet has
(R223): its number and their count; `inj` marks an injected packet with its core (R252). -/
structure TxPk where
  code : Nat
  slots : List (List Byte)
  entry : Bool
  land : Option (Nat × Nat) := none
  inj : Option Nat := none
deriving DecidableEq, Repr

/-- A slot in a port's ingress buffer: code, bytes, and the credit pool it was drawn from (R270, R272). -/
structure RxSlot where
  code : Nat
  data : List Byte
  pool : Nat
deriving DecidableEq, Repr

/-- A link port by its port code (R264). Credit pools in order: control, request, response, bulk, shared. -/
structure PortSt where
  st : Nat := 1
  hold : Nat := 0
  expPeer : Word := 0
  expKey : List Byte := List.replicate 32 0
  seenPeer : Word := 0
  seenKey : List Byte := List.replicate 32 0
  seenFw : List Byte := List.replicate 32 0
  ver : Nat := 0
  laneMap : Nat := 0
  fecC : Nat := 0
  fecU : Nat := 0
  replays : Nat := 0
  heldDisc : Nat := 0
  /-- transmit queues: flooded packets, link messages, object packets, then the three other channels -/
  txFlood : List TxPk := []
  txLink : List TxPk := []
  txObj : List TxPk := []
  txReq : List TxPk := []
  txRsp : List TxPk := []
  txBulk : List TxPk := []
  rrTx : Nat := 0
  objTick : Nat := 0
  objSent : Nat := 0
  credit : List Nat := [32, 0, 0, 0, 0]
  credPend : List Nat := [0, 0, 0, 0, 0]
  rrCred : Nat := 0
  /-- the credits that the peer held when it sent the last accepted frame, as its ACKSEQ shows, and the credit returns sent that it
  has not acknowledged: FSEQ, kind, count (R272) -/
  peerCred : List Nat := [32, 0, 0, 0, 0]
  credSent : List (Nat × Nat × Nat) := []
  fseq : Nat := 0
  /-- a frame has been sent since lane training (R268) -/
  begun : Bool := false
  /-- the last 64 frames sent, oldest first; the frames of the group in progress; frames of a resend still to send; ACKSEQ of the
  NAK that the resend answers, or will; the times that each group of the buffer was resent -/
  buf : List Frame := []
  txGroup : List Frame := []
  resend : List Frame := []
  resendFor : Option Nat := none
  resendFrom : Option Nat := none
  resent : List (Nat × Nat) := []
  txCtr : Nat := 0
  txTag : List Byte := []
  /-- the next FSEQ of a group in hand, the frames of that group, the group that waits for its tag -/
  rxNext : Nat := 0
  rxGroup : List Frame := []
  rxHeld : List Frame := []
  rxBad : Bool := false
  ack : Nat := 0
  nak : Bool := false
  rxCtr : Nat := 0
  ingress : List RxSlot := []
  enc : Bool := false
  keyTx : List Byte := []
  keyRx : List Byte := []
  fixTx : List Byte := []
  fixRx : List Byte := []
  rate : Nat := 0
  stepStart : Nat := 0
  downTick : Nat := 0
  /-- the Waltz: own nonce and encapsulation seed, what has been sent, what has arrived -/
  nonce : List Byte := []
  ekSeed : List Byte := []
  mseqTx : Nat := 0
  sent : List (Nat × List Byte) := []
  rcvd : List (Nat × List Byte) := []
  secretOut : List Byte := []
  ownVerdict : Option Nat := none
  peerVerdict : Option Nat := none
  lastKa : Nat := 0
  linkDelay : Nat := 0
  /-- the peer's measurement and MINVER, MAXVER; TSC values recorded at the last KEEPALIVE (R404) -/
  peerFw : List Byte := []
  peerId : List Byte := []
  /-- FLAGS of the peer's capability block, zero where its version lacks them (R284) -/
  peerFlags : Nat := 0
  peerMin : Nat := 0
  peerMax : Nat := 0
  kaRemote : Nat := 0
  kaLocal : Nat := 0
deriving DecidableEq, Repr

/-! The fabric (chapter 10). -/

/-- A merged READ or WRITE packet that is still open (R294): target device, offset, sectors so far. -/
structure OpenPk where
  core : Nat
  slot : Nat
  write : Bool
  dst : Nat
  off : Nat
  epchk : Bool
  epoch : Nat
  hint : Nat
  kinds : List ReqKind
  data : List Byte
deriving DecidableEq, Repr

/-- A request of this module that is in the fabric, by its TXN: who waits, for which data, on which port. -/
inductive TxnOwner where
  | stream (core slot : Nat) (kinds : List ReqKind)
  | gateAdd (core : Nat)
  | coll (hub : Nat)
  | husk (hub job : Nat)
deriving DecidableEq, Repr

structure Txn where
  owner : TxnOwner
  port : Nat
deriving DecidableEq, Repr

/-- The last 1,024 sequence numbers accepted below a highest one (R457, R458). -/
structure SeqWin where
  hi : Option Nat := none
  seen : List Nat := []
deriving DecidableEq, Repr

structure FabSt where
  sysDims : Word := 0x1FFFF
  /-- SliceBlock, in the layout of R300; SLICE 0 is the 1 × 1 × 1 block at the module's own coordinates -/
  sliceW : BitVec 64 := 0
  treeAccept : List Nat := []
  sliceDrops : Nat := 0
  headerDrops : Nat := 0
  noPathDrops : Nat := 0
  treeDrops : Nat := 0
  flood : List (Nat × Nat) := []
  cseq : Nat := 0
  opens : SMap (Option OpenPk) := []
  txns : SMap (Option Txn) := []
  nextTxn : Nat := 0
  tseq : Nat := 0
  wins : SMap SeqWin := []
  fmWin : SeqWin := {}
  /-- Reel packets held for want of a landing: port, packet, tick held (R223, R256) -/
  reelHeld : List (Nat × Packet × Nat) := []
  reelHeldCount : SMap Nat := []
  /-- directions and tags of the Reel-hold events posted (R256) -/
  reelPosted : List (Nat × Nat) := []
  /-- the landings armed so far -/
  landNo : Nat := 0
  /-- a stop has disarmed landings and no entry has started since: Reel packets without a landing are discarded (R237, R255) -/
  reelOff : Bool := false
  reelHoldLimit : Nat := 1000
  waltzRetry : Nat := 1000000
  fwAccept : List (List Byte) := []
  /-- for a torus direction that is losing its ports: when the first left UP, and the ports still to leave (R365) -/
  lossWin : SMap (Option (Nat × List Nat)) := []
  collErrors : Nat := 0
deriving DecidableEq, Repr

/-! Hubs (chapters 10 and 12). -/

/-- One step of a descriptor's program on this member (R316 to R325; log 40). Element positions count in the descriptor's
buffer. `load`: the input from SRC, as FP32 values of the reducer or, raw, as elements in place. `own`: the own value becomes,
or is added to, the running value. `recv`: `n` elements of a step from a device, set, added (mode 1) or kept as they are
(mode 2). `send`: the running value quantised for the wire (mode 0), elements as they are (mode 1), or rounded to the format of
an older member (mode 2). `next`: the running value is the next axis's input. `quant`: the final chunk becomes its wire value.
`write`: a range to memory at element offset `off` of DST, from the running value (mode 0), wire values (mode 1) or elements
(mode 2). `move`: one entry of a move list. -/
inductive CollOp where
  | load (lo n : Nat) (raw : Bool)
  | own (lo n : Nat) (add : Bool)
  | recv (step src lo n mode : Nat)
  | send (step dst lo n mode : Nat)
  | next
  | quant (lo n : Nat)
  | write (lo n off mode : Nat)
  | move (dst src units gate : Nat)
deriving DecidableEq, Repr

/-- A hub's collective table and sequencer (R311, R312). STATE: 0 IDLE, 1 GATE, 2 RUN, 3 DONE, 4 HALTED. Elements of
`own` and `acc` are FP32 words or raw elements; 2 ^ 32 + q + 256 * scale is an INT8 wire element with its group's scale. -/
structure CollSt where
  tbaseLo : Word := 0
  tbaseHi : Word := 0
  tcount : Word := 0
  result : Nat := 0
  err : Word := 0
  st : Nat := 0
  index : Nat := 0
  table : List (List Word) := []
  queue : List Nat := []
  prog : List CollOp := []
  own : SMap Nat := []
  acc : SMap Nat := []
  got : Nat := 0
  /-- acknowledgements outstanding, and the gates to add 1 to when they have all come (R325) -/
  acks : Nat := 0
  gates : List Nat := []
  /-- the formats in which older members have sent, by device number (R323) -/
  oldFmt : SMap Nat := []
  /-- packets held in the ingress buffers (R321), with the port each came by -/
  held : List (Nat × Packet) := []
  heldCount : Nat := 0
deriving DecidableEq, Repr

/-- A hub's parity engine (R354 to R372): PAR_STAT and PAR_ERR, the entries still to do, and for the entry in hand the
members whose trailer is awaited, the READ requests outstanding, the bytes pulled (member * 2 ^ 24 + position), the members
pulled, those whose trailer has been read, and those that count as erased. `halt` ends the work after the entry in hand
(R370, R378); `fail` is work that an error has ended (R361). -/
structure ParSt where
  work : Nat := 0
  done : Nat := 0
  err : Word := 0
  todo : List Nat := []
  cur : Option Nat := none
  wait : List Nat := []
  outst : Nat := 0
  got : SMap Byte := []
  have_ : List Nat := []
  asked : List Nat := []
  erased : List Nat := []
  halt : Bool := false
  fail : Bool := false
deriving DecidableEq, Repr

structure HubSt where
  fenced : Bool := false
  /-- HubClkEn and CtlCoreEnable (R392) -/
  clken : BitVec 16 := 0
  cpuEn : BitVec 8 := 0
  flags : FlagReg := {}
  coll : CollSt := {}
  par : ParSt := {}
deriving DecidableEq, Repr

/-- An armed landing (R223, R253). -/
structure Landing where
  no : Nat := 0
  core : Nat
  slot : Nat
  indir : Nat
  tag : Nat
  fwd : Bool
  outdir : Nat
  dst : Nat
  len : Nat
  hint : Nat := 0
  landed : Nat := 0
  fwded : Nat := 0
deriving DecidableEq, Repr

/-- Why the machine stops: nothing in the manual stops the module as a whole, so no meaning raises this
fault; it is here because a step has three outcomes. Safe. -/
inductive Fault where
  /-- raised by no meaning; safe -/
  | none
deriving DecidableEq, Repr

/-- Why a command is refused. -/
inductive Refusal where
  /-- a command whose meaning has not been written; raised by an arm of exec, safe -/
  | notModelled (mnemonic : String)
deriving DecidableEq, Repr

/-! The Husk (chapter 12). -/

/-- The Husk state of the module and its objects (R354 to R380). `from_` is the state a rebuild returns to; `fencedFrom`
the state at the first fence; `settleAt` the tick at which the settle timer started. -/
structure HuskSt where
  st : Nat := 0
  gen : Nat := 0
  openGen : Nat := 0
  result : Nat := 0
  decision : Nat := 0
  lost : List Nat := []
  mapBase : Nat := 0
  mapCount : Nat := 0
  tray : Nat := 0
  coord : Nat := 0
  members : Nat := 0
  sealGate : Nat := 0
  settle : Nat := 200
  lossWindow : Nat := 10
  loading : Bool := false
  map : List (List Word) := []
  list : List (List Word) := []
  from_ : Nat := 0
  fenced : Bool := false
  fencedFrom : Nat := 0
  settleAt : Option Nat := none
  sealSeen : Bool := false
  flushing : Bool := false
  flushed : Bool := false
  foldEpoch : Nat := 0
  logBase : Nat := 0
  logLen : Nat := 0
  logNext : Nat := 0
  rebuilt : Nat := 0
  tagFail : Nat := 0
  staleSeals : Nat := 0
deriving DecidableEq, Repr

/-! Training support (chapter 11). -/

structure OptSt where
  step : Nat := 0
  base : Nat := 0
  count : Nat := 0
  gate : Nat := 0
  gscale : Word := 0x3F800000
  prepared : Nat := 0
  failGroup : Nat := 0xFFFF
  statBase : Nat := 0
  /-- the step that an OptPrepare is preparing (R339) -/
  running : Option Nat := none
deriving DecidableEq, Repr

/-! Clocks, power and time (chapter 13). -/

/-- Sources: 0 internal oscillator, 1 crystal, 2 rack reference. `ioscRun` counts the cycles of a failed internal oscillator in
good windows (R386); `lost` is the wait of R388. -/
structure ClockSt where
  trimmed : Bool := false
  active : Nat := 0
  refMax : Nat := 2
  good : BitVec 3 := 0
  /-- cycles of the internal oscillator, and of the crystal, in successive good windows (R382, R386) -/
  ioscRun : Nat := 0
  xtalRun : Nat := 0
  /-- the rack reference: short windows and their sum in the long window in progress, good long windows in succession, the input detector
  (R383) -/
  rackN : Nat := 0
  rackSum : Nat := 0
  rackLong : Nat := 0
  rackSeen : Bool := false
  locked : Bool := false
  holdover : Bool := false
  lost : Bool := false
  failCount : Nat := 0
  unlockCount : Nat := 0
  outSel : Word := 0
  /-- the clock output is held low, whatever ClockOutSel says (R388, R465, R477) -/
  outLow : Bool := true
deriving DecidableEq, Repr

/-- One compute die: level in force, level the sequencer moves to, whether the ramp is one whose request changed (R390), CoreLevelFloor, rail in mV, thermal level, and the
requests of its rail monitor with the good samples since (R389, R390, R397, R399). -/
structure DieSt where
  level : Nat := 0
  target : Nat := 0
  ramping : Bool := false
  byLevel : Bool := false
  floor : Nat := 0
  rail : Nat := 0
  therm : Nat := 0
  railReq : Bool := false
  railPause : Bool := false
  railGood : Nat := 0
deriving DecidableEq, Repr

structure PowerSt where
  vin : Nat := 0
  stage : Nat := 0
  shedCount : Nat := 0
  /-- samples in succession below 30.0 V, above 63.0 V, at or above the leave thresholds of stages 1 to 4; samples since a
  stage was left (R396, R398) -/
  low : Nat := 0
  high : Nat := 0
  good : List Nat := [0, 0, 0, 0]
  sinceLeave : Nat := 100
  /-- input power samples, newest first, at most 1,000; samples since the cap last rose and last fell -/
  watts : List Nat := []
  sinceRise : Nat := 100
  sinceFall : Nat := 1000
  capLevel : Nat := 0
  dies : SMap DieSt := []
  temps : SMap Int := []
  /-- sensors whose last sample was critical (R400): die code * 16 + sensor, or 0x80 + stack -/
  hot : List Nat := []
  coolantIn : Int := 0
  coolantOut : Int := 0
deriving DecidableEq, Repr

/-- Alignment of the TSC (R403 to R405); `slew` is the correction in force, −1, 0 or 1 tick in every 1,024, `tick` the
time-base ticks since the last multiple of 1,024. -/
structure AlignSt where
  mode : Nat := 0
  parent : Nat := 0
  aligned : Bool := false
  err : Int := 0
  good : Nat := 0
  slew : Int := 0
  tick : Nat := 0
deriving DecidableEq, Repr

/-! Fuses (chapter 15). -/

/-- The fuses that commands burn: owner digests by slot in burning order, slots released, SvnFloor (R444, R449). -/
structure FuseSt where
  slots : List (List Byte) := []
  released : List Nat := []
  svnFloor : Nat := 0
deriving DecidableEq, Repr

/-! Control cores (chapters 1, 6, 13, 14). -/

/-- One control core: the outcome of its last access (bus error, value), its WindowStatus, read latch, staged slot and
staging buffer (R179, R415), and the non-maskable interrupt of R387. -/
structure CpuSt where
  bus : Bool := false
  value : Nat := 0
  status : Nat := 0
  latchSlot : Option Nat := none
  latch : List Byte := []
  staged : Option Nat := none
  stage : SMap Byte := []
  nmi : Bool := false
deriving DecidableEq, Repr

/-! Security (chapter 15). -/

structure SecSt where
  ownerKey : List Byte := List.replicate 1952 0
  voucher : List Byte := List.replicate 3584 0
  countersign : Nat := 1
  credFloor : Nat := 0
  jobId : Nat := 0
  /-- the key that last hashed to OwnerKeyDigest (log 53) -/
  ownerPub : List Byte := List.replicate 1952 0
  fmKey : List Byte := List.replicate 32 0
  report : List Byte := List.replicate 9216 0
  /-- the nonce of a report not yet ready -/
  nonce : Option (List Byte) := none
  mr0 : List Byte := List.replicate 32 0
  mr1 : List Byte := List.replicate 32 0
  mr2 : List Byte := List.replicate 32 0
  mr3 : List Byte := List.replicate 32 0
  fwDigest : List Byte := List.replicate 32 0
  runningSvn : Nat := 0
  dbgOpen : Bool := false
  dbgNonce : List Byte := List.replicate 32 0
  dbgToken : List Byte := List.replicate 3584 0
  dbgScope : BitVec 4 := 0
  /-- the tick at which an open debug state ends -/
  dbgEnd : Nat := 0
  entropyFails : Nat := 0
  /-- hubs whose entropy source has failed -/
  entropyBad : List Nat := []
  authFailAt : Option Nat := none
  fmFails : Nat := 0
  fmFailAt : Option Nat := none
deriving DecidableEq, Repr

/-! Management port (chapter 14). -/

/-- A session of R419 to R423, half-open until ACCEPT. `done` holds the executed SEQs with their RESULTs, `acked` the next
EVSEQ to acknowledge, `sent` the EVENT messages not yet acknowledged: SEQ, tick of the last sending, EVSEQs not yet
acknowledged, message. -/
structure Session where
  id : Nat
  client : Nat
  cport : Nat
  half : Bool := true
  role : Role := .none
  /-- MgmtIdleLimit in force when it opened (R429), in ms -/
  idle : Nat := 10000
  kc : List Byte := []
  kd : List Byte := []
  ic : List Byte := []
  idv : List Byte := []
  proof : List Byte := []
  since : Nat := 0
  last : Nat := 0
  high : Nat := 0
  done : List (Nat × Datagram) := []
  evSeq : Nat := 0
  subscribed : Bool := false
  minSev : Nat := 0
  cursor : Nat := 0
  acked : Nat := 0
  sent : List (Nat × Nat × List Nat × Datagram) := []
deriving DecidableEq, Repr

/-- A segmented message in reassembly: session, SEQ, type, client, segment count, tick, segments so far. -/
structure Reasm where
  session : Nat
  seq : Nat
  typ : Nat
  client : Nat
  cport : Nat
  nseg : Nat
  since : Nat
  segs : List (Nat × List Byte)
deriving DecidableEq, Repr

structure MgmtSt where
  linkUp : Bool := false
  addr : List Byte := List.replicate 16 0
  prefixLen : Nat := 64
  gateway : List Byte := List.replicate 16 0
  udp : Nat := 20563
  idle : Nat := 10000
  drops : Nat := 0
  nextSession : Nat := 1
  hellos : List Nat := []
  sessions : List Session := []
  asm : List Reasm := []
deriving DecidableEq, Repr

/-! Power-on, self-test, flash and black box (chapters 16 and 17). -/

/-- The phase of the input controller and the reset: no rails, hold-up store charging, rails on, held in reset by RESET_N,
the boot ROM waiting for FLASH_EXT_N, safe state. -/
inductive Phase where
  | off | charging | on | held | waitExt | safe
deriving DecidableEq, Repr

structure BootSt where
  phase : Phase := .off
  pinLow : Bool := false
  extLow : Bool := false
  resetCause : Nat := 0
  bootSlot : Nat := 0xFF
  shellCause : Nat := 0
  /-- an accepted image waits to be started (R468 step 6) -/
  accepted : Bool := false
  /-- the boot ROM has begun -/
  rom : Bool := false
  item : Nat := 0
  results : SMap Nat := []
  failItem : Nat := 0
  testStart : Nat := 0
  testEnd : Option Nat := none
  /-- cause of an OBJECT or DEBUG reset that waits for its record (R466) -/
  resetWait : Option Nat := none
deriving DecidableEq, Repr

structure BoxSt where
  newest : Nat := 0
  select : Nat := 0
  status : Nat := 3
  data : List Byte := List.replicate 4096 0
  failures : Nat := 0
  /-- RSEQ the next record takes; the cause and bytes of the record in progress; the cause that waits -/
  next : Nat := 1
  writing : Option (Nat × List Byte) := none
  waiting : Option Nat := none
  /-- background erases under way, by slot -/
  erasing : List Nat := []
deriving DecidableEq, Repr

structure FlashSt where
  /-- device * 2 ^ 26 + offset; erased bytes read 0xFF -/
  bytes : SMap Byte := []
  /-- a ConfigSave's record, or an erase (none), in progress -/
  cfgBusy : Option (Option (List Byte)) := none
  cfgResult : Nat := 0
  fwTarget : Nat := 0
  fwOffset : Nat := 0
  fwResult : Nat := 0
  fwErasing : Bool := false
deriving DecidableEq, Repr

/-- What leaves the module, newest first; no rule reads it. -/
inductive Out where
  | flit (adapter : Nat) (bytes : List Byte)
  | frame (port : Nat) (f : Frame)
  | train (port : Nat)
  | datagram (d : Datagram)
  | advert (client target : Nat)
  | echo (client : Nat) (data : List Byte)
  | tap (i : TapInstr) (served : Bool)
deriving DecidableEq, Repr

/-- The module. -/
structure State where
  pending : List Instr := []
  tsc : Nat := 0
  life : Nat := 0
  lifeSince : Nat := 0
  cores : SMap CoreSt := []
  bars : SMap BarSt := []
  sched : SchedSt := {}
  mem : MemSt := {}
  adapters : SMap AdapterSt := []
  ports : SMap PortSt := []
  hubs : SMap HubSt := []
  landings : List Landing := []
  devNum : Nat := 0
  fab : FabSt := {}
  jobKey : List Byte := []
  /-- JobImageList by sub-index; all zero is an empty entry (R453) -/
  jobImages : SMap (List Byte) := []
  log : LogSt := {}
  flagMask : BitVec 4 := 0
  husk : HuskSt := {}
  opt : OptSt := {}
  clock : ClockSt := {}
  power : PowerSt := {}
  align : AlignSt := {}
  cpus : SMap CpuSt := []
  sec : SecSt := {}
  fuses : FuseSt := {}
  mgmt : MgmtSt := {}
  boot : BootSt := {}
  box : BoxSt := {}
  flash : FlashSt := {}
  /-- the status of an action's last write, by index * 256 + sub-index (R412) -/
  actStatus : SMap Nat := []
  out : List Out := []
  freeCtr : Nat := 0
  rndCtr : Nat := 0
deriving DecidableEq, Repr

/-- The module right after reset, before its input power rises: no rail on, no command waiting, memory with nothing listed and
every register at its reset value (R4, R464; log 5). -/
def State.reset : State := {}

end Sys2Proof.Machine
end

