-- ==== Sys2Proof/Machine/Flags.lean ====
section
/-! DEFINITION. Posting an event (R430, R433) and the NUMFLAGS registers (R47 to R54): what a set, a clear and
a set that meets a clear do, and the numeric flag event. -/

namespace Sys2Proof.Machine

/-- One core, one port, one hub, one adapter, one region of the state. -/
def State.core (s : State) (c : Nat) : CoreSt := s.cores.get {} c
def State.updCore (s : State) (c : Nat) (f : CoreSt → CoreSt) : State :=
  { s with cores := s.cores.upd {} c f }
def State.hub (s : State) (h : Nat) : HubSt := s.hubs.get {} h
def State.updHub (s : State) (h : Nat) (f : HubSt → HubSt) : State := { s with hubs := s.hubs.upd {} h f }
def State.port (s : State) (p : Nat) : PortSt := s.ports.get {} p
def State.updPort (s : State) (p : Nat) (f : PortSt → PortSt) : State := { s with ports := s.ports.upd {} p f }
def State.region (s : State) (r : Nat) : RegionSt := s.mem.regions.get {} r
def State.updRegion (s : State) (r : Nat) (f : RegionSt → RegionSt) : State :=
  { s with mem := { s.mem with regions := s.mem.regions.upd {} r f } }
def State.adapter (s : State) (a : Nat) : AdapterSt := s.adapters.get {} a
def State.updAdapter (s : State) (a : Nat) (f : AdapterSt → AdapterSt) : State :=
  { s with adapters := s.adapters.upd {} a f }

/-- Die and logical core of a global core number; wide-accumulator cores are logical 0 to 11 (R23). -/
def dieOf (c : Nat) : Nat := c / 34
def logOf (c : Nat) : Nat := c % 34
def isWide (c : Nat) : Bool := decide (c % 34 < 12)

/-- Event sources of R430. -/
def srcCore (c e : Nat) : Nat := dieOf c * 256 + 4 * logOf c + e
def srcRegion (r : Nat) : Nat := (r / 6) * 256 + 0xC0 + r % 6
def srcHub (h k : Nat) : Nat := (4 + h) * 256 + k

/-- Post an event of this tick: it is raised at its source, and delivered to the log later; while lock is lost no
source raises events (R431). -/
def State.post (s : State) (code sev src : Nat) (args : List Nat) : State :=
  if s.clock.lost then s
  else { s with log := { s.log with raised := s.log.raised ++
      [{ code := code, sev := sev, src := src, tsc := s.tsc, args := args.map (BitVec.ofNat 32) }] } }

/-- The two words of a 64-bit event argument, low word first (R433). -/
def w64 (v : Nat) : List Nat := [v % 2 ^ 32, v / 2 ^ 32 % 2 ^ 32]

/-- Read and write one NUMFLAGS register. -/
def State.flagReg (s : State) : FlagUnit → FlagReg
  | .mxe c => (s.core c).mxe.flags
  | .vxe c => (s.core c).vxe.flags
  | .sfu c => (s.core c).sfu.flags
  | .hub h => (s.hub h).flags

def State.setFlagReg (s : State) (u : FlagUnit) (r : FlagReg) : State :=
  match u with
  | .mxe c => s.updCore c (fun k => { k with mxe := { k.mxe with flags := r } })
  | .vxe c => s.updCore c (fun k => { k with vxe := { k.vxe with flags := r } })
  | .sfu c => s.updCore c (fun k => { k with sfu := { k.sfu with flags := r } })
  | .hub h => s.updHub h (fun k => { k with flags := r })

/-- The source number of a NUMFLAGS register's engine (R430). -/
def flagSrc : FlagUnit → Nat
  | .mxe c => srcCore c 1
  | .vxe c => srcCore c 2
  | .sfu c => srcCore c 3
  | .hub h => srcHub h 0x50

/-- next = (current and not clear) or set, and the numeric flag event for a bit that rose (R49, R54). A clear
re-arms the event. -/
def State.flagCycle (s : State) (u : FlagUnit) (clr set : BitVec 4) : State :=
  let r := s.flagReg u
  let next := (r.v &&& ~~~clr) ||| set
  let rose := next &&& ~~~r.v
  let armed := !r.posted || decide (clr ≠ 0)
  let fire := armed && decide (rose &&& s.flagMask ≠ 0)
  let s' := s.setFlagReg u { r with v := next, posted := fire || !armed }
  if fire then s'.post 0x0701 1 (flagSrc u) [rose.toNat] else s'

/-- The flags an operation raises when it retires (R48). -/
def State.raiseFlags (s : State) (u : FlagUnit) (set : BitVec 4) : State :=
  if set = 0 then s else s.flagCycle u 0 set

/-- CORE_CLKEN bits (R168): 0 SEQ, 1 MXE, 2 VXE, 3 STE, 4 SPAD; no clock runs while lock is lost (R388). -/
def State.clkOn (s : State) (c bitNo : Nat) : Bool := !s.clock.lost && (s.core c).clken.getLsbD bitNo

/-- Is the clock of a NUMFLAGS register's engine running? The VXE's enable serves the SFU. -/
def State.flagClocked (s : State) : FlagUnit → Bool
  | .mxe c => s.clkOn c 1
  | .vxe c => s.clkOn c 2
  | .sfu c => s.clkOn c 2
  | .hub h => !s.clock.lost && (s.hub h).clken.getLsbD 0

/-- The clear of FlagClear on one register: a gated engine is cleared when it is next enabled (R53). -/
def State.flagClear1 (s : State) (u : FlagUnit) (mask set : BitVec 4) : State :=
  if s.flagClocked u then s.flagCycle u mask set
  else s.setFlagReg u { s.flagReg u with pendClr := (s.flagReg u).pendClr ||| mask }

/-- An engine's clock comes on: a clear that waited for it takes effect (R53). -/
def State.flagEnable (s : State) (u : FlagUnit) : State :=
  let p := (s.flagReg u).pendClr
  if p = 0 then s
  else (s.setFlagReg u { s.flagReg u with pendClr := 0 }).flagCycle u p 0

/-- The sets that retire with a clear in the same cycle, as the command shows them. -/
def cosetOf (cs : List (FlagUnit × BitVec 4)) (u : FlagUnit) : BitVec 4 :=
  cs.foldl (fun a x => if x.1 = u then a ||| x.2 else a) 0

end Sys2Proof.Machine
end

