-- ==== Sys2Proof/Machine/Group.lean ====
section
/-! DEFINITION. The arithmetic of one MXE accumulation group (R56, R59 to R66) and of the exit path's rows
(R77, R78). -/

namespace Sys2Proof.Machine

/-- A classified product (R63). -/
inductive Prod3 where
  | nan
  | inf (neg : Bool)
  | fin (neg : Bool) (mag : Nat) (exp : Int)
deriving DecidableEq, Repr

/-- Does the exact magnitude exceed the largest finite FP32 value, (2²⁴ − 1) · 2¹⁰⁴ (R63)? -/
def overRange (mag : Nat) (exp : Int) : Bool :=
  if 104 ≤ exp then decide (0xFFFFFF < mag * 2 ^ (exp - 104).toNat)
  else decide (0xFFFFFF * 2 ^ (104 - exp).toNat < mag)

/-- One product of R63, with the product-stage detector's and the invalid flag. -/
def classify (x y : FVal) : Prod3 × Flags :=
  match x, y with
  | .nan _ _ _ _, _ => (.nan, fINV)
  | _, .nan _ _ _ _ => (.nan, fINV)
  | .inf a, .inf b => (.inf (a != b), 0)
  | .inf a, .fin b m _ => if m = 0 then (.nan, fINV) else (.inf (a != b), 0)
  | .fin a m _, .inf b => if m = 0 then (.nan, fINV) else (.inf (a != b), 0)
  | .fin a m e, .fin b m' e' =>
    if overRange (m * m') (e + e') then (.inf (a != b), fOVF) else (.fin (a != b) (m * m') (e + e'), 0)

/-- floor(|p| / u) with u = 2^k. -/
def windowTerm (mag : Nat) (exp k : Int) : Nat :=
  if k ≤ exp then mag * 2 ^ (exp - k).toNat else mag / 2 ^ (k - exp).toNat

/-- Balanced pairwise sum of exact integers (R61): adjacent pairs, level by level; `fuel` counts levels. -/
def pairSum : Nat → List Int → Int
  | 0, xs => xs.sum
  | fuel + 1, xs =>
    match xs with
    | [] => 0
    | [a] => a
    | _ => pairSum fuel ((chunks 2 xs.length xs).map List.sum)

/-- The value of a fast-mode floating-point group (R60 to R63), as FP32, with its flags. -/
def groupFast (af bf : Nat) (ps : List (Nat × Nat)) : Nat × Flags :=
  let cs := ps.map (fun p => classify (decodeF af p.1) (decodeF bf p.2))
  let det : Flags := cs.foldl (fun a c => a ||| c.2) 0
  let anyNan := cs.any (fun c => match c.1 with | .nan => true | _ => false)
  let infP := cs.any (fun c => match c.1 with | .inf false => true | _ => false)
  let infN := cs.any (fun c => match c.1 with | .inf true => true | _ => false)
  if anyNan || (infP && infN) then (canonNaN cFP32, det ||| fINV)
  else if infP then (infBits cFP32 false, det)
  else if infN then (infBits cFP32 true, det)
  else
    let fs := cs.filterMap (fun c => match c.1 with | .fin n m e => some (n, m, e) | _ => none)
    let nz := fs.filter (fun t => decide (0 < t.2.1))
    match nz with
    | [] => (signBit cFP32 (!fs.isEmpty && fs.all (fun t => t.1)), 0)
    | t0 :: _ =>
      let emax := nz.foldl (fun m t => max m (log2q t.2.1 1 + t.2.2)) (log2q t0.2.1 1 + t0.2.2)
      let k := emax - 57
      let term : Bool × Nat × Int → Int :=
        fun t => let c : Nat := windowTerm t.2.1 t.2.2 k; if t.1 then -(c : Int) else c
      let lost := nz.any (fun t => decide (t.2.2 < k) && decide (t.2.1 % 2 ^ (k - t.2.2).toNat ≠ 0))
      let w := pairSum 8 (fs.map term)
      let r := roundF false cFP32 (decide (w < 0)) w.natAbs 1 k
      (r.1, r.2 ||| (if lost then fINX else 0))

/-- Exact integer group sum (R64, R65). -/
def groupInt (af bf : Nat) (ps : List (Nat × Nat)) : Int :=
  pairSum 8 (ps.map (fun p => signed (fmtBits af) p.1 * signed (fmtBits bf) p.2))

/-- One group into one accumulator element. `sr` and `sc` are the BF16 scales of row and column (group-scaled
operands only). R62, R64, R65, R66. In strict mode each element is one fused operation on (a, b, accumulator), and R36 takes the first NaN
of each operation's operands in that order (DEDUCED, log 74). -/
def groupAcc (strict : Bool) (af bf grp : Nat) (ps : List (Nat × Nat)) (sr sc acc : Nat) : Nat × Flags :=
  if af ≤ cINT8 then
    if grp = 0 then satInt32 (signed 32 acc + groupInt af bf ps)
    else
      let g := groupInt af bf ps
      let s := mulV strict cFP32 (decodeF cBF16 sr) (decodeF cBF16 sc)
      let r := fmaV strict cFP32 (.fin (decide (g < 0)) g.natAbs 0) (decodeF cFP32 s.1) (decodeF cFP32 acc)
      (r.1, s.2 ||| r.2)
  else if strict then
    ps.foldl (fun a p =>
      let r := fmaV true cFP32 (decodeF af p.1) (decodeF bf p.2) (decodeF cFP32 a.1)
      (r.1, a.2 ||| r.2)) (acc, 0)
  else
    let g := groupFast af bf ps
    let r := addF false cFP32 acc g.1
    (r.1, g.2 ||| r.2)

/-- The group length G of an operand pair and group code (R56). -/
def groupLen (af grp : Nat) : Nat :=
  if grp = 1 then 32 else if grp = 2 then 64 else if grp = 3 then 128
  else if af = cBF16 ∨ af = cFP16 then 16 else 32

/-- The rows of R56: which formats, group code and accumulator (true INT32) belong together. -/
def pairLegal (af bf grp : Nat) (acc : Bool) : Bool :=
  if af ≤ cINT8 ∧ bf ≤ cINT8 then (if grp = 0 then acc else !acc)
  else if (af = cE4M3 ∨ af = cE5M2) ∧ (bf = cE4M3 ∨ bf = cE5M2) then decide (grp = 0) && !acc
  else if (af = cBF16 ∧ bf = cBF16) ∨ (af = cFP16 ∧ bf = cFP16) then decide (grp = 0) && !acc
  else false

/-- Row `i` of a list of k steps. -/
def column (steps : List (List Nat)) (i : Nat) : List Nat := steps.map (fun s => s.getD i 0)

/-- One group into a whole slot, row-major: the operand steps of the group and the scale blocks (R57, R74). -/
def groupSlot (strict : Bool) (af bf grp rows : Nat) (aSteps bSteps : List (List Nat)) (sa sb : List Nat)
    (acc : List Word) : List Word × Flags :=
  let bcols := (List.range 96).map (column bSteps)
  let rowsOut := ((List.range rows).zip (chunks 96 rows acc)).map (fun p =>
    let arow := column aSteps p.1
    let sr := sa.getD p.1 0
    ((List.range 96).zip (bcols.zip p.2)).map (fun q =>
      groupAcc strict af bf grp (arow.zip q.2.1) sr (sb.getD q.1 0) q.2.2.toNat))
  (rowsOut.flatMap (fun r => r.map (fun x => BitVec.ofNat 32 x.1)),
    rowsOut.foldl (fun a r => r.foldl (fun b x => b ||| x.2) a) 0)

/-- The row maximum of R77: exact, +0 above −0; a NaN row gives the canonical or the first NaN, quietened. -/
def rowMax (strict : Bool) (xs : List Nat) : Nat × Flags :=
  match nanOf strict cFP32 (xs.map (decodeF cFP32)) with
  | some r => r
  | none => (match xs with
    | [] => 0
    | x :: r => r.foldl (fun m y => if orderKey cFP32 m < orderKey cFP32 y then y else m) x, 0)

/-- The row sum of R77: sequential, each addition rounded to FP32 under the slot's mode. -/
def rowSum (strict : Bool) : List Nat → Nat × Flags
  | [] => (0, 0)
  | x :: r => r.foldl (fun a y => let t := addF strict cFP32 a.1 y; (t.1, a.2 ||| t.2)) (x, 0)

/-- OR of a list of flag sets. -/
def orFlags (fs : List Flags) : Flags := fs.foldl (fun a f => a ||| f) 0

end Sys2Proof.Machine
end

