-- ==== Sys2Proof/Machine/Sfu.lean ====
section
/-! DEFINITION. The special-function unit: evaluation of a table in the wide form (R116, R117), the load checks
(R114, R115, R119, R121). A table is read through its words: header W0 to W15, then eight words per segment. -/

namespace Sys2Proof.Machine

/-- The wide form of R116: (−1)^neg · mag · 2^exp. -/
abbrev Wide := Bool × Nat × Int

/-- t(): toward zero to a 40-bit significand (R116). -/
def tWide (x : Wide) : Wide :=
  let l := Nat.log2 x.2.1
  if 40 ≤ l then (x.1, x.2.1 >>> (l - 39), x.2.2 + ((l - 39 : Nat) : Int)) else x

/-- Exact product and sum of wide values. -/
def mulW (x y : Wide) : Wide := (x.1 != y.1, x.2.1 * y.2.1, x.2.2 + y.2.2)
def addW (x y : Wide) : Wide := addExact x.1 x.2.1 x.2.2 y.1 y.2.1 y.2.2

/-- Is x ≤ y, by value? -/
def leW (x y : Wide) : Bool :=
  let d := addW x (!y.1, y.2.1, y.2.2)
  d.1 || decide (d.2.1 = 0)

/-- An integer as a wide value. -/
def intW (n : Int) : Wide := (decide (n < 0), n.natAbs, 0)

/-- An FP32 word as a wide value (a table holds finite values only; R114). -/
def wideOf (w : Word) : Wide :=
  match decodeF cFP32 w.toNat with
  | .fin n m e => (n, m, e)
  | _ => (false, 0, 0)

/-- Is an FP32 word finite? -/
def finite32 (w : Word) : Bool := decide (fld w 30 23 ≠ 255)

/-- floor(x · 2^s) and the fraction left, as a wide value in [0, 1). -/
def floorW (x : Wide) (s : Int) : Int × Wide :=
  let v : Int := if x.1 then -(x.2.1 : Int) else x.2.1
  let e := x.2.2 + s
  if 0 ≤ e then (v * 2 ^ e.toNat, (false, 0, 0))
  else
    let d : Int := 2 ^ (-e).toNat
    (v / d, (false, (v % d).toNat, e))

/-! Header fields of R114. -/
def tVer (rd : Nat → Word) : Nat := fld (rd 0) 31 24
def tRrm (rd : Nat → Word) : Nat := fld (rd 0) 23 20
def tNseg (rd : Nat → Word) : Nat := fld (rd 0) 19 16
def tMono (rd : Nat → Word) : Nat := fld (rd 0) 15 14
def tLoTail (rd : Nat → Word) : Nat := fld (rd 0) 13 12
def tHiTail (rd : Nat → Word) : Nat := fld (rd 0) 11 10
def tOmax (rd : Nat → Word) : Nat := fld (rd 0) 9 8
def tWexp (rd : Nat → Word) : Int := signed 8 (fld (rd 1) 31 24)

/-- The number of segments. -/
def tN (rd : Nat → Word) : Nat := 2 ^ tNseg rd

/-- Word `k` of segment `s`: C0 to C3, E0, E1. -/
def tSeg (rd : Nat → Word) (s k : Nat) : Word := rd (16 + 8 * s + k)

/-- Steps 3 and 4 of R116: Horner's rule and the clamp on segment `i` at offset `u`. -/
def horner (rd : Nat → Word) (i : Nat) (u : Wide) : Wide :=
  let c := fun k => wideOf (tSeg rd i k)
  let h2 := tWide (addW (c 2) (mulW u (c 3)))
  let h1 := tWide (addW (c 1) (mulW u h2))
  let p := tWide (addW (c 0) (mulW u h1))
  let e0 := wideOf (tSeg rd i 4)
  let e1 := wideOf (tSeg rd i 5)
  let lo := if leW e0 e1 then e0 else e1
  let hi := if leW e0 e1 then e1 else e0
  let q := if leW lo p then p else lo
  if leW q hi then q else hi

/-- Steps 2 to 5 of R116 with no tail: x is inside the domain. -/
def evalCore (rd : Nat → Word) (x : Wide) : Wide :=
  let ns : Int := tNseg rd
  match tRrm rd with
  | 0 =>
    let d := addW x (let l := wideOf (rd 2); (!l.1, l.2.1, l.2.2))
    let r := floorW d (-(tWexp rd))
    horner rd r.1.toNat (tWide r.2)
  | 1 =>
    let nf := floorW x 0
    let r := floorW nf.2 ns
    let y := horner rd r.1.toNat (tWide r.2)
    (y.1, y.2.1, y.2.2 + nf.1)
  | 2 =>
    let n := log2q x.2.1 1 + x.2.2
    let m := addW (false, x.2.1, x.2.2 - n) (true, 1, 0)
    let r := floorW m ns
    tWide (addW (intW n) (horner rd r.1.toNat (tWide r.2)))
  | 3 =>
    let n := log2q x.2.1 1 + x.2.2
    let m := addW (false, x.2.1, x.2.2 - n) (true, 1, 0)
    let r := floorW m ns
    let y := horner rd r.1.toNat (tWide r.2)
    (x.1 != y.1, y.2.1, y.2.2 - n)
  | _ =>
    let k := (log2q x.2.1 1 + x.2.2) / 2
    let m : Wide := (false, x.2.1, x.2.2 - 2 * k)
    let low := log2q m.2.1 1 + m.2.2 = 0
    let d := if low then addW m (true, 1, 0) else addW m (true, 2, 0)
    let r := floorW d (if low then ns - 1 else ns - 2)
    let i := r.1.toNat + (if low then 0 else tN rd / 2)
    let y := horner rd i (tWide r.2)
    (y.1, y.2.1, y.2.2 - k)

/-- A LIN or EXP tail at x: a · x + b, or 2 to that power through slot 0 (R115, R116). -/
def evalTail (rd0 : Nat → Word) (kind : Nat) (a b : Word) (x : Wide) : Wide :=
  let v := tWide (addW (mulW (wideOf a) x) (wideOf b))
  if kind = 2 then evalCore rd0 v else v

/-- Steps 2 to 5 of R116 for a finite input that R117 does not list. -/
def evalFin (rd rd0 : Nat → Word) (x : Wide) : Wide :=
  if tRrm rd = 0 then
    let l := wideOf (rd 2)
    let d := addW x (!l.1, l.2.1, l.2.2)
    if d.1 && decide (d.2.1 ≠ 0) then
      if tLoTail rd = 0 then wideOf (tSeg rd 0 4) else evalTail rd0 (tLoTail rd) (rd 3) (rd 4) x
    else if (tN rd : Int) ≤ (floorW d (-(tWexp rd))).1 then
      if tHiTail rd = 0 then wideOf (tSeg rd (tN rd - 1) 5) else evalTail rd0 (tHiTail rd) (rd 5) (rd 6) x
    else evalCore rd x
  else evalCore rd x

/-- Write a wide value, an infinity or a canonical NaN to OFMT: step 6 of R116. -/
def outWide (strict : Bool) (g : Nat) (w : Wide) : Nat × Flags := roundF strict g w.1 w.2.1 1 w.2.2
def outInf (g : Nat) (neg : Bool) : Nat × Flags := (infBits g neg, infFlags g)

/-- A tail's limit at an infinite input (R117). -/
def tailLimit (strict : Bool) (g : Nat) (rd0 : Nat → Word) (kind : Nat) (a b e : Word) (neg : Bool) : Nat × Flags :=
  let az := decide ((wideOf a).2.1 = 0)
  let s := (wideOf a).1 != neg
  if kind = 0 then outWide strict g (wideOf e)
  else if kind = 1 then (if az then outWide strict g (wideOf b) else outInf g s)
  else if az then outWide strict g (evalCore rd0 (tWide (wideOf b)))
  else if s then outWide strict g (false, 0, 0) else outInf g false

/-- VX.FN on one element: table `rd`, slot 0's table `rd0`, source and destination formats (R116, R117). -/
def evalFn (rd rd0 : Nat → Word) (strict : Bool) (f g bits : Nat) : Nat × Flags :=
  let x := decodeF f bits
  match nanOf strict g [x] with
  | some r => r
  | none =>
    match x, tRrm rd with
    | .inf neg, 0 =>
      if neg then tailLimit strict g rd0 (tLoTail rd) (rd 3) (rd 4) (tSeg rd 0 4) true
      else tailLimit strict g rd0 (tHiTail rd) (rd 5) (rd 6) (tSeg rd (tN rd - 1) 5) false
    | .inf neg, 1 => if neg then (0, 0) else outInf g false
    | .inf neg, 2 => if neg then invalidF g else outInf g false
    | .inf neg, 3 => (signBit g neg, 0)
    | .inf neg, _ => if neg then invalidF g else (0, 0)
    | .fin neg m e, r =>
      if r = 2 ∧ m = 0 then outInf g true
      else if r = 2 ∧ neg then invalidF g
      else if r = 3 ∧ m = 0 then outInf g neg
      else if 4 ≤ r ∧ m = 0 then outInf g neg
      else if 4 ≤ r ∧ neg then invalidF g
      else outWide strict g (evalFin rd rd0 (neg, m, e))
    | _, _ => invalidF g

/-- Does OMAX admit the output format (R115)? -/
def omaxOk (om g : Nat) : Bool :=
  if om = 0 then true
  else if om = 1 then g = cBF16 || g = cFP16 || g = cE4M3 || g = cE5M2
  else g = cE4M3 || g = cE5M2

/-- Is |LO + N · w| at most the largest finite FP32 value? -/
def topFinite (rd : Nat → Word) : Bool :=
  let v := addW (wideOf (rd 2)) (false, tN rd, tWexp rd)
  leW (false, v.2.1, v.2.2) (false, 0xFFFFFF, 104)

/-- The FORMAT conditions of R114, R115 and R7. -/
def fnFormatOk (rd : Nat → Word) : Bool :=
  let lin := decide (tRrm rd = 0)
  let z := fun k => decide (rd k = 0)
  let old := decide (tVer rd < 3)
  decide (fld (rd 0) 7 0 = 0) && decide (fld (rd 1) 23 0 = 0) &&
  (List.range 8).all (fun k => z (7 + k)) &&
  decide (tRrm rd ≤ 4) && decide (tNseg rd ≤ 8) && decide (tMono rd ≠ 3) && decide (tLoTail rd ≠ 3) &&
  decide (tHiTail rd ≠ 3) && decide (tOmax rd ≠ 3) &&
  (lin || (decide (tLoTail rd = 0) && decide (tHiTail rd = 0) && decide (fld (rd 1) 31 24 = 0) && z 2)) &&
  ((lin && decide (tLoTail rd ≠ 0)) || (z 3 && z 4)) &&
  ((lin && decide (tHiTail rd ≠ 0)) || (z 5 && z 6)) &&
  decide (¬ (tRrm rd = 4 ∧ tNseg rd = 0)) &&
  (!old || (decide (tOmax rd = 0) && decide (tLoTail rd ≠ 2) && decide (tHiTail rd ≠ 2))) &&
  (List.range 5).all (fun k => finite32 (rd (2 + k))) &&
  (!lin || topFinite rd) &&
  (List.range (tN rd)).all (fun s =>
    (List.range 6).all (fun k => finite32 (tSeg rd s k)) &&
    decide (tSeg rd s 6 = 0) && decide (tSeg rd s 7 = 0))

/-- The CRC of R114: header bytes 0 to 59, then the segment entries. -/
def fnCrcOk (rd : Nat → Word) : Bool :=
  let bytes := ((List.range 15) ++ (List.range (8 * tN rd)).map (fun k => 16 + k)).flatMap
    (fun k => leBytes 4 (rd k).toNat)
  decide (rd 15 = crc32c bytes)

/-- The monotone check of R119. -/
def fnMonoOk (rd rd0 : Nat → Word) : Bool :=
  let N := tN rd
  let dec := decide (tMono rd = 2)
  let le : Wide → Wide → Bool := fun a b => if dec then leW b a else leW a b
  let e0 := fun s => wideOf (tSeg rd s 4)
  let e1 := fun s => wideOf (tSeg rd s 5)
  let seams := (List.range N).all (fun s => le (e0 s) (e1 s) && (decide (s + 1 = N) || le (e1 s) (e0 (s + 1))))
  let zero : Wide := (false, 0, 0)
  if tMono rd = 0 then true
  else
    match tRrm rd with
    | 0 =>
      let lo := wideOf (rd 2)
      let top := addW lo (false, N, tWexp rd)
      let lowOk := decide (tLoTail rd = 0) ||
        (le zero (wideOf (rd 3)) && le (evalTail rd0 (tLoTail rd) (rd 3) (rd 4) lo) (e0 0))
      let highOk := decide (tHiTail rd = 0) ||
        (le zero (wideOf (rd 5)) && le (e1 (N - 1)) (evalTail rd0 (tHiTail rd) (rd 5) (rd 6) top))
      seams && lowOk && highOk
    | 1 => !dec && seams && leW (e1 (N - 1)) (mulW (false, 2, 0) (e0 0))
    | 2 => !dec && seams && leW (e1 (N - 1)) (addW (false, 1, 0) (e0 0))
    | _ => dec && seams && leW (mulW (false, 1, -1) (e0 0)) (e1 (N - 1))

/-- The result code of the check of FN_STAGE (R121): OK, VERSION, FORMAT, CRC or MONO. -/
def fnCheck (rd rd0 : Nat → Word) : Nat :=
  if tVer rd = 0 ∨ 3 < tVer rd then 3
  else if !fnFormatOk rd then 4
  else if !fnCrcOk rd then 5
  else if !fnMonoOk rd rd0 then 6
  else 0

end Sys2Proof.Machine
end

