-- ==== Sys2Proof/Machine/Operands.lean ====
section
/-! DEFINITION. The fields of the 128-bit commands (R84 to R87, R97, R142 to R149, R216) and the malformed
checks of R88, R105, R159 and R224 on a command alone. -/

namespace Sys2Proof.Machine

/-- Engine code and operation code of a command (R83, R97, R139). -/
def cmdEng (w : Cmd) : Nat := fld w.w0 31 28
def cmdOp (w : Cmd) : Nat := if cmdEng w = 2 then fld w.w0 27 22 else fld w.w0 27 24

/-- The four words as stored: little-endian. -/
def cmdBytes (w : Cmd) : List Byte :=
  leBytes 4 w.w0.toNat ++ leBytes 4 w.w1.toNat ++ leBytes 4 w.w2.toNat ++ leBytes 4 w.w3.toNat

/-- A command from 16 stored bytes. -/
def cmdOf (bs : List Byte) : Cmd :=
  { w0 := BitVec.ofNat 32 (leAt bs 0 4), w1 := BitVec.ofNat 32 (leAt bs 4 4),
    w2 := BitVec.ofNat 32 (leAt bs 8 4), w3 := BitVec.ofNat 32 (leAt bs 12 4) }

/-- Last unit of a scratchpad range of `n` bytes from 64-byte unit `u` stays at or below 49,151 (R88, R105). -/
def rangeOk (u n : Nat) : Bool := decide (n = 0) || decide (u * 64 + n ≤ 49152 * 64)

/-! The matrix engine's commands. -/

def mxSlot (w : Cmd) : Nat := fld w.w0 23 20
def mxLaddr (w : Cmd) : Nat := fld w.w1 31 16
def mxKg (w : Cmd) : Nat := fld w.w0 19 8

/-- Partition code and route of MXE_CFG (R69). -/
def cfgPart (cfg : Word) : Nat := fld cfg 7 4
def cfgRoute (cfg : Word) : Bool := bit cfg 0

/-- Slots of a partition and the rows of each (R68). -/
def partSlots : Nat → Nat
  | 0 => 2
  | 1 => 8
  | 2 => 16
  | 3 => 12
  | _ => 0
def partRows (part slot : Nat) : Nat := if part = 2 ∨ (part = 3 ∧ 4 ≤ slot) then 64 else 128

/-- The binding of an MX.OPEN (R70, R84). -/
def mxBind (w : Cmd) (strict : Bool) : Slot :=
  { st := 1, afmt := fld w.w0 19 16, bfmt := fld w.w0 15 12, grp := fld w.w0 11 10, acc := bit w.w0 9,
    strict := strict, accs := [] }

/-- Bytes per k step of the A and B panels, and the bytes of their scale panels for `kg` groups (R57). -/
def aBytes (b : Slot) (rows k : Nat) : Nat := k * fmtBytes b.afmt rows
def bBytes (b : Slot) (k : Nat) : Nat := k * fmtBytes b.bfmt 96

def mxOpenMal (cfg : Word) (w : Cmd) : Bool :=
  let ini := fld w.w0 8 7
  let rows := partRows (cfgPart cfg) (mxSlot w)
  decide (2 ≤ ini) || decide (fld w.w0 6 0 ≠ 0) || decide (fld w.w1 15 0 ≠ 0) || decide (w.w2 ≠ 0) ||
  decide (w.w3 ≠ 0) || decide (partSlots (cfgPart cfg) ≤ mxSlot w) ||
  !pairLegal (fld w.w0 19 16) (fld w.w0 15 12) (fld w.w0 11 10) (bit w.w0 9) ||
  (decide (ini = 0) && decide (mxLaddr w ≠ 0)) ||
  (decide (ini = 1) && !rangeOk (mxLaddr w) (rows * 384))

/-- R88 on MX.MAC; the binding `b` is the slot's, when it is OPEN. -/
def mxMacMal (cfg : Word) (b : Option Slot) (w : Cmd) : Bool :=
  let rows := partRows (cfgPart cfg) (mxSlot w)
  decide (fld w.w0 7 0 ≠ 0) || decide (w.w3 ≠ 0) || decide (mxKg w = 0) ||
  decide (partSlots (cfgPart cfg) ≤ mxSlot w) ||
  (match b with
    | none => false
    | some b =>
      let k := mxKg w * groupLen b.afmt b.grp
      (decide (b.grp = 0) && decide (w.w2 ≠ 0)) ||
      !rangeOk (fld w.w1 31 16) (aBytes b rows k) || !rangeOk (fld w.w1 15 0) (bBytes b k) ||
      (decide (b.grp ≠ 0) && (!rangeOk (fld w.w2 31 16) (mxKg w * 2 * rows) ||
        !rangeOk (fld w.w2 15 0) (mxKg w * 192))))

def mxMergeMal (cfg : Word) (w : Cmd) : Bool :=
  let rows := partRows (cfgPart cfg) (mxSlot w)
  decide (fld w.w0 19 0 ≠ 0) || decide (fld w.w1 15 0 ≠ 0) || decide (w.w2 ≠ 0) || decide (w.w3 ≠ 0) ||
  decide (partSlots (cfgPart cfg) ≤ mxSlot w) || !rangeOk (fld w.w1 31 16) (rows * 384)

/-! Fields of MX.CLOSE (R86). -/
def mcOfmt (w : Cmd) : Nat := fld w.w0 19 16
def mcStats (w : Cmd) : Bool := bit w.w0 15
def mcRqgrp (w : Cmd) : Nat := fld w.w0 14 13
def mcRqdir (w : Cmd) : Bool := bit w.w0 12
def mcOlay (w : Cmd) : Bool := bit w.w0 11
def mcOaddr (w : Cmd) : Nat := fld w.w1 31 16
def mcSaddr (w : Cmd) : Nat := fld w.w1 15 0
def mcXaddr (w : Cmd) : Nat := fld w.w2 31 16

/-- Rows of a re-quantisation group (R39). -/
def rqLen (g : Nat) : Nat := if g = 1 then 32 else if g = 2 then 64 else if g = 3 then 128 else 1

/-- Bytes of a drained tile, of its scale blocks, of its row statistics (R78, R79). -/
def mcTile (w : Cmd) (rows : Nat) : Nat := fmtBytes (mcOfmt w) (rows * 96)
def mcScales (w : Cmd) (rows : Nat) : Nat :=
  if mcRqgrp w = 0 then 0 else if mcRqdir w then rows / rqLen (mcRqgrp w) * 192 else 6 * rows
def mcXbytes (w : Cmd) (rows : Nat) : Nat := if mcStats w then rows * 8 else 0

/-- R88 on MX.CLOSE; the checks on accumulator format and mode need the slot's binding. -/
def mxCloseMal (cfg : Word) (b : Option Slot) (w : Cmd) : Bool :=
  let rows := partRows (cfgPart cfg) (mxSlot w)
  let f := mcOfmt w
  let q := decide (f ≤ cINT8)
  decide (fld w.w0 10 0 ≠ 0) || decide (fld w.w2 15 0 ≠ 0) || decide (w.w3 ≠ 0) || decide (8 ≤ f) ||
  decide (partSlots (cfgPart cfg) ≤ mxSlot w) ||
  (q != decide (mcRqgrp w ≠ 0)) ||
  (q && !mcRqdir w && decide (mcRqgrp w ≠ 1)) ||
  (q && mcRqdir w && decide (mcRqgrp w = 3) && decide (rows ≠ 128)) ||
  (if cfgRoute cfg then decide (w.w1 ≠ 0) || decide (w.w2 ≠ 0) || mcOlay w || mcRqdir w
   else !rangeOk (mcOaddr w) (mcTile w rows) || !rangeOk (mcSaddr w) (mcScales w rows) ||
    !rangeOk (mcXaddr w) (mcXbytes w rows)) ||
  (match b with
    | none => false
    | some b =>
      (b.acc && (decide (f ≠ cINT32 ∧ f ≠ cFP32) || mcStats w)) ||
      (!b.acc && decide (f = cINT32) && b.strict))

/-! The vector engine's instructions (R97). -/

def vxVD (w : Cmd) : Nat := fld w.w0 21 17
def vxVA (w : Cmd) : Nat := fld w.w0 16 12
def vxVB (w : Cmd) : Nat := fld w.w0 11 7
def vxVC (w : Cmd) : Nat := fld w.w0 6 2
def vxFmt (w : Cmd) : Nat := fld w.w1 31 28
def vxOfmt (w : Cmd) : Nat := fld w.w1 27 24
def vxBmode (w : Cmd) : Nat := fld w.w1 23 22
def vxCmode (w : Cmd) : Nat := fld w.w1 21 20
def vxBpos (w : Cmd) : Nat := fld w.w1 19 18
def vxCpos (w : Cmd) : Nat := fld w.w1 17 16
def vxFn (w : Cmd) : Nat := fld w.w1 15 12
def vxGrp (w : Cmd) : Nat := fld w.w1 11 10
def vxDivsel (w : Cmd) : Bool := bit w.w1 9
def vxAddr (w : Cmd) : Nat := fld w.w2 31 16
def vxCount (w : Cmd) : Nat := fld w.w2 15 8
def vxPr (w : Cmd) : Bool := bit w.w2 7
def vxVl (w : Cmd) : Nat := fld w.w3 31 20
def vxRlen (w : Cmd) : Nat := fld w.w3 19 8

/-- Which fields an instruction uses; a field it does not use must be zero (R100, R105). -/
structure VxUse where
  vd : Bool := false
  va : Bool := false
  vb : Bool := false
  fmt : Bool := false
  ofmt : Bool := false
  bm : Bool := false
  cm : Bool := false
  cpos : Bool := false
  fn : Bool := false
  grp : Bool := false
  div : Bool := false
  addr : Bool := false
  cnt : Bool := false
  pr : Bool := false
  imm : Bool := false
deriving DecidableEq, Repr

/-- The fields of each operation of R99. -/
def vxUse : Nat → Option VxUse
  | 0x01 => some { imm := true }
  | 0x02 => some { vd := true, fmt := true, addr := true }
  | 0x03 => some { va := true, fmt := true, addr := true }
  | 0x04 => some { va := true, fmt := true, addr := true, cnt := true, pr := true }
  | 0x05 => some { vd := true, vb := true, fmt := true, cnt := true }
  | 0x08 => some { vd := true, va := true, fmt := true, bm := true }
  | 0x09 => some { vd := true, va := true, fmt := true, bm := true }
  | 0x0A => some { vd := true, va := true, fmt := true, bm := true }
  | 0x0B => some { vd := true, va := true, fmt := true, bm := true }
  | 0x0C => some { vd := true, va := true, fmt := true, bm := true }
  | 0x0D => some { vd := true, va := true, fmt := true, bm := true, cm := true }
  | 0x10 => some { vd := true, va := true, fmt := true, ofmt := true }
  | 0x11 => some { vd := true, va := true, vb := true, fmt := true, ofmt := true, grp := true }
  | 0x12 => some { vd := true, va := true, vb := true, fmt := true, ofmt := true, grp := true }
  | 0x14 => some { vd := true, va := true, fmt := true, cpos := true }
  | 0x15 => some { vd := true, va := true, fmt := true, cpos := true }
  | 0x18 => some { vd := true, va := true, fmt := true, ofmt := true, fn := true }
  | 0x20 => some { vd := true, va := true, fmt := true }
  | 0x21 => some { vd := true, va := true, fmt := true }
  | 0x22 => some { vd := true, fmt := true }
  | 0x23 => some { vd := true, va := true, fmt := true, div := true }
  | _ => none

/-- The formats of R100. -/
def vxFmtOk (op f g : Nat) : Bool :=
  match op with
  | 0x01 => true
  | 0x02 => decide (f ≤ 7)
  | 0x03 => decide (f ≤ 7)
  | 0x04 => decide (1 ≤ f ∧ f ≤ 7)
  | 0x05 => decide (f ≤ 7)
  | 0x0A => f = cFP32 || f = cBF16 || f = cFP16
  | 0x0D => f = cFP32
  | 0x10 => cvtLegal f g
  | 0x11 => f = cFP32 && (g = cINT8 || g = cINT4)
  | 0x12 => (f = cINT8 || f = cINT4) && g = cFP32
  | 0x14 => f = cFP32 || f = cBF16 || f = cFP16
  | 0x18 => (f = cFP32 || f = cBF16 || f = cFP16) && decide (3 ≤ g ∧ g ≤ 7)
  | 0x20 => f = cFP32 || f = cBF16 || f = cFP16
  | 0x21 => f = cFP32
  | 0x22 => f = cFP32
  | 0x23 => f = cFP32
  | _ => f = cFP32 || f = cINT32 || f = cBF16 || f = cFP16

/-- Is the scratchpad range of LD, ST or STT within bounds with the VL and RLEN in force (R103, R105)? -/
def vxRangeOk (w : Cmd) (vl rlen : Nat) : Bool :=
  let es := fmtBits (vxFmt w) / 8
  if cmdOp w = 0x04 then
    let p := if vxPr w then 64 else 128
    let rows := cdiv vl rlen
    decide (vl = 0) ||
      rangeOk (vxAddr w) (max ((vl - 1) % rlen * p + vxCount w + rows) (if rows = 1 then 0 else (rlen - 1) * p + vxCount w + rows - 1) * es)
  else rangeOk (vxAddr w) (fmtBytes (vxFmt w) vl)

/-- R105 without the range check, which depends on VL and RLEN. -/
def vxMalStatic (w : Cmd) : Bool :=
  let op := cmdOp w
  let f := vxFmt w
  match vxUse op with
  | none => true
  | some u =>
    let z : Bool → Nat → Bool := fun used v => !used && decide (v ≠ 0)
    let bImm := u.bm && decide (vxBmode w = 2)
    let cImm := u.cm && decide (vxCmode w = 2)
    let usesVb := u.vb || (u.bm && !bImm)
    let usesVc := u.cm && !cImm
    let bRow := u.bm && decide (vxBmode w = 1)
    let cRow := u.cm && decide (vxCmode w = 1)
    let half := decide (fmtBits f = 16)
    z u.vd (vxVD w) || z u.va (vxVA w) || z usesVb (vxVB w) || z usesVc (vxVC w) ||
    decide (fld w.w0 1 0 ≠ 0) || z u.fmt f || z u.ofmt (vxOfmt w) || z u.bm (vxBmode w) || z u.cm (vxCmode w) ||
    z bRow (vxBpos w) || z (cRow || u.cpos) (vxCpos w) || z u.fn (vxFn w) || z u.grp (vxGrp w) ||
    (!u.div && vxDivsel w) || decide (fld w.w1 8 0 ≠ 0) || z u.addr (vxAddr w) || z u.cnt (vxCount w) ||
    (!u.pr && vxPr w) || decide (fld w.w2 6 0 ≠ 0) || z (u.imm || bImm || cImm) w.w3.toNat ||
    !vxFmtOk op f (vxOfmt w) ||
    (bRow && half) || (bImm && half && decide (fld w.w3 31 16 ≠ 0)) ||
    (u.grp && decide (vxGrp w = 0)) ||
    (decide (op = 0x01) && (decide (fld w.w3 7 0 ≠ 0) || decide (2048 < vxVl w) || decide (vxRlen w = 0) ||
      decide (2048 < vxRlen w))) ||
    (decide (op = 0x05) && (decide (vxCount w = 0) || decide (64 < vxCount w) ||
      decide (4096 < fmtBytes f (vxCount w * 96)))) ||
    (decide (op = 0x04) && decide ((if vxPr w then 64 else 128) ≤ vxCount w)) ||
    (decide (0x20 ≤ op) && decide (29 < vxVD w)) ||
    ((decide (op = 0x21) || decide (op = 0x23)) && decide (29 < vxVA w))

/-- R105 at issue, with the VL and RLEN in force. -/
def vxMal (w : Cmd) (vl rlen : Nat) : Bool :=
  vxMalStatic w ||
    ((decide (cmdOp w = 0x02) || decide (cmdOp w = 0x03) || decide (cmdOp w = 0x04)) && !vxRangeOk w vl rlen)

/-! The sequencer's commands (R142 to R149). -/

def sqEmask (w : Cmd) : Nat := fld w.w0 22 20
def sqTarget (w : Cmd) : Nat := w.w3.toNat
def sqConsume (w : Cmd) : Bool := bit w.w0 23
def sqGoff (w : Cmd) : Nat := w.w1.toNat + fld w.w2 7 0 * 2 ^ 32
def sqGaddr (w : Cmd) : Nat := w.w1.toNat + w.w2.toNat * 2 ^ 32
def sqBarid (w : Cmd) : Nat := fld w.w0 7 0
def sqEngsel (w : Cmd) : Nat := fld w.w0 21 19
def sqMask (w : Cmd) : BitVec 4 := BitVec.ofNat 4 (fld w.w0 3 0)
def sqFaddr (w : Cmd) : Nat := fld w.w1 31 16

/-- Fields of a global address (R290). -/
def gaSpace (g : Nat) : Nat := nfld g 63 62
def gaDev (g : Nat) : Nat := nfld g 56 40
def gaOff (g : Nat) : Nat := g % 2 ^ 40
def gaRsvd (g : Nat) : Nat := nfld g 61 57

/-- The maps of R142 to R149 on one SEQ command; `depth` is the number of open loops. R144 names no bound for GOFF: a gate at or above
the end of local HBM is taken as malformed, as R129 refuses one in an image (DESIGN CHOICE, log 68). -/
def sqMal (w : Cmd) (depth : Nat) : Bool :=
  let lowZero := fun hi => decide (fld w.w0 hi 0 ≠ 0)
  let z1 := decide (w.w1 ≠ 0)
  let z2 := decide (w.w2 ≠ 0)
  let z3 := decide (w.w3 ≠ 0)
  match cmdOp w with
  | 1 => lowZero 22 || z3
  | 2 => bit w.w0 23 || lowZero 19 || decide (sqEmask w = 0) || z1 || z2 || z3
  | 3 => lowZero 22 || decide (fld w.w1 5 0 ≠ 0) || decide (fld w.w2 31 8 ≠ 0) || decide (w.w3 = 0) ||
      decide (0xD800000000 ≤ sqGoff w)
  | 4 => bit w.w0 23 || lowZero 19 || decide (fld w.w1 5 0 ≠ 0) || decide (w.w3 = 0) ||
      decide (1 < gaSpace (sqGaddr w)) || decide (gaRsvd (sqGaddr w) ≠ 0) ||
      (decide (gaSpace (sqGaddr w) = 0) && decide (gaDev (sqGaddr w) ≠ 0)) ||
      decide (0xD800000000 ≤ gaOff (sqGaddr w))
  | 5 => decide (fld w.w0 23 8 ≠ 0) || z1 || z2 || z3 || decide (63 < sqBarid w)
  | 6 => decide (fld w.w0 23 22 ≠ 0) || decide (fld w.w0 18 0 ≠ 0) || decide (fld w.w1 15 0 ≠ 0) || z2 || z3 ||
      decide (sqEngsel w ≠ 1 ∧ sqEngsel w ≠ 2 ∧ sqEngsel w ≠ 4) || !rangeOk (sqFaddr w) 4
  | 7 => decide (fld w.w0 23 22 ≠ 0) || decide (fld w.w0 18 4 ≠ 0) || z1 || z2 || z3 ||
      decide (sqEngsel w = 0) || decide (sqMask w = 0)
  | 8 => lowZero 23 || decide (w.w1 = 0) || z2 || z3 || decide (4 ≤ depth)
  | 9 => lowZero 23 || z1 || z2 || z3 || decide (depth = 0)
  | 10 => lowZero 23 || z1 || z2 || z3
  | _ => true

/-! ST.ISSUE (R216). -/

def stDesc (w : Cmd) : Nat := fld w.w0 23 14
def stSig (w : Cmd) : Bool := bit w.w0 13

def stMal (w : Cmd) : Bool :=
  let g := sqGaddr w
  decide (cmdOp w ≠ 1) || decide (fld w.w0 12 0 ≠ 0) ||
  (if stSig w then decide (fld w.w1 5 0 ≠ 0) || decide (w.w3 = 0) || decide (1 < gaSpace g) || decide (gaRsvd g ≠ 0) ||
      (decide (gaSpace g = 0) && decide (gaDev g ≠ 0)) || decide (0xD800000000 ≤ gaOff g)
   else decide (w.w1 ≠ 0) || decide (w.w2 ≠ 0) || decide (w.w3 ≠ 0))

end Sys2Proof.Machine
end

