-- ==== Sys2Proof/Machine/Exit.lean ====
section
/-! DEFINITION. The matrix engine's hazards (R81, R82) and its exit path: rows, re-quantisation, statistics, the order of the bytes it
writes, and hand-off entries (R76 to R80). -/

namespace Sys2Proof.Machine

def MxeSt.slot (m : MxeSt) (i : Nat) : Slot := m.slots.get {} i
def MxeSt.rows (m : MxeSt) (i : Nat) : Nat := partRows (cfgPart m.cfg) i

/-- Whole 64-byte lines of a byte range (R81). -/
def lineRange (unit n : Nat) : Nat × Nat := (unit * 64, cdiv n 64 * 64)

/-- The scratchpad ranges an array command reads (R57, R73, R75). -/
def itemReads (m : MxeSt) : ArrItem → List (Nat × Nat)
  | .zero _ => []
  | .load i a _ => [lineRange a (m.rows i * 384)]
  | .merge i a _ => [lineRange a (m.rows i * 384)]
  | .mac i kg _ aa ba as bs =>
    let b := m.slot i
    let k := kg * groupLen b.afmt b.grp
    [lineRange aa (aBytes b (m.rows i) k), lineRange ba (bBytes b k)] ++
      (if b.grp = 0 then [] else [lineRange as (kg * 2 * m.rows i), lineRange bs (kg * 192)])

/-- The scratchpad ranges a drain writes (R78, R79). -/
def drainWrites (m : MxeSt) (d : Drain) : List (Nat × Nat) :=
  if cfgRoute m.cfg then []
  else
    let rows := m.rows d.slot
    [lineRange (mcOaddr d.w) (mcTile d.w rows), lineRange (mcSaddr d.w) (mcScales d.w rows),
      lineRange (mcXaddr d.w) (mcXbytes d.w rows)]

/-- Do two lists of ranges meet? -/
def meets (xs ys : List (Nat × Nat)) : Bool := xs.any (fun x => ys.any (fun y => overlap x.1 x.2 y.1 y.2))

/-- A MAC, merge or load waits for every earlier drain that writes what it reads (R81). -/
def arrHeld (m : MxeSt) (num : Nat) (it : ArrItem) : Bool :=
  m.drains.any (fun d => decide (d.num < num) && meets (itemReads m it) (drainWrites m d))

/-- The slot an array command names. -/
def itemSlot : ArrItem → Nat
  | .zero i => i
  | .load i _ _ => i
  | .merge i _ _ => i
  | .mac i _ _ _ _ _ _ => i

/-- A drain may run when its slot's work has reached the accumulator and no earlier command still reads what it
writes (R81, R82). -/
def drainReady (m : MxeSt) (d : Drain) : Bool :=
  m.arrQ.all (fun p => decide (itemSlot p.2 ≠ d.slot) &&
    !(decide (p.1 < d.num) && meets (itemReads m p.2) (drainWrites m d)))

/-! The exit path. -/

/-- One accumulator element converted to OFMT (R38, R76); FP32 and INT32 drain unchanged to their own format. -/
def exitElem (b : Slot) (f x : Nat) : Nat × Flags :=
  if b.acc then (if f = cINT32 then (x, 0) else cvtIF b.strict x)
  else if f = cFP32 then (x, 0) else cvt b.strict cFP32 f x

/-- A drained row: elements, its three column-group scales, maximum, sum, flags. -/
structure RowOut where
  elems : List Nat
  scales : List Nat
  rmax : Nat
  rsum : Nat
  fl : Flags
deriving DecidableEq, Repr

/-- One row of the exit path without row-group re-quantisation (R76 to R78). -/
def exitRow (b : Slot) (w : Cmd) (xs : List Nat) : RowOut :=
  let mx := if mcStats w then rowMax b.strict xs else (0, 0)
  let sm := if mcStats w then rowSum b.strict xs else (0, 0)
  if mcRqgrp w = 0 then
    let es := xs.map (exitElem b (mcOfmt w))
    { elems := es.map Prod.fst, scales := [], rmax := mx.1, rsum := sm.1, fl := mx.2 ||| sm.2 ||| orFlags (es.map Prod.snd) }
  else if mcRqdir w then { elems := xs, scales := [], rmax := mx.1, rsum := sm.1, fl := mx.2 ||| sm.2 }
  else
    let gs := (chunks 32 96 xs).map (quantGroup b.strict (mcOfmt w))
    { elems := gs.flatMap (fun g => g.2.1), scales := gs.map (fun g => g.1), rmax := mx.1, rsum := sm.1,
      fl := mx.2 ||| sm.2 ||| orFlags (gs.map (fun g => g.2.2)) }

/-- One row group re-quantised along the rows (R78, RQDIR = 1): its rows, its 96 scales, its flags. -/
def rowGroup (b : Slot) (w : Cmd) (rows : List (List Nat)) : List (List Nat) × List Nat × Flags :=
  let cs := (List.range 96).map (fun j => quantGroup b.strict (mcOfmt w) (column rows j))
  ((List.range rows.length).map (fun i => cs.map (fun q => q.2.1.getD i 0)), cs.map (fun q => q.1),
    orFlags (cs.map (fun q => q.2.2)))

/-- Bytes of BF16 scales, and of FP32 words. -/
def bytes2 (xs : List Nat) : List Byte := xs.flatMap (leBytes 2)
def bytes4 (xs : List Nat) : List Byte := xs.flatMap (leBytes 4)

/-- One step of a drain to the scratchpad: the bytes it writes, in order, by byte address, and the flags it raises. -/
abbrev ExitStep := List (Nat × List Byte) × Flags

/-- What row `i` of a drained tile writes (R79); `row` gives the rows' elements. Two rows of a column-major INT4 tile share bytes, which
the second writes (R28). -/
def rowWrites (w : Cmd) (rows : Nat) (row : Nat → List Nat) (i : Nat) : List (Nat × List Byte) :=
  let f := mcOfmt w
  let o := 64 * mcOaddr w
  if !mcOlay w then [(o + i * fmtBytes f 96, packElems f (row i))]
  else if fmtBits f = 4 then
    if i % 2 = 0 then []
    else (List.range 96).map (fun j => (o + (j * rows + i - 1) / 2, packElems f [(row (i - 1)).getD j 0, (row i).getD j 0]))
  else (List.range 96).map (fun j => (o + (j * rows + i) * (fmtBits f / 8), packElems f [(row i).getD j 0]))

/-- A whole tile through the exit path to the scratchpad, step by step in the order in which it writes (R76 to R79). Re-quantised along
the rows, the rows of each group are followed by the group's scale block (R78). Where the manual gives no order the tile comes first, then
the scales of RQDIR = 0, then the statistics (DESIGN CHOICE, log 12). -/
def exitSteps (b : Slot) (w : Cmd) (rows : Nat) : List ExitStep :=
  let rs := (chunks 96 rows b.accs).map (fun r => exitRow b w (r.map BitVec.toNat))
  let s := 64 * mcSaddr w
  let tile : List ExitStep :=
    if mcRqgrp w ≠ 0 ∧ mcRqdir w = true then
      let g := rqLen (mcRqgrp w)
      let gs := (chunks g rows (rs.map (fun r => r.elems))).map (rowGroup b w)
      let el := gs.flatMap (fun x => x.1)
      (List.range gs.length).flatMap (fun t =>
        let x := gs.getD t ([], [], 0)
        let fl := orFlags (((rs.drop (g * t)).take g).map (fun r => r.fl)) ||| x.2.2
        (List.range x.1.length).map (fun k =>
          (rowWrites w rows (fun i => el.getD i []) (g * t + k), if k = 0 then fl else 0)) ++ [([(s + 192 * t, bytes2 x.2.1)], 0)])
    else
      (List.range rs.length).map (fun i =>
        (rowWrites w rows (fun i => (rs.map (fun r => r.elems)).getD i []) i, ((rs.map (fun r => r.fl)).getD i 0))) ++
        (if mcRqgrp w = 0 then []
         else [([(s, bytes2 ((List.range 3).flatMap (fun t => rs.map (fun r => r.scales.getD t 0))))], 0)])
  tile ++ (if mcStats w then [([(64 * mcXaddr w, bytes4 (rs.map (fun r => r.rmax) ++ rs.map (fun r => r.rsum)))], 0)] else [])

/-- The bytes of drain steps written to a scratchpad, and their flags. -/
def exitWrite (m : SMap Byte) (xs : List ExitStep) : SMap Byte := xs.foldl (fun m x => x.1.foldl (fun m q => m.sets 0 q.1 q.2) m) m
def exitFlags (xs : List ExitStep) : Flags := orFlags (xs.map Prod.snd)

/-- The 400-byte hand-off entry of a row (R80). -/
def hqEntry (slot rows row : Nat) (w : Cmd) (r : RowOut) : List Byte :=
  let side := r.rmax + r.rsum * 2 ^ 32 + r.scales.getD 0 0 * 2 ^ 64 + r.scales.getD 1 0 * 2 ^ 80 +
    r.scales.getD 2 0 * 2 ^ 96 + row * 2 ^ 112 + (if mcRqgrp w = 0 then 0 else 2 ^ 121) +
    (if mcStats w then 2 ^ 122 else 0) + (if row + 1 = rows then 2 ^ 123 else 0) + slot * 2 ^ 124
  slice (packElems (mcOfmt w) r.elems) 0 384 ++ leBytes 16 side

end Sys2Proof.Machine
end

