-- ==== Sys2Proof/Machine/Rs.lean ====
section
/-! DEFINITION. GF(2⁸) with polynomial 0x11D and the outer code RS(68,64) of R204 and R205: the check symbols of a
sector, the syndrome of an error pattern, and the correction of up to two symbols. -/

namespace Sys2Proof.Machine

/-- Multiplication by α = 0x02 (R204). -/
def gfX (a : Nat) : Nat := if a < 128 then 2 * a else (2 * a) ^^^ 0x11D

/-- Multiplication in GF(2⁸); the loop runs over the bits of `b`, low bit first. -/
def gfMulL : Nat → Nat → Nat → Nat
  | 0, _, _ => 0
  | n + 1, a, b => (if b % 2 = 1 then a else 0) ^^^ gfMulL n (gfX a) (b / 2)

def gfMul (a b : Nat) : Nat := gfMulL 8 a b

/-- α to the power `n`. -/
def gfPow : Nat → Nat
  | 0 => 1
  | n + 1 => gfX (gfPow n)

/-- Multiplicative inverse: a²⁵⁴ by squaring. -/
def gfInv (a : Nat) : Nat :=
  let a2 := gfMul a a
  let a4 := gfMul a2 a2
  let a8 := gfMul a4 a4
  let a16 := gfMul a8 a8
  let a32 := gfMul a16 a16
  let a64 := gfMul a32 a32
  let a128 := gfMul a64 a64
  gfMul (gfMul (gfMul a2 a4) (gfMul a8 a16)) (gfMul (gfMul a32 a64) a128)

/-- One data symbol into the remainder register of division by g(x) = Π (x − αⁱ), i = 0 to 3
= x⁴ + 15x³ + 54x² + 120x + 64 (R204). -/
def rsShift (r : Nat × Nat × Nat × Nat) (b : Byte) : Nat × Nat × Nat × Nat :=
  let f := r.1 ^^^ b.toNat
  (r.2.1 ^^^ gfMul f 15, r.2.2.1 ^^^ gfMul f 54, r.2.2.2 ^^^ gfMul f 120, gfMul f 64)

/-- The four check symbols of a sector; byte 0 is the coefficient of the highest power (R204). -/
def rsCheck (bs : List Byte) : List Byte :=
  let r := bs.foldl rsShift (0, 0, 0, 0)
  [BitVec.ofNat 8 r.1, BitVec.ofNat 8 r.2.1, BitVec.ofNat 8 r.2.2.1, BitVec.ofNat 8 r.2.2.2]

/-- The value added at symbol `i` of the codeword by an error pattern. -/
def errAt (e : List (Nat × Byte)) (i : Nat) : Nat :=
  e.foldl (fun a x => if x.1 = i then a ^^^ x.2.toNat else a) 0

/-- Syndrome `j` of a pattern: the codeword's symbol `i` is the coefficient of x^(67 − i). -/
def syndrome (e : List (Nat × Byte)) (j : Nat) : Nat :=
  e.foldl (fun a x => a ^^^ gfMul x.2.toNat (gfPow (j * (67 - x.1)))) 0

/-- Does a pattern of at most two symbols explain the syndrome of `e`? The pattern, if so (R205). -/
def rsExplain (e : List (Nat × Byte)) : Option (List (Nat × Byte)) :=
  let s0 := syndrome e 0
  let s1 := syndrome e 1
  let s2 := syndrome e 2
  let s3 := syndrome e 3
  let fits : List (Nat × Byte) → Bool := fun p =>
    decide (syndrome p 0 = s0 ∧ syndrome p 1 = s1 ∧ syndrome p 2 = s2 ∧ syndrome p 3 = s3)
  if s0 = 0 ∧ s1 = 0 ∧ s2 = 0 ∧ s3 = 0 then some []
  else
    match ((List.range 68).map (fun i => [(i, BitVec.ofNat 8 s0)])).find? fits with
    | some p => some p
    | none =>
      let pairs := (List.range 68).flatMap (fun i => (List.range i).map (fun k => (i, k)))
      let solve : Nat × Nat → List (Nat × Byte) := fun q =>
        let xi := gfPow (67 - q.1)
        let xk := gfPow (67 - q.2)
        let vi := gfMul (s1 ^^^ gfMul s0 xk) (gfInv (xi ^^^ xk))
        [(q.1, BitVec.ofNat 8 vi), (q.2, BitVec.ofNat 8 (s0 ^^^ vi))]
      (pairs.map solve).find? fits

/-- Apply a pattern to the 64 data symbols of a sector. -/
def applyErr (e : List (Nat × Byte)) (bs : List Byte) : List Byte :=
  ((List.range bs.length).zip bs).map (fun p => p.2 ^^^ BitVec.ofNat 8 (errAt e p.1))

/-- What the controller makes of a sector read (R205): a clean sector, a corrected one, or an uncorrectable one. -/
inductive EccOut where
  | clean (data : List Byte)
  | corrected (data : List Byte)
  | uncorrectable
deriving DecidableEq, Repr

/-- R205: policy 0 CORRECT2, 1 DETECT4; `e1` and `e2` are the patterns of the first and a second read. -/
def eccRead (policy : Nat) (data : List Byte) (e1 e2 : List (Nat × Byte)) : EccOut :=
  match rsExplain e1 with
  | some [] => .clean (applyErr e1 data)
  | some p => if policy = 0 then .corrected (applyErr p (applyErr e1 data))
    else if rsExplain e2 = some [] then .corrected (applyErr e2 data) else .uncorrectable
  | none => if policy = 0 then .uncorrectable
    else if rsExplain e2 = some [] then .corrected (applyErr e2 data) else .uncorrectable

end Sys2Proof.Machine
end

