-- ==== Sys2Proof/Machine/Hbm.lean ====
section
/-! DEFINITION. Device memory: the local offset map and bands (R178, R182, R199), sectors of a stack with the outer
code and the poison list (R204 to R207), the memory-side cache (R191 to R196) and byte accesses through it. -/

namespace Sys2Proof.Machine

/-! Addresses. -/

def gib : Nat := 2 ^ 30
def bandBytes : Nat := 24 * 2 ^ 30
def hbmTop : Nat := 0xD800000000

/-- The band of a local HBM offset (R182). -/
def bandOf (o : Nat) : Nat := o / bandBytes

/-- Is a band HOMED (R181)? -/
def State.homed (s : State) (b : Nat) : Bool := s.mem.bandMap.getLsbD b

/-- Stack and stack address of a local HBM offset (R182). -/
def State.resolve (s : State) (o : Nat) : Nat × Nat :=
  let b := bandOf o
  let bo := o % bandBytes
  if s.homed b then ((o / gib) % 24, b * gib + o % gib)
  else ((o / 2048) % 24, b * gib + (bo / 49152) * 2048 + bo % 2048)

/-- The local offset of a stack address: the inverse of R182. -/
def State.offsetOf (s : State) (st a : Nat) : Nat :=
  let b := a / gib
  if s.homed b then b * bandBytes + st * gib + a % gib
  else b * bandBytes + (a % gib / 2048) * 49152 + st * 2048 + a % 2048

/-- Parts of a stack address (R199). -/
def pcOf (a : Nat) : Nat := (a / 256) % 32
def bankOf (a : Nat) : Nat := (a / 8192) % 48
def rowOf (a : Nat) : Nat := a / 8192 / 192

/-- Is a change of the band in progress (R183)? -/
def State.bandBusy (s : State) (b : Nat) : Bool := s.mem.bandChg.any (fun p => p.1 = b)

/-! Raw sectors of a stack. -/

def hbmKey (st a : Nat) : Nat := st * 2 ^ 40 + a

def State.sector (s : State) (st a : Nat) : List Byte := s.mem.hbm.gets 0 (hbmKey st a) 64
def State.setSector (s : State) (st a : Nat) (bs : List Byte) : State :=
  { s with mem := { s.mem with hbm := s.mem.hbm.sets 0 (hbmKey st a) (bs.take 64) } }

/-- The memory-error event of a stack (R206): stack, pseudo-channel, bank, row, local offset. -/
def State.postUe (s : State) (st a : Nat) : State :=
  (s.updRegion st (fun r => { r with uec := r.uec + 1 })).post 0x0501 2 (srcRegion st)
    ([st, pcOf a, bankOf a, rowOf a] ++ w64 (s.offsetOf st a))

/-- `n` corrections counted in StackCeCount; an event at each multiple of CeEventThreshold crossed (R206). -/
def State.countCe (s : State) (st n : Nat) : State :=
  let c := (s.region st).ce
  let s' := s.updRegion st (fun r => { r with ce := r.ce + n })
  let t := s.mem.ceThreshold
  if t ≠ 0 ∧ c / t < (c + n) / t then s'.post 0x0502 0 (srcRegion st) (st :: w64 (c + n)) else s'

def noErr : HbmErr := { first := [], second := [], inner := 0 }

/-- The errors of stored sectors that the code could not correct (log 15). -/
def State.setErr (s : State) (st a : Nat) (e : HbmErr) : State :=
  { s with mem := { s.mem with errs := s.mem.errs.set noErr (hbmKey st a) e } }

/-- The error that a read meets: what the command shows, or else what an earlier read of the stored sector has shown (log 15). -/
def State.metErr (s : State) (st a : Nat) (err : HbmErr) : HbmErr :=
  if err = noErr then s.mem.errs.get noErr (hbmKey st a) else err

/-- One sector read of a stack through the outer code under a policy; `none` is a poisoned response (R205 to R207). -/
def State.stackReadBy (s : State) (policy st a : Nat) (err : HbmErr) : State × Option (List Byte) :=
  if (s.region st).poison.contains a then (s.postUe st a, none)
  else
    let e := s.metErr st a err
    let s1 := if e.inner = 0 then s else s.countCe st e.inner
    match eccRead policy (s.sector st a) e.first e.second with
    | .clean d => (s1, some d)
    | .corrected d => (((s1.setErr st a noErr).setSector st a d).countCe st 1, some d)
    | .uncorrectable => ((s1.setErr st a e).postUe st a, none)

/-- The same under the policy in force. -/
def State.stackRead (s : State) (st a : Nat) (err : HbmErr) : State × Option (List Byte) := s.stackReadBy s.mem.eccPolicy st a err

/-- One whole-sector write of a stack: the sector leaves the poison list and holds no error (R196, R207). -/
def State.stackWrite (s : State) (st a : Nat) (bs : List Byte) : State :=
  ((s.setSector st a bs).setErr st a noErr).updRegion st (fun r => { r with poison := r.poison.filter (fun p => p ≠ a) })

/-! The queues of a stack (R200, R201). -/

/-- The requester stream number of a core's slot (R292): die code, logical core, slot. -/
def streamNo (c slot : Nat) : Nat := dieOf c * 2 ^ 10 + logOf c * 2 ^ 4 + slot

/-- Requester streams beside those of local cores (R200): the remote stream that a request's header names, the control cores of a hub,
and the device's own accesses for records, gates and hub engines, which the manual does not number (log 70). -/
def remoteStream (srcdev stream : Nat) : Nat := 2 ^ 20 + srcdev * 2 ^ 13 + stream
def cpuStream (h : Nat) : Nat := 2 ^ 40 + h
def deviceStream : Nat := 2 ^ 40 + 2

/-- Bank key of a stack address. -/
def bankKey (a : Nat) : Nat := pcOf a * 48 + bankOf a

/-- The requester stream of a request inside a slice. -/
def State.reqStream (s : State) (q : MemReq) : Nat :=
  match q.owner with
  | .stream c slot _ => streamNo c slot
  | .remote job _ =>
    match s.mem.jobs.get none job with
    | some j => remoteStream j.pkt.srcdev j.pkt.stream
    | none => deviceStream
  | .gate => deviceStream
  | .back r => r

/-- May a request of stream `n` for address `a` be admitted beside those admitted (R200)? -/
def State.canAdmit (s : State) (adm : List MemReq) (n a : Nat) : Bool :=
  decide ((adm.filter (fun x => pcOf x.addr = pcOf a)).length < 64) &&
  decide ((adm.filter (fun x => bankKey x.addr = bankKey a)).length < 32) &&
  decide ((adm.filter (fun x => bankKey x.addr = bankKey a ∧ s.reqStream x = n)).length < 8)

/-- Is a request behind a held one of its stream to its pseudo-channel (R201)? -/
def State.behindHeld (s : State) (held : List MemReq) (n a : Nat) : Bool :=
  held.any (fun x => decide (pcOf x.addr = pcOf a ∧ s.reqStream x = n))

/-- A request takes a slot, under the policy in force (R200, R205); its stream is the last admitted to the bank (R201). -/
def State.takeSlotFor (s : State) (r : Nat) (q : MemReq) : State :=
  s.updRegion r (fun g => { g with
    adm := g.adm ++ [{ q with policy := s.mem.eccPolicy }],
    banks := g.banks.upd {} (bankKey q.addr) (fun b => { b with lastAdm := s.reqStream q }) })

/-- A request that needs the stack is admitted, or held in front of its pseudo-channel (R200, R201). -/
def State.toStack (s : State) (r : Nat) (q : MemReq) : State :=
  let g := s.region r
  if s.canAdmit g.adm (s.reqStream q) q.addr && !s.behindHeld g.held (s.reqStream q) q.addr then s.takeSlotFor r q
  else s.updRegion r (fun g => { g with held := g.held ++ [q] })

/-! The memory-side cache. -/

/-- Does a request for a line already wait or run in its slice? A later one comes after it (R197). The data of a victim is in the stack at
once, so its write-back holds nothing up. -/
def State.lineBusy (s : State) (r a : Nat) : Bool :=
  let g := s.region r
  let same := fun (q : MemReq) => decide (q.addr / 64 = a / 64) && (match q.owner with | .back _ => false | _ => true)
  g.q.any same || g.held.any same || g.adm.any same

def lineSet (a : Nat) : Nat := (a / 64) % 16384

def State.lines (s : State) (st a : Nat) : List Line := (s.region st).sets.get [] (lineSet a)
def State.setLines (s : State) (st a : Nat) (ls : List Line) : State :=
  s.updRegion st (fun r => { r with sets := r.sets.set [] (lineSet a) ls })

/-- The line of a sector, if the slice holds it. -/
def State.findLine (s : State) (st a : Nat) : Option Line := (s.lines st a).find? (fun l => l.tag = a / 64)

def withoutLine (ls : List Line) (a : Nat) : List Line := ls.filter (fun l => l.tag ≠ a / 64)

/-- Drop the last element for which `p` holds. -/
def dropLast {α : Type} (p : α → Bool) (xs : List α) : List α := (xs.reverse.eraseP p).reverse

/-- Clear the keep mark of the least recently used marked line. -/
def unkeepLast (ls : List Line) : List Line :=
  let rec go : List Line → List Line
    | [] => []
    | l :: r => if l.keep then { l with keep := false } :: r else l :: go r
  (go ls.reverse).reverse

/-- At most 12 keep marks in a set: a thirteenth takes the mark of the least recently used marked line (R194). -/
def roomForKeep (ls : List Line) : List Line :=
  if 12 ≤ (ls.filter (fun l => l.keep)).length then unkeepLast ls else ls

/-- A dirty victim is written back (R194): the stack has its data at once, and the write holds a slot of its bank on behalf of the
requester until it completes (R200, log 70). -/
def State.evict (s : State) (st n : Nat) (v : Line) : State :=
  if v.dirty then
    (s.stackWrite st (v.tag * 64) v.data).toStack st
      { owner := .back n, band := v.tag * 64 / gib, addr := v.tag * 64, op := .write v.data, hint := 0 }
  else s

/-- Put a line in front of its set for requester `n`, evicting by R194. -/
def State.allocLine (s : State) (st n : Nat) (l : Line) : State :=
  let a := l.tag * 64
  let ls0 := withoutLine (s.lines st a) a
  let ls := if l.keep then roomForKeep ls0 else ls0
  if ls.length < 16 then s.setLines st a (l :: ls)
  else
    match ls.reverse.find? (fun x => !x.keep) with
    | none => s.setLines st a (l :: ls)
    | some v =>
      (s.evict st n v).setLines st a (l :: ls.filter (fun x => x.tag ≠ v.tag))

/-- Must an access of requester `n` to local offset `o` wait in the slice: its band is changing (R183), an earlier request for its line has
not been served (R197), or it needs the stack and may not be admitted (R200, R201)? -/
def State.sliceWaits (s : State) (n o : Nat) : Bool :=
  let r := s.resolve o
  let g := s.region r.1
  s.bandBusy (bandOf o) || s.lineBusy r.1 r.2 ||
    ((s.findLine r.1 r.2).isNone && (!s.canAdmit g.adm n r.2 || s.behindHeld g.held n r.2))

/-- The hint a slice applies: a fenced slice passes every request as STREAM (R207). -/
def State.effHint (s : State) (st hint : Nat) : Nat := if (s.region st).fenced then 1 else hint

/-- A hit line after an access under a hint: most recently used and its keep mark (R192, R193). -/
def State.touchLine (s : State) (st : Nat) (l : Line) (hint : Nat) : State :=
  let a := l.tag * 64
  if hint = 1 then s.setLines st a ((s.lines st a).map (fun x => if x.tag = l.tag then l else x))
  else
    let ls0 := withoutLine (s.lines st a) a
    let keep := decide (hint = 2)
    let ls := if keep then roomForKeep ls0 else ls0
    s.setLines st a ({ l with keep := keep } :: ls)

/-- A sector read for requester `n` served by the slice (R193) under a policy; `none` is a poisoned response. -/
def State.mscReadBy (s : State) (policy n st a hint : Nat) (err : HbmErr) : State × Option (List Byte) :=
  let h := s.effHint st hint
  match s.findLine st a with
  | some l =>
    if h = 3 then (s.setLines st a (withoutLine (s.lines st a) a), some l.data)
    else if h = 1 then (s, some l.data)
    else (s.touchLine st l h, some l.data)
  | none =>
    let r := s.stackReadBy policy st a err
    match r.2 with
    | none => r
    | some d =>
      if h = 0 ∨ h = 2 then
        (r.1.allocLine st n { tag := a / 64, dirty := false, keep := decide (h = 2), data := d }, some d)
      else r

/-- Bytes merged over a sector from byte `off` on. -/
def mergeAt (base : List Byte) (off : Nat) (bs : List Byte) : List Byte :=
  base.take off ++ bs ++ base.drop (off + bs.length)

/-- A write of `bs` at byte `off` of sector `a` for requester `n` served by the slice (R193, R196) under a policy; false when the
sector it must read first is uncorrectable. -/
def State.mscWriteBy (s : State) (policy n st a off : Nat) (bs : List Byte) (hint : Nat) (err : HbmErr) : State × Bool :=
  let h := s.effHint st hint
  match s.findLine st a with
  | some l => (s.touchLine st { l with data := mergeAt l.data off bs, dirty := true } h, true)
  | none =>
    let listed := (s.region st).poison.contains a
    let s0 := s.updRegion st (fun r => { r with poison := r.poison.filter (fun p => p ≠ a) })
    let r := if bs.length = 64 ∨ listed then (s0, some (s.sector st a)) else s0.stackReadBy policy st a err
    match r.2 with
    | none => (r.1, false)
    | some d =>
      let d' := mergeAt d off bs
      if h = 1 then (r.1.stackWrite st a d', true)
      else (r.1.allocLine st n { tag := a / 64, dirty := true, keep := decide (h = 2), data := d' }, true)

/-- The same under the policy in force. -/
def State.mscRead (s : State) (n st a hint : Nat) (err : HbmErr) : State × Option (List Byte) := s.mscReadBy s.mem.eccPolicy n st a hint err
def State.mscWrite (s : State) (n st a off : Nat) (bs : List Byte) (hint : Nat) (err : HbmErr) : State × Bool :=
  s.mscWriteBy s.mem.eccPolicy n st a off bs hint err

/-! Byte accesses by local offset, sector by sector. -/

/-- The bytes of a sector as any reader meets them: the slice's copy, or the stack's. No state changes. -/
def State.peekSector (s : State) (st a : Nat) : List Byte :=
  match s.findLine st a with
  | some l => l.data
  | none => s.sector st a

/-- One byte of local HBM as any reader meets it. -/
def State.peekByte (s : State) (o : Nat) : Byte :=
  let r := s.resolve o
  (s.peekSector r.1 (r.2 / 64 * 64)).getD (r.2 % 64) 0

/-- `n` bytes of local HBM as any reader meets them. -/
def State.peek (s : State) (o n : Nat) : List Byte :=
  let secs := (List.range (cdiv (o % 64 + n) 64)).flatMap (fun k =>
    let r := s.resolve (o / 64 * 64 + 64 * k)
    s.peekSector r.1 r.2)
  (secs.drop (o % 64)).take n

/-- The sectors of a byte range of local HBM: offset, first byte in it, byte count; `fuel` counts sectors. -/
def sectorsOf : Nat → Nat → Nat → List (Nat × Nat × Nat)
  | 0, _, _ => []
  | fuel + 1, o, n =>
    if n = 0 then []
    else
      let k := min n (64 - o % 64)
      (o / 64 * 64, o % 64, k) :: sectorsOf fuel (o + k) (n - k)

/-- Does a byte range touch a band whose change is in progress (R183)? -/
def State.rangeBusy (s : State) (o n : Nat) : Bool := s.mem.bandChg.any (fun p => decide (bandOf o ≤ p.1 ∧ p.1 ≤ bandOf (o + n - 1)))

/-- Read a byte range of local HBM through the slices for requester `w`; `none` when any sector is poisoned. -/
def State.memRead (s : State) (w o n hint : Nat) (err : HbmErr) : State × Option (List Byte) :=
  (sectorsOf (n + 1) o n).foldl (fun acc t =>
    let r := acc.1.resolve t.1
    let q := acc.1.mscRead w r.1 r.2 hint err
    (q.1, match acc.2, q.2 with
      | some b, some d => some (b ++ (d.drop t.2.1).take t.2.2)
      | _, _ => none)) (s, some [])

/-- Write a byte range of local HBM through the slices for requester `w`; false when a sector could not be written. -/
def State.memWrite (s : State) (w o : Nat) (bs : List Byte) (hint : Nat) (err : HbmErr) : State × Bool :=
  let r := (sectorsOf (bs.length + 1) o bs.length).foldl (fun (acc : State × Bool × List Byte) t =>
    let r := acc.1.resolve t.1
    let q := acc.1.mscWrite w r.1 r.2 t.2.1 (acc.2.2.take t.2.2) hint err
    (q.1, acc.2.1 && q.2, acc.2.2.drop t.2.2)) (s, true, bs)
  (r.1, r.2.1)

/-- The device's own write of a byte range (records, gates, parity): NORMAL, no error met. -/
def State.devWrite (s : State) (o : Nat) (bs : List Byte) : State := (s.memWrite deviceStream o bs 0 noErr).1

/-- The device's own read. -/
def State.devRead (s : State) (o n : Nat) : State × Option (List Byte) := s.memRead deviceStream o n 0 noErr

/-- What the device's own read of a range leaves in the slices (R193), where its bytes are taken by `State.peek` (log 14). -/
def State.devTouch (s : State) (o n : Nat) : State := if o + n ≤ hbmTop then (s.devRead o n).1 else s

/-! Scratchpads. -/

def spadBytes : Nat := 3 * 2 ^ 20

def State.spadRead (s : State) (c a n : Nat) : List Byte := (s.core c).spad.gets 0 a n
def State.spadWrite (s : State) (c a : Nat) (bs : List Byte) : State :=
  s.updCore c (fun k => { k with spad := k.spad.sets 0 a bs })

/-! The local offset map (R178). -/

/-- What an offset of the local map is. -/
inductive Place where
  | hbm (o : Nat)
  | spad (c a : Nat)
  | coreCtl (c off : Nat)
  | hubCtl (h off : Nat)
  | mscCtl (r off : Nat)
  | od (off : Nat)
  | unmapped
deriving DecidableEq, Repr

/-- R178. Cores of a die beyond logical 33, and the scratchpad windows beyond 3 MiB, are unmapped. -/
def placeOf (o : Nat) : Place :=
  if o < hbmTop then .hbm o
  else if 0xE000000000 ≤ o ∧ o < 0xE040000000 then
    let x := o - 0xE000000000
    let n := x % 0x10000000 / 0x400000
    let a := x % 0x400000
    if n < 34 ∧ a < spadBytes then .spad (x / 0x10000000 * 34 + n) a else .unmapped
  else if 0xE100000000 ≤ o ∧ o < 0xE101800000 then
    let x := o - 0xE100000000
    let d := x / 0x400000
    let n := x % 0x400000 / 0x10000
    let off := x % 0x10000
    if d < 4 then (if n < 34 then .coreCtl (d * 34 + n) off else .unmapped)
    else if n = 0 then .hubCtl (d - 4) off else .unmapped
  else if 0xE200000000 ≤ o ∧ o < 0xE200180000 then
    let x := o - 0xE200000000
    .mscCtl (x / 0x10000) (x % 0x10000)
  else if 0xE300000000 ≤ o ∧ o ≤ 0xE3FFFFFFFF then .od (o - 0xE300000000)
  else .unmapped

end Sys2Proof.Machine
end

