-- ==== Sys2Proof/Machine/Ops.lean ====
section
/-! DEFINITION. Named operations every family uses: the lifecycle (R427), gates (R150, R151, R153), the segment record
(R170 to R172), a stop and a fault of the image (R137, R160 to R163, R237), and the issue of a command (R140). -/

namespace Sys2Proof.Machine

/-- Core numbers, port codes, region numbers. -/
def allCores : List Nat := List.range 136
def allPorts : List Nat := List.range 40
def allRegions : List Nat := List.range 24

/-- Apply an operation for each element of a list. -/
def State.forEach {α : Type} (s : State) (xs : List α) (f : State → α → State) : State := xs.foldl f s

/-! Lifecycle. -/

/-- The JOINED condition: every port with a valid ExpectedPeer is UP, and there is one (R427). -/
def State.joinedCond (s : State) : Bool :=
  let want := allPorts.filter (fun p => bit (s.port p).expPeer 31)
  !want.isEmpty && want.all (fun p => decide ((s.port p).st = 8))

/-- The hub that keeps the log: the north one unless it is fenced. -/
def State.logHub (s : State) : Nat := if (s.hub 0).fenced then 1 else 0

/-- A lifecycle transition: its tick and its event (R427). -/
def State.setLife (s : State) (l : Nat) : State :=
  if s.life = l then s
  else ({ s with life := l, lifeSince := s.tsc }).post 0x0201 1 (srcHub s.logHub 0xFF) [s.life, l]

/-- The transitions among READY, JOINED and RUNNING (R427). -/
def State.lifeRefresh (s : State) : State :=
  if s.life = 2 ∨ s.life = 3 ∨ s.life = 4 then
    s.setLife (if s.sched.st = 3 ∨ s.sched.st = 5 then 4 else if s.joinedCond then 3 else 2)
  else s

/-- The image state, and the lifecycle that follows it. -/
def State.setSched (s : State) (st : Nat) : State := ({ s with sched := { s.sched with st := st } }).lifeRefresh

/-! Addresses. -/

/-- Is a global address local: space LOCAL with DEVNUM 0, or REMOTE with the module's own number (R220, R290)? -/
def State.gaLocal (s : State) (g : Nat) : Bool :=
  decide (gaRsvd g = 0) &&
    ((decide (gaSpace g = 0) && decide (gaDev g = 0)) || (decide (gaSpace g = 1) && decide (gaDev g = s.devNum)))

/-- Is it in the memory of another module? -/
def State.gaRemote (s : State) (g : Nat) : Bool :=
  decide (gaRsvd g = 0) && decide (gaSpace g = 1) && decide (gaDev g ≠ s.devNum)

/-! Segments. -/

/-- The 32-byte record of an ended segment (R171). -/
def segRecord (c : Nat) (g : Segment) (endk fin seqno : Nat) : List Byte :=
  leBytes 4 (3 * 2 ^ 24 + dieOf c * 2 ^ 21 + logOf c * 2 ^ 15 + (if g.strict then 2 ^ 14 else 0) + endk * 2 ^ 12) ++
    leBytes 4 g.segid.toNat ++ leBytes 8 g.start ++ leBytes 8 fin ++ leBytes 4 g.pred.toNat ++ leBytes 4 seqno

/-- End the current segment of a core at this tick: its record (R170, R171) and the overrun event (R172). -/
def State.endSegment (s : State) (c endk : Nat) : State :=
  let q := (s.core c).seq
  match q.seg with
  | none => s
  | some g =>
    let n := s.sched.logn
    let s1 :=
      if n = 0 then s.updCore c (fun k => { k with seq := { k.seq with seg := none } })
      else
        (s.devWrite (s.sched.logBase + (c * 2 ^ n + q.seqno % 2 ^ n) * 32)
          (segRecord c g endk s.tsc q.seqno)).updCore c
          (fun k => { k with seq := { k.seq with seg := none, seqno := k.seq.seqno + 1 } })
    let o := s.sched.overrun
    if g.pred ≠ 0 ∧ o ≠ 0 ∧ g.pred.toNat * (1000 + o) < (s.tsc - g.start) * 1000 then
      s1.post 0x0604 1 (srcCore c 0) ([dieOf c, logOf c, g.segid.toNat] ++ w64 g.start ++ w64 s.tsc)
    else s1

/-! Stops and faults. -/

/-- Values for `n` accumulator elements that the manual leaves undefined. -/
def freeWords (base n : Nat) : List Word := (List.range n).map (fun i => Config.freeWord (base + i))

/-- The steps of the drain in progress that a stopped MXE has still done: it abandons the drain at a row, and which one is left open, so
their number is a free value below the drain's length (R137, log 12). A drain that waits or is paused has done none. -/
def drainBegun (base : Nat) (k : CoreSt) : List ExitStep :=
  match k.mxe.drains with
  | d :: _ =>
    if cfgRoute k.mxe.cfg || !drainReady k.mxe d || k.mxePaused || !k.clken.getLsbD 1 then []
    else
      let xs := exitSteps (k.mxe.slot d.slot) d.w (k.mxe.rows d.slot)
      xs.take ((Config.freeWord base).toNat % xs.length)
  | [] => []

/-- The MXE of a stopped core: its queue and drains go; OPEN slots hold undefined values (R137). -/
def abandonMxe (base : Nat) (m : MxeSt) : MxeSt :=
  { m with arrQ := [], drains := [],
           slots := m.slots.mapV {} (fun i t =>
            if t.st = 1 then { t with accs := freeWords (base + i * 12288) t.accs.length } else t) }

/-- The stream that a request of an STE belongs to, and its kind. -/
def MemReq.streamOf (q : MemReq) : Option (Nat × Nat × ReqKind) :=
  match q.owner with
  | .stream c i k => some (c, i, k)
  | _ => none

/-- Is a request one of a core's STE? -/
def MemReq.ofCore (q : MemReq) (c : Nat) : Bool := q.streamOf.any (fun x => decide (x.1 = c))

/-- The requests of a core's STE that are inside a slice and admitted: slot and kind. -/
def State.admittedFor (s : State) (c : Nat) : List (Nat × ReqKind) :=
  allRegions.flatMap (fun r => ((s.region r).adm.filterMap MemReq.streamOf).filterMap (fun x => if x.1 = c then some x.2 else none))

/-- Does a TXN or an open packet belong to a stream of a core? -/
def txnOfCore (c : Nat) (t : Txn) : Bool :=
  match t.owner with
  | .stream k _ _ => decide (k = c)
  | _ => false
def openOfCore (c : Nat) (o : OpenPk) : Bool := decide (o.core = c)

/-- What an STE does on a stop (R237): no further grant, landings disarmed, unadmitted requests withdrawn, waiting
gate signals dropped, remote requests abandoned. -/
def State.steCancel (s : State) (c : Nat) : State :=
  let s1 := s.forEach allRegions (fun s r => s.updRegion r (fun g =>
    { g with q := g.q.filter (fun q => !q.ofCore c), held := g.held.filter (fun q => !q.ofCore c) }))
  let gone : List Landing := s1.landings.filter (fun l => l.core = c)
  let s2 : State := { s1 with
    landings := s1.landings.filter (fun l => l.core ≠ c),
    fab := { s1.fab with
      reelOff := s1.fab.reelOff || !gone.isEmpty,
      txns := s1.fab.txns.filter (fun p => !(p.2.any (txnOfCore c))),
      opens := s1.fab.opens.filter (fun p => !(p.2.any (openOfCore c))) } }
  let adm := s2.admittedFor c
  s2.updCore c (fun k => { k with ste := { k.ste with
    q := [], resp := [], sigWait := [],
    slots := k.ste.slots.mapV {} (fun i t =>
      if t.busy then
        let o := (adm.filter (fun q => q.1 = i)).map Prod.snd
        { t with status := 1, idxWait := false, held := [], outst := o, shared := t.shared.filter (fun k => o.contains k) }
      else t) } })

/-- Every engine of a core abandons its work (R137). -/
def State.abandonCore (s : State) (c : Nat) : State :=
  let xs := drainBegun s.freeCtr (s.core c)
  let s1 := s.updCore c (fun k => { k with spad := exitWrite k.spad xs })
  let s2 := if h : c < 136 then s1.raiseFlags (.mxe ⟨c, h⟩) (exitFlags xs) else s1
  let s3 := s2.updCore c (fun k => { k with mxe := abandonMxe (s.freeCtr + 1) k.mxe, vxe := { k.vxe with pipes := [], q := [], popped := 0 } })
  ({ s3 with freeCtr := s.freeCtr + 1 + 16 * 12288 }).steCancel c

/-- A SEQ that is RUN or WAIT becomes HALTED with an FCODE; its segment ends as stopped (R137, R170). -/
def State.haltSeq (s : State) (fcode c : Nat) : State :=
  let q := (s.core c).seq
  if q.st = 1 ∨ q.st = 2 then
    (s.endSegment c 2).updCore c (fun k => { k with seq := { k.seq with
      st := 4, fcode := fcode, waitk := 0, cmd := none } })
  else s

/-- The cores that have a SEQ of the image: those with a command stream for its entry. -/
def State.imageCores (s : State) : List Nat :=
  allCores.filter (fun c => s.sched.secs.any (fun x => x.typ = 1 && x.core = c && x.sub = s.sched.entry))

/-! Ingress buffers. -/

def bump (i n : Nat) (cs : List Nat) : List Nat := cs.mapIdx (fun j c => if j = i then c + n else c)

/-- The pool that a slot of a code is drawn from: its channel's reserved credits first, shared ones second; control slots from their own
(R271). -/
def poolFor (credit : List Nat) (code : Nat) : Nat :=
  if code = 1 ∨ code = 5 then 0 else if credit.getD (code - 1) 0 = 0 then 4 else code - 1

/-- One credit of a pool is spent. -/
def spendFrom (i : Nat) (credit : List Nat) : List Nat := credit.mapIdx (fun j c => if j = i then c - 1 else c)

/-- Up to `n` slots of a code leave the ingress buffer and their credits are pending (R272). -/
def PortSt.freeSlots (q : PortSt) (code : Nat) : Nat → PortSt
  | 0 => q
  | n + 1 =>
    match q.ingress.find? (fun x => decide (x.code = code)) with
    | none => q
    | some x => PortSt.freeSlots { q with ingress := q.ingress.eraseP (fun y => decide (y.code = code)), credPend := bump x.pool 1 q.credPend } code n

def State.freeIngress (s : State) (p code n : Nat) : State := s.updPort p (fun q => q.freeSlots code n)

/-- Slots that a packet occupies (R294). -/
def slotCount (p : Packet) : Nat := cdiv (32 + p.payload.length + (if p.e2e then 16 else 0)) 256

/-- Packets leave the ingress buffers of their ports. -/
def State.freePackets (s : State) (code : Nat) (ps : List (Nat × Packet)) : State :=
  s.forEach ps (fun s x => s.freeIngress x.1 code (slotCount x.2))

/-! Collective sequencers. -/

def State.updColl (s : State) (h : Nat) (f : CollSt → CollSt) : State := s.updHub h (fun k => { k with coll := f k.coll })

/-- A change of a collective sequencer; held packets that it drops leave their ingress buffers (R321). -/
def State.collDo (s : State) (h : Nat) (f : CollSt → CollSt) : State :=
  let k := (s.hub h).coll
  let k' := f k
  (s.updColl h (fun _ => k')).freePackets 4 (k.held.filter (fun x => !k'.held.contains x))

/-- The descriptors of a table, by index, that an entry runs (R312, R313). -/
def collEntries (table : List (List Word)) (e : Nat) : List Nat :=
  (List.range table.length).filter (fun i => decide (fld ((table.getD i []).getD 0 0) 11 8 = e))

/-- The sequencer turns to the next descriptor of its entry, or is DONE (R312). -/
def collNext (k : CollSt) : CollSt :=
  match k.queue with
  | [] => { k with st := 3, prog := [], own := [], acc := [], got := 0, acks := 0, gates := [] }
  | i :: _ => { k with st := 1, index := i, prog := [], own := [], acc := [], got := 0, acks := 0, gates := [], oldFmt := [] }

/-- A stop: the sequencer abandons its descriptor; what it held is discarded (R312). -/
def collHalt (k : CollSt) : CollSt :=
  if k.st = 1 ∨ k.st = 2 then { k with st := 4, queue := [], prog := [], own := [], acc := [], got := 0, acks := 0, gates := [], held := [] } else k

/-- The requests that a hub's sequencer has outstanding are forgotten: their answers change nothing (R312). -/
def State.collForget (s : State) (h : Nat) : State :=
  { s with fab := { s.fab with txns := s.fab.txns.filter (fun p =>
      match p.2 with
      | some { owner := .coll k, .. } => decide (k ≠ h)
      | _ => true) } }

/-- Both sequencers of the module, and the requests they have outstanding, are abandoned. -/
def State.collStop (s : State) : State := (((s.collDo 0 collHalt).collForget 0).collDo 1 collHalt).collForget 1

/-- Halt every SEQ of the image and abandon the engines' work. -/
def State.haltImage (s : State) (fcode : Nat) : State :=
  let cs := s.imageCores
  let s1 := s.forEach cs (fun s c => s.haltSeq fcode c)
  let s2 : State := s1.forEach cs (fun s c => s.abandonCore c)
  let s3 : State := { s2 with
    bars := s2.bars.mapV {} (fun _ b => { b with waiting := [], inflight := [] }), sched := { s2.sched with halted := true } }
  s3.collStop

/-- The halt of a faulted image reaches its other SEQs (R163). -/
def State.faultHalt (s : State) : State :=
  if s.sched.faulting && !s.sched.halted then s.haltImage 5 else s

/-- A stop of the running image with an FCODE: STOPPED, or HUB (R137, R156). -/
def State.stopImage (s : State) (fcode : Nat) : State :=
  if s.sched.st = 3 then (s.haltImage fcode).setSched 5 else s

/-- The engine and operation of a faulted command, as SEQ_FAULT holds them (R166). -/
def faultWord (w : Cmd) : Word := BitVec.ofNat 32 (cmdEng w * 2 ^ 28 + cmdOp w * 2 ^ 22)

/-- A SEQ enters FAULT (R159 to R163): FCODE 1 MALFORMED, 2 STATE, 3 GATED; the record of the first fault; the schedule-fault event.
The other SEQs go on until the tick ends, so that several may fault in one tick; then they halt with PEER (`faultHalt`; log 71). -/
def State.seqFault (s : State) (c fcode : Nat) (w : Cmd) : State :=
  let s1 := (s.endSegment c 3).updCore c (fun k => { k with seq := { k.seq with
    st := 5, fcode := fcode, waitk := 0, cmd := none, fault := faultWord w } })
  let r := s1.sched
  let first := !r.recValid || (decide (r.recTime = s.tsc) && decide (c < r.recDie * 34 + r.recCore))
  let s2 := { s1 with sched := { r with
    faulting := true, recValid := true,
    recDie := if first then dieOf c else r.recDie,
    recCore := if first then logOf c else r.recCore,
    recCode := if first then fcode else r.recCode,
    recCmd := if first then cmdEng w * 64 + cmdOp w else r.recCmd,
    recOff := if first then (s.core c).seq.pc else r.recOff,
    recTime := if first then s.tsc else r.recTime } }
  s2.post 0x0602 2 (srcCore c 0) [dieOf c, logOf c, fcode, (s.core c).seq.pc]

/-! Gates. -/

/-- Put a request for local offset `o` in the queue of the slice that homes it. -/
def State.toSlice (s : State) (w : ReqOwner) (o : Nat) (op : MemOp) (hint : Nat) : State :=
  let r := s.resolve o
  s.updRegion r.1 (fun g => { g with q := g.q ++ [{ owner := w, band := bandOf o, addr := r.2, op := op, hint := hint }] })

/-- The atomic addition in the slice that homes a gate (R150, R153); a poisoned line stops the image (R206). -/
def State.gateDo (s : State) (o n : Nat) : State :=
  let r := s.devRead o 8
  match r.2 with
  | none => r.1.stopImage 4
  | some b => r.1.devWrite o (leBytes 8 ((ofLe b + n) % 2 ^ 64))

/-- Add to a local gate, at once or when its slice comes to it. -/
def State.gateAdd (s : State) (o n : Nat) : State :=
  if s.sliceWaits deviceStream o then s.toSlice .gate o (.add n) 0 else s.gateDo o n

/-- Test a gate against TARGET, consuming it when asked (R151); a test that the slice cannot serve yet has not passed. -/
def State.gateTest (s : State) (o target : Nat) (consume : Bool) : State × Bool :=
  if s.sliceWaits deviceStream o then (s, false)
  else
    let r := s.devRead o 8
    match r.2 with
    | none => (r.1.stopImage 4, false)
    | some b =>
      if ofLe b < target then (r.1, false)
      else if consume then (r.1.devWrite o (leBytes 8 (ofLe b - target)), true)
      else (r.1, true)

/-! Scratchpad errors. -/

/-- What the code of one 64-bit scratchpad word shows at a read (R187): a corrected single error is counted; a
double error sets UE, stops the image, posts the event and leaves the word zero. -/
def State.spadEcc (s : State) (c word : Nat) (e : Ecc) : State :=
  match e with
  | .clean => s
  | .single =>
    let s1 := s.updCore c (fun k => { k with ceCnt := min (k.ceCnt + 1) 0xFFFF })
    { s1 with mem := { s1.mem with spadCe := s1.mem.spadCe.upd 0 (dieOf c) (fun n => n + 1) } }
  | .double =>
    let s1 := (s.updCore c (fun k => { k with ue := true })).stopImage 4
    (s1.spadWrite c (8 * word) (List.replicate 8 0)).post 0x0501 2 (srcCore c 0) [dieOf c, logOf c, word / 8]

/-- The words of a scratchpad range that show an error at a read, handled by R187. -/
def State.spadReadEcc (s : State) (c a n : Nat) (ecc : List (Nat × Ecc)) : State :=
  (ecc.filter (fun e => decide (a / 8 ≤ e.1 ∧ 8 * e.1 < a + n))).foldl (fun s e => s.spadEcc c e.1 e.2) s

/-- An engine reads scratchpad ranges and goes on with them, unless a double error has stopped its image (R187). -/
def State.readThen (s : State) (c : Nat) (rs : List (Nat × Nat)) (ecc : List (Nat × Ecc)) (f : State → State) : State :=
  let s1 := rs.foldl (fun s r => s.spadReadEcc c r.1 r.2 ecc) s
  if s1.sched.st = s.sched.st then f s1 else s1

/-! The fetch of commands (R140, R227). -/

/-- Does a SEQ fetch: is its image running, and it RUN or WAIT with more of its stream to come and room in its buffer? -/
def State.mayFetch (s : State) (c : Nat) : Bool :=
  let q := (s.core c).seq
  decide (s.sched.st = 3) && !s.sched.faulting && s.clkOn c 0 && decide (q.st = 1 ∨ q.st = 2) && decide (q.pc + q.buf.length < q.len) &&
    decide (q.buf.length + 64 ≤ 4096)

/-- A SEQ fetches the next sector of its stream, or what is left of it, with the NORMAL hint (R140, R193, R227). A poisoned sector stops
the image, as a poisoned gate does (DESIGN CHOICE, log 69). -/
def State.fetchSector (s : State) (c : Nat) : State :=
  let q := (s.core c).seq
  let o := q.pc + q.buf.length
  let n := min (64 - o % 64) (q.len - o)
  let r := s.devRead (q.base + o) n
  match r.2 with
  | some b => r.1.updCore c (fun k => { k with seq := { k.seq with buf := k.seq.buf ++ b } })
  | none => r.1.stopImage 4

/-- Does a fetch wait, because the band of the next sector is changing (R183)? -/
def State.fetchHeld (s : State) (c : Nat) : Bool :=
  let q := (s.core c).seq
  s.rangeBusy (q.base + q.pc + q.buf.length) 1

/-- Reading ahead: one sector (R140; when, is the model's choice: log 69). -/
def State.fetchAhead (s : State) (c : Nat) : State := if s.mayFetch c && !s.fetchHeld c then s.fetchSector c else s

/-- A SEQ about to issue a command that its buffer does not hold fetches it, or waits for it with WAITK FETCH (R140, R164). -/
def State.fetchFor (s : State) (c : Nat) : State :=
  let q := (s.core c).seq
  if 16 ≤ q.buf.length ∨ s.mayFetch c = false ∨ q.cmd ≠ none then s
  else if s.fetchHeld c then
    s.updCore c (fun k => { k with seq := { k.seq with st := 2, waitk := 5, stallPosted := if k.seq.st = 2 then k.seq.stallPosted else false } })
  else s.fetchSector c

/-! Issue. -/

/-- Is the SEQ of a core at this command: its image runs or has faulted in this very tick (R163), its clock and its tables allow it, and
its fetch buffer holds the command at SEQ_PC (R135, R140, R168)? -/
def State.atCmd (s : State) (c : Nat) (w : Cmd) (eng op : Nat) : Bool :=
  let k := s.core c
  let q := k.seq
  !s.clock.lost && decide (s.sched.st = 3) && (!s.sched.faulting || decide (s.sched.recTime = s.tsc)) && decide (k.sfu.checking = none) &&
  (decide (q.st = 1) || (decide (q.st = 2) && decide (q.waitk = 2 ∨ q.waitk = 5))) && decide (q.cmd = none) &&
  decide (q.pc + 16 ≤ q.len) && decide (q.buf.take 16 = cmdBytes w) &&
  decide (cmdEng w = eng) && decide (cmdOp w = op)

/-- The SEQ moves on to the next command. -/
def seqNext (tsc : Nat) (k : CoreSt) : CoreSt :=
  { k with seq := { k.seq with
      st := 1, waitk := 0, cmd := none, pc := k.seq.pc + 16, buf := k.seq.buf.drop 16, lastIssue := tsc, stallPosted := false } }

def State.advance (s : State) (c : Nat) : State := s.updCore c (seqNext s.tsc)

/-- The SEQ waits at a command: WAITK 1 ENGINE, 2 QUEUE, 3 GATE, 4 BARRIER (R164). -/
def State.seqWait (s : State) (c waitk : Nat) (cmd : Option Cmd) : State :=
  s.updCore c (fun k => { k with seq := { k.seq with
    st := 2, waitk := waitk, cmd := cmd,
    lastIssue := if (cmd.map cmdEng) = some 4 then s.tsc else k.seq.lastIssue,
    stallPosted := if k.seq.st = 2 then k.seq.stallPosted else false } })

/-- One command at issue: MALFORMED before GATED before STATE (R162); a full queue holds it (R140); otherwise the SEQ
moves on and the command has its effect. -/
def State.issue (s0 : State) (c : Nat) (w : Cmd) (eng op : Nat) (mal gated bad full : Bool) (eff : State → State) :
    State :=
  let s := s0.fetchFor c
  if !s.atCmd c w eng op then s
  else if mal then s.seqFault c 1 w
  else if gated then s.seqFault c 3 w
  else if bad then s.seqFault c 2 w
  else if full then s.seqWait c 2 none
  else eff (s.advance c)

/-- A SEQ command at issue (R140, R147, R159, R162): it runs in the SEQ, on a state whose SEQ_PC is still at the
command; `mal` and `gated` are the checks beyond the command's map and the SEQ's own clock. -/
def State.issueSq (s0 : State) (c : Nat) (w : Cmd) (op : Nat) (mal gated bad : Bool) (eff : State → State) : State :=
  let s := s0.fetchFor c
  if !s.atCmd c w 4 op then s
  else if sqMal w (s.core c).seq.loops.length || mal then s.seqFault c 1 w
  else if !s.clkOn c 0 || gated then s.seqFault c 3 w
  else if bad then s.seqFault c 2 w
  else eff s

/-- The SEQ command with operation `op` that a SEQ has begun and not completed. -/
def State.begun (s : State) (c op : Nat) : Option Cmd :=
  let q := (s.core c).seq
  match q.cmd with
  | some w => if q.st = 2 ∧ cmdEng w = 4 ∧ cmdOp w = op ∧ s.clock.lost = false then some w else none
  | none => none

/-- The numeric mode of the core's current segment; fast before the first (R33, R34). -/
def State.strictOf (s : State) (c : Nat) : Bool :=
  match (s.core c).seq.seg with
  | some g => g.strict
  | none => false

/-- Has every command issued to an engine retired (R157)? -/
def mxeIdle (k : CoreSt) : Bool := k.mxe.arrQ.isEmpty && k.mxe.drains.isEmpty
def vxeIdle (k : CoreSt) : Bool := k.vxe.pipes.isEmpty && k.vxe.q.isEmpty
def steIdle (k : CoreSt) : Bool := k.ste.q.isEmpty && k.ste.slots.all (fun p => !p.2.busy)

/-- R143's mask: bit 0 MXE, bit 1 VXE, bit 2 STE. -/
def idleMask (k : CoreSt) (m : Nat) : Bool :=
  (!m.testBit 0 || mxeIdle k) && (!m.testBit 1 || vxeIdle k) && (!m.testBit 2 || steIdle k)

end Sys2Proof.Machine
end

