-- ==== Sys2Proof/Machine/Mxe.lean ====
section
/-! DEFINITION. The matrix engine's commands and events (R68 to R89). -/

namespace Sys2Proof.Machine

/-- Change a core's MXE. -/
def State.updMxe (s : State) (c : Nat) (f : MxeSt → MxeSt) : State :=
  s.updCore c (fun k => { k with mxe := f k.mxe })

/-- FP32 or INT32 words of a row-major tile in the scratchpad (R73, R75). -/
def State.spadWords (s : State) (c a n : Nat) : List Word :=
  (chunks 4 n (s.spadRead c a (4 * n))).map (fun b => BitVec.ofNat 32 (ofLe b))

/-- The load of MX.OPEN: exact, no flag (R73). -/
def State.doLoad (s0 : State) (c i a : Nat) (ecc : List (Nat × Ecc)) : State :=
  let m := (s0.core c).mxe
  s0.readThen c [(64 * a, m.rows i * 384)] ecc fun s =>
  let ws := s.spadWords c (64 * a) (m.rows i * 96)
  s.updMxe c (fun m => { m with slots := m.slots.set {} i { m.slot i with accs := ws } })

/-- MX.MERGE, element by element (R75). -/
def State.doMerge (s0 : State) (c i a : Nat) (ecc : List (Nat × Ecc)) : State :=
  let m := (s0.core c).mxe
  s0.readThen c [(64 * a, m.rows i * 384)] ecc fun s =>
  let b := m.slot i
  let ws := s.spadWords c (64 * a) (m.rows i * 96)
  let rs := (b.accs.zip ws).map (fun p =>
    if b.acc then addI p.1.toNat p.2.toNat else addF b.strict cFP32 p.1.toNat p.2.toNat)
  let s' := s.updMxe c (fun m => { m with slots := m.slots.set {} i { b with accs := rs.map (fun r => BitVec.ofNat 32 r.1) } })
  if h : c < 136 then s'.raiseFlags (.mxe ⟨c, h⟩) (orFlags (rs.map Prod.snd)) else s'

/-- The array's work at the head of its queue is done. -/
def State.arrPop (s : State) (c : Nat) : State := s.updMxe c (fun m => { m with arrQ := m.arrQ.drop 1 })

/-- The array runs openings, loads and merges at the head of its queue that no drain holds (R73 to R75, R81). -/
def State.arrRun : Nat → State → Nat → State
  | 0, s, _ => s
  | fuel + 1, s, c =>
    let m := (s.core c).mxe
    match m.arrQ with
    | (n, it) :: _ =>
      if arrHeld m n it then s
      else
        match it with
        | .zero _ => State.arrRun fuel (s.arrPop c) c
        | .load i a ecc => State.arrRun fuel ((s.arrPop c).doLoad c i a ecc) c
        | .merge i a ecc => State.arrRun fuel ((s.arrPop c).doMerge c i a ecc) c
        | .mac .. => s
    | [] => s

/-- Enter row `row` of a drain in the hand-off queue (R76, R80). -/
def State.pushRow (s : State) (c : Nat) (d : Drain) : State :=
  let m := (s.core c).mxe
  let b := m.slot d.slot
  let r := exitRow b d.w (((b.accs.drop (96 * d.row)).take 96).map BitVec.toNat)
  let s' := s.updMxe c (fun m => { m with
    hq := m.hq ++ [hqEntry d.slot (m.rows d.slot) d.row d.w r],
    drains := m.drains.map (fun x => if x.num = d.num then { x with row := x.row + 1 } else x) })
  if h : c < 136 then s'.raiseFlags (.mxe ⟨c, h⟩) r.fl else s'

/-- The drain in progress enters rows, all but its last, while the hand-off queue has room (R80). -/
def State.pump : Nat → State → Nat → State
  | 0, s, _ => s
  | fuel + 1, s, c =>
    let m := (s.core c).mxe
    match m.drains with
    | d :: _ =>
      if cfgRoute m.cfg && drainReady m d && decide (d.row + 1 < m.rows d.slot) && decide (m.hq.length < 64) then
        State.pump fuel (s.pushRow c d) c
      else s
    | [] => s

/-- The array and the drain go on as far as they can. -/
def State.mxeRun (s : State) (c : Nat) : State :=
  if (s.core c).mxePaused || !s.clkOn c 1 then s else State.pump 128 (State.arrRun 40 s c) c

/-- Are 16 commands waiting behind the ones in progress (R140)? -/
def mxeFull (m : MxeSt) : Bool := decide (16 ≤ (m.arrQ.length - 1) + (m.drains.length - 1))

/-- An operation of the array joins its queue. -/
def MxeSt.push (m : MxeSt) (it : ArrItem) : MxeSt := { m with arrQ := m.arrQ ++ [(m.num, it)], num := m.num + 1 }

/-- MX.OPEN on a FREE slot: bindings at once, zeros or a load in its turn in the queue (R70, R73, R74, R140). -/
def State.doOpen (s : State) (c : Nat) (w : Cmd) (ecc : List (Nat × Ecc)) : State :=
  let strict := s.strictOf c
  let i := mxSlot w
  let s' := s.updMxe c (fun m =>
    let m' := { m with slots := m.slots.set {} i { mxBind w strict with accs := List.replicate (m.rows i * 96) 0 } }
    m'.push (if fld w.w0 8 7 = 1 then .load i (mxLaddr w) ecc else .zero i))
  s'.mxeRun c

/-- MX.OPEN (R70, R71, R73, R84): held while the slot drains. `ecc` is what the words of a loaded tile show (R187). -/
def execMxOpen (c : Fin 136) (x : Met Cmd) (s0 : State) : Host.Outcome State Fault Refusal :=
  let s := s0.fetchFor c
  let m := (s.core c).mxe
  let mal := mxOpenMal m.cfg x.on
  let gated := !s.clkOn c 1
  if s.atCmd c x.on 1 1 && !mal && !gated && decide ((m.slot (mxSlot x.on)).st = 2) then .next (s.seqWait c 1 (some x.on))
  else .next (s.issue c x.on 1 1 mal gated (decide ((m.slot (mxSlot x.on)).st = 1)) (mxeFull m) (fun s => s.doOpen c x.on x.ecc))

/-- A held MX.OPEN executes once its slot is FREE (R71); a full queue then holds it like any command (R140). -/
def execMxOpenHeldStart (x : Met (Fin 136)) (s : State) : Host.Outcome State Fault Refusal :=
  let k := s.core x.on
  match k.seq.cmd with
  | some w =>
    if k.seq.st = 2 ∧ cmdEng w = 1 ∧ (k.mxe.slot (mxSlot w)).st = 0 ∧ s.clkOn x.on 1 = true then
      .next (if mxeFull k.mxe then s.seqWait x.on 2 none else (s.doOpen x.on w x.ecc).advance x.on)
    else .next s
  | none => .next s

/-- The state of the MXE for a slot command: only an OPEN slot takes it (R71). -/
def notOpen (m : MxeSt) (w : Cmd) : Bool := decide ((m.slot (mxSlot w)).st ≠ 1)

/-- The binding of an OPEN slot. -/
def openBind (m : MxeSt) (w : Cmd) : Option Slot := if notOpen m w then none else some (m.slot (mxSlot w))

/-- MX.MAC (R74, R85). -/
def execMxMac (c : Fin 136) (w : Cmd) (s : State) : Host.Outcome State Fault Refusal :=
  let m := (s.core c).mxe
  .next (s.issue c w 1 2 (mxMacMal m.cfg (openBind m w) w) (!s.clkOn c 1) (notOpen m w) (mxeFull m) (fun s =>
    (s.updMxe c (fun m => m.push (.mac (mxSlot w) (mxKg w) (mxKg w) (fld w.w1 31 16) (fld w.w1 15 0)
      (fld w.w2 31 16) (fld w.w2 15 0)))).mxeRun c))

/-- The scratchpad bytes that group `t` of a MAC reads: its steps of both panels, and its scale blocks (R57). -/
def groupReads (b : Slot) (rows t aa ba as bs : Nat) : List (Nat × Nat) :=
  let g := groupLen b.afmt b.grp
  let ab := fmtBytes b.afmt rows
  let bb := fmtBytes b.bfmt 96
  [(64 * aa + t * g * ab, g * ab), (64 * ba + t * g * bb, g * bb)] ++
    (if b.grp = 0 then [] else [(64 * as + t * 2 * rows, 2 * rows), (64 * bs + t * 192, 192)])

/-- The accumulator words of slot `i` after one more group of a MAC with `left` of its `kg` groups to come, and the group's flags:
operands from the panels, every element of the slot (R57, R59 to R66). -/
def State.groupVals (s : State) (c i kg left aa ba as bs : Nat) : List Word × Flags :=
  let m := (s.core c).mxe
  let b := m.slot i
  let rows := m.rows i
  let g := groupLen b.afmt b.grp
  let t := kg - left
  let rd := fun base step n f => (List.range g).map (fun k =>
    (unpackElems f (s.spadRead c (64 * base + (t * g + k) * step) step)).take n)
  let sc := fun base n => (chunks 2 n (s.spadRead c (64 * base + t * 2 * n) (2 * n))).map ofLe
  groupSlot b.strict b.afmt b.bfmt b.grp rows (rd aa (fmtBytes b.afmt rows) rows b.afmt)
    (rd ba (fmtBytes b.bfmt 96) 96 b.bfmt) (if b.grp = 0 then [] else sc as rows) (if b.grp = 0 then [] else sc bs 96)
    b.accs

/-- One group of the MAC at the head of the array's queue (R62). -/
def State.groupStep (s0 : State) (c i kg left aa ba as bs : Nat) (ecc : List (Nat × Ecc)) : State :=
  let m := (s0.core c).mxe
  s0.readThen c (groupReads (m.slot i) (m.rows i) (kg - left) aa ba as bs) ecc fun s =>
  let r := s.groupVals c i kg left aa ba as bs
  let s' := s.updMxe c (fun m => { m with slots := m.slots.set {} i { m.slot i with accs := r.1 } })
  if h : c < 136 then s'.raiseFlags (.mxe ⟨c, h⟩) r.2 else s'

/-- A group's result reaches the accumulator (R62, R82); the command ends with its last group. -/
def execMxeGroupResult (x : Met (Fin 136)) (s : State) : Host.Outcome State Fault Refusal :=
  let k := s.core x.on
  match k.mxe.arrQ with
  | (n, .mac i kg left aa ba as bs) :: rest =>
    if k.mxePaused || !s.clkOn x.on 1 || arrHeld k.mxe n (.mac i kg left aa ba as bs) then .next s
    else
      let s1 := s.updMxe x.on (fun m => { m with
        arrQ := if left ≤ 1 then rest else (n, .mac i kg (left - 1) aa ba as bs) :: rest })
      .next ((s1.groupStep x.on i kg left aa ba as bs x.ecc).mxeRun x.on)
  | _ => .next s

/-- MX.CLOSE: the slot becomes DRAINING and its drain joins the queue of drains (R70, R76, R86). -/
def execMxClose (c : Fin 136) (w : Cmd) (s : State) : Host.Outcome State Fault Refusal :=
  let m := (s.core c).mxe
  .next (s.issue c w 1 3 (mxCloseMal m.cfg (openBind m w) w) (!s.clkOn c 1) (notOpen m w) (mxeFull m) (fun s =>
    (s.updMxe c (fun m => { m with
      slots := m.slots.set {} (mxSlot w) { m.slot (mxSlot w) with st := 2 },
      drains := m.drains ++ [{ slot := mxSlot w, w := w, num := m.num }], num := m.num + 1 })).mxeRun c))

/-- MX.MERGE (R75, R87). -/
def execMxMerge (c : Fin 136) (x : Met Cmd) (s : State) : Host.Outcome State Fault Refusal :=
  let m := (s.core c).mxe
  .next (s.issue c x.on 1 4 (mxMergeMal m.cfg x.on) (!s.clkOn c 1) (notOpen m x.on) (mxeFull m) (fun s =>
    (s.updMxe c (fun m => m.push (.merge (mxSlot x.on) (fld x.on.w1 31 16) x.ecc))).mxeRun c))

/-- A drain paused on a full hand-off queue goes on (R80). -/
def execMxDrainResume (c : Fin 136) (s : State) : Host.Outcome State Fault Refusal := .next (s.mxeRun c)

/-- The slot of a finished drain is FREE, and what waited for it goes on (R70). -/
def State.freeSlot (s : State) (c : Nat) (d : Drain) : State :=
  (s.updMxe c (fun m => { m with slots := m.slots.set {} d.slot {}, drains := m.drains.drop 1 })).mxeRun c

/-- The last byte of a drain is written, or its last row accepted in the hand-off queue (R70, R78, R79, R80); a paused drain
path ends no drain (R396, R397). All the bytes appear here, in the order of `exitSteps` (log 12). -/
def execMxDrainDone (c : Fin 136) (s : State) : Host.Outcome State Fault Refusal :=
  let m := (s.core c).mxe
  match m.drains with
  | d :: _ =>
    let rows := m.rows d.slot
    if (s.core c).mxePaused || !drainReady m d || !s.clkOn c 1 then .next s
    else if cfgRoute m.cfg then
      if d.row + 1 = rows ∧ m.hq.length < 64 then .next ((s.pushRow c d).freeSlot c d) else .next s
    else
      let xs := exitSteps (m.slot d.slot) d.w rows
      let s1 := s.updCore c (fun k => { k with spad := exitWrite k.spad xs })
      .next ((s1.raiseFlags (.mxe c) (exitFlags xs)).freeSlot c d)
  | [] => .next s

end Sys2Proof.Machine
end

