-- ==== Sys2Proof/Machine/Crypto.lean ====
section
/-! DEFINITION. Key derivation (R439) and AES-256-GCM messages over the opaque primitives of Config. -/

namespace Sys2Proof.Machine

/-- The bytes of an ASCII label. -/
def ascii (s : String) : List Byte := s.toList.map (fun c => BitVec.ofNat 8 c.toNat)

/-- KDF(label, input, n) of R439. -/
def kdf (label : String) (input : List Byte) (n : Nat) : List Byte :=
  Config.shake256 (ascii label ++ [0] ++ input) n

/-- A 256-bit SHAKE256 digest. -/
def digest (bs : List Byte) : List Byte := Config.shake256 bs 32

/-- AES-256-GCM encryption or decryption of a byte string: the exclusive-or with the key stream. -/
def gcmCrypt (key iv bs : List Byte) : List Byte :=
  ((List.range bs.length).zip bs).map (fun p => p.2 ^^^ Config.gcmStream key iv p.1)

/-- An all-zero key of 32 bytes: no key is held. -/
def noKey (k : List Byte) : Bool := allZero k

end Sys2Proof.Machine
end

