-- ==== Sys2Proof/Machine/Route.lean ====
section
/-! DEFINITION. Packets and their way out of the module: encoding (R292), coordinates and slices (R291, R296, R300,
R301), the choice of a port (R297, R299, R304), the tree's end-to-end protection (R458), merged requests (R294)
and the requests outstanding. -/

namespace Sys2Proof.Machine

/-! Encoding. -/

/-- The 32-byte header (R292), with VER as given. -/
def pktHeader (p : Packet) (ver : Nat) : List Byte :=
  leBytes 4 (ver * 2 ^ 28 + p.ptype * 2 ^ 20 + (if p.fm then 2 ^ 19 else 0) + (if p.e2e then 2 ^ 18 else 0) +
    (if p.epchk then 2 ^ 17 else 0) + p.slice) ++
  leBytes 4 (p.epoch * 2 ^ 16 + p.payload.length) ++ leBytes 4 p.dstdev ++
  leBytes 4 (p.stream * 2 ^ 17 + p.srcdev) ++ leBytes 8 p.addr ++ leBytes 4 (p.tag * 2 ^ 16 + p.txn) ++ leBytes 4 p.arg

/-- The 256-byte slots of a packet (R294). -/
def pktSlots (p : Packet) (ver : Nat) : List (List Byte) :=
  let bs := pktHeader p ver ++ p.payload ++ (if p.e2e then p.e2eTag else [])
  (List.range (cdiv bs.length 256)).map (fun i => slice bs (256 * i) 256)

/-- Is the packet type one of R293? -/
def pktTypeOk (t : Nat) : Bool := [0x01, 0x02, 0x03, 0x04, 0x05, 0x10, 0x11, 0x12, 0x20, 0x21, 0x22, 0x30, 0x31].contains t

/-- A packet with nothing in it yet. -/
def pkt0 : Packet :=
  { ver := 3, ptype := 0, code := 0, fm := false, e2e := false, epchk := false, rsvd := 0, slice := 0, epoch := 0, dstdev := 0,
    srcdev := 0, stream := 0, addr := 0, tag := 0, txn := 0, arg := 0, payload := [], e2eTag := [] }

/-! Coordinates and slices. -/

/-- Coordinate of a device number on axis 0 X, 1 Y, 2 Z (R291). -/
def coord (dev axis : Nat) : Nat := if axis = 0 then dev % 32 else if axis = 1 then dev / 32 % 64 else dev / 2048

/-- System extent on an axis (R329). -/
def State.sysDim (s : State) (axis : Nat) : Nat :=
  let w := s.fab.sysDims
  if axis = 0 then fld w 16 12 + 1 else if axis = 1 then fld w 11 6 + 1 else fld w 5 0 + 1

/-- The module's slice identifier. -/
def State.sliceId (s : State) : Nat := fld s.fab.sliceW 49 34

/-- Origin and extent of the slice on an axis; with SLICE 0, the 1 × 1 × 1 block at the own coordinates (R300). -/
def State.sliceAxis (s : State) (axis : Nat) : Nat × Nat :=
  let w := s.fab.sliceW
  if s.sliceId = 0 then (coord s.devNum axis, 1)
  else if axis = 0 then (fld w 33 29, fld w 16 12 + 1)
  else if axis = 1 then (fld w 28 23, fld w 11 6 + 1)
  else (fld w 22 17, fld w 5 0 + 1)

/-- Relative position on an axis: (c − o) mod D. -/
def State.relPos (s : State) (dev axis : Nat) : Nat :=
  let d := s.sysDim axis
  (coord dev axis + d - (s.sliceAxis axis).1 % d) % d

/-- Is the axis spanned by the slice? -/
def State.spanned (s : State) (axis : Nat) : Bool := decide ((s.sliceAxis axis).2 = s.sysDim axis)

/-- Does a device number lie in the slice block (R291, R300)? -/
def State.inBlock (s : State) (dev : Nat) : Bool :=
  (List.range 3).all (fun a => decide (coord dev a < s.sysDim a) && decide (s.relPos dev a < (s.sliceAxis a).2))

/-- Is a torus port a boundary port (R301)? -/
def State.boundary (s : State) (p : Nat) : Bool :=
  let dir := p / 6
  let axis := dir / 2
  let r := s.relPos s.devNum axis
  decide (p < 36) && !s.spanned axis &&
    (if dir % 2 = 0 then decide (r + 1 = (s.sliceAxis axis).2) else decide (r = 0))

/-- Boundary ports as a mask (R329). -/
def State.boundaryMask (s : State) : Nat :=
  (List.range 36).foldl (fun m p => if s.boundary p then m + 2 ^ p else m) 0

/-- The hub that owns a port (R16). -/
def portHub (p : Nat) : Nat := if p < 36 then (if p % 6 < 3 then 0 else 1) else if p < 38 then 0 else 1

/-- May a port carry the slice's traffic: UP, interior, its hub not fenced (R17, R301)? -/
def State.usable (s : State) (p : Nat) : Bool :=
  decide ((s.port p).st = 8) && !s.boundary p && !(s.hub (portHub p)).fenced

/-- The direction code of R223 in which a packet at relative position `a` moves toward `t` on an axis (R296). -/
def stepDir (spanned : Bool) (n a t axis : Nat) : Nat :=
  if spanned then
    let d := (t + n - a) % n
    if 2 * d < n then 2 * axis
    else if n < 2 * d then 2 * axis + 1
    else if a % 2 = 0 then 2 * axis else 2 * axis + 1
  else if a < t then 2 * axis else 2 * axis + 1

/-- The next direction toward a device of the block: X, then Y, then Z (R296); none at the target. -/
def State.nextDir (s : State) (dev : Nat) : Option Nat :=
  match (List.range 3).find? (fun a => decide (s.relPos s.devNum a ≠ s.relPos dev a)) with
  | none => none
  | some a => some (stepDir (s.spanned a) (s.sliceAxis a).2 (s.relPos s.devNum a) (s.relPos dev a) a)

/-- Credit that a channel can draw on at a port: its own pool and the shared one (R271). -/
def portCredit (q : PortSt) (code : Nat) : Nat :=
  if code = 1 then q.credit.getD 0 0 else q.credit.getD (code - 1) 0 + q.credit.getD 4 0

/-- The first element of a list whose measure is largest. -/
def bestBy (f : Nat → Nat) : List Nat → Option Nat
  | [] => none
  | x :: xs =>
    match bestBy f xs with
    | none => some x
    | some y => if f x < f y then some y else some x

/-- The port on which a packet leaves in a direction: at injection the one with the most credit, lower code on a
tie; onward, the same index, then the same hub, then the other hub (R297). -/
def State.pickPort (s : State) (dir code : Nat) (onward : Option Nat) : Option Nat :=
  let ports := ((List.range 6).map (fun k => 6 * dir + k)).filter (fun p => s.usable p)
  let best := bestBy (fun p => portCredit (s.port p) code)
  match onward with
  | none => best ports
  | some k =>
    if ports.contains (6 * dir + k) then some (6 * dir + k)
    else
      let h := portHub (6 * dir + k)
      match best (ports.filter (fun p => portHub p = h)) with
      | some p => some p
      | none => best ports

/-! Transmit queues. -/

/-- What a packet carries on a link of a version (R6, R292): version 1 has no EPOCH, and the payload of a FENCE or RECOVER packet holds
the link's version too, unless an authenticator covers it (R366, R457). -/
def linkForm (p : Packet) (ver : Nat) : Packet :=
  { p with
    epoch := if ver = 1 then 0 else p.epoch,
    payload := if (p.ptype = 2 ∨ p.ptype = 3) ∧ p.fm = false then p.payload.set 3 (BitVec.ofNat 8 ver) else p.payload }

/-- The queues of a port take a packet (R307); `t` is its form there. -/
def PortSt.put (q : PortSt) (ptype : Nat) (t : TxPk) : PortSt :=
  if ptype ≤ 3 then { q with txFlood := q.txFlood ++ [t] }
  else if ptype < 0x10 then { q with txObj := q.txObj ++ [t] }
  else if t.code = 2 then { q with txReq := q.txReq ++ [t] }
  else if t.code = 3 then { q with txRsp := q.txRsp ++ [t] }
  else { q with txBulk := q.txBulk ++ [t] }

/-- A packet as it waits at a port, in the form of the port's version; `entry`: it enters a ring there (R298). -/
def PortSt.wait (q : PortSt) (p : Packet) (entry : Bool) : TxPk :=
  { code := pktCode p.ptype, slots := pktSlots (linkForm p q.ver) q.ver, entry := entry }

/-- Queue a packet at a port, at the port's version (R292). -/
def PortSt.enqueue (q : PortSt) (p : Packet) (entry : Bool) : PortSt := q.put p.ptype (q.wait p entry)

def State.queueAt (s : State) (port : Nat) (p : Packet) (entry : Bool) : State :=
  s.updPort port (fun q => q.enqueue p entry)

/-! The tree. -/

/-- The key of tree packets of a count (R458). -/
def State.treeKey (s : State) (tseq : Nat) : List Byte := kdf "KRN-TREE" (s.jobKey ++ leBytes 4 (tseq / 2 ^ 32)) 32
def treeIv (src tseq : Nat) : List Byte := leBytes 4 src ++ leBytes 8 tseq
def treeAad (p : Packet) (tseq : Nat) : List Byte := pktHeader p 0 ++ leBytes 8 tseq

/-- Encrypt and tag a packet for the tree, and take the next TSEQ (R305, R458). -/
def State.treeSeal (s : State) (p : Packet) : State × Packet :=
  let n := s.fab.tseq
  let q := { p with e2e := true }
  let key := s.treeKey n
  let iv := treeIv p.srcdev n
  ({ s with fab := { s.fab with tseq := n + 1 } },
    { q with payload := gcmCrypt key iv p.payload,
             e2eTag := leBytes 8 n ++ (Config.gcmTag key iv (treeAad q n) p.payload).take 8 })

/-- Tree ports that are UP, in code order, hubs not fenced. -/
def State.treePorts (s : State) : List Nat :=
  [36, 37, 38, 39].filter (fun p => decide ((s.port p).st = 8) && !(s.hub (portHub p)).fenced)

/-! Sending. -/

/-- Send a packet of this module: into the torus when its target lies in the block, otherwise by the tree; the
port it left on, or none when there is no path or the port's version cannot carry EPCHK (R292, R297, R299, R304). -/
def State.sendPkt (s : State) (p : Packet) : State × Option Nat :=
  let code := pktCode p.ptype
  if s.inBlock p.dstdev then
    match s.nextDir p.dstdev with
    | none => (s, none)
    | some d =>
      match s.pickPort d code none with
      | none => (s, none)
      | some port =>
        if p.epchk && decide ((s.port port).ver = 1) then (s, none)
        else (s.queueAt port p true, some port)
  else
    match s.treePorts with
    | [] => (s, none)
    | ps =>
      match ps[p.dstdev % ps.length]? with
      | none => (s, none)
      | some port =>
        if p.epchk && decide ((s.port port).ver = 1) then (s, none)
        else
          let r := s.treeSeal p
          (r.1.queueAt port r.2 false, some port)

/-- A packet of this module, with its own identity in the header. -/
def State.ownPkt (s : State) (ptype dst stream : Nat) : Packet :=
  { pkt0 with ptype := ptype, code := pktCode ptype, slice := s.sliceId, dstdev := dst, srcdev := s.devNum, stream := stream }

/-- The stream number of a hub. -/
def hubStream (h : Nat) : Nat := (4 + h) * 2 ^ 10 + 0x3F * 2 ^ 4

/-- Record an outstanding request under a fresh TXN. -/
def State.newTxn (s : State) (o : TxnOwner) (port txn : Nat) : State :=
  { s with fab := { s.fab with txns := s.fab.txns.set none txn (some { owner := o, port := port }) } }

/-- Hand a stream its responses: data per kind, or a status (R235). -/
def State.respond (s : State) (c slot : Nat) (kinds : List ReqKind) (data : List (List Byte)) (status : Nat) : State :=
  let rs := (kinds.zip ((List.range kinds.length).map (fun i => data.getD i []))).map (fun p =>
    ({ slot := slot, kind := p.1, data := p.2, status := status } : Resp))
  s.updCore c (fun k => { k with ste := { k.ste with resp := k.ste.resp ++ rs } })

/-- Close a merged packet: it leaves, or its stream ends with LINK (R294, R299). -/
def State.sendOpen (s : State) (o : OpenPk) : State :=
  let txn := s.fab.nextTxn
  let s1 := { s with fab := { s.fab with nextTxn := (txn + 1) % 65536 } }
  let p := { s1.ownPkt (if o.write then 0x11 else 0x10) o.dst (streamNo o.core o.slot) with
    epchk := o.epchk, epoch := if o.epchk then o.epoch else 0, addr := o.off, txn := txn, hint := o.hint,
    arg := if o.write then 0 else o.kinds.length, payload := o.data }
  let r := s1.sendPkt p
  match r.2 with
  | some port => r.1.newTxn (.stream o.core o.slot o.kinds) port txn
  | none => r.1.respond o.core o.slot o.kinds [] 7

/-- Close the open packet of a stream, if it has one. -/
def State.closeOpen (s : State) (stream : Nat) : State :=
  match s.fab.opens.get none stream with
  | none => s
  | some o => ({ s with fab := { s.fab with opens := s.fab.opens.set none stream none } }).sendOpen o

/-- Does a request continue an open packet (R294)? -/
def OpenPk.continues (o n : OpenPk) : Bool :=
  decide (o.write = n.write ∧ o.dst = n.dst ∧ n.off = o.off + 64 * o.kinds.length ∧ o.epchk = n.epchk ∧ o.epoch = n.epoch ∧ o.hint = n.hint)

/-- Merge a 64-byte request into its stream's packet: continue the open one, or close it and open another; a
packet of 63 sectors closes (R294). -/
def State.mergeReq (s : State) (n : OpenPk) : State :=
  let st := streamNo n.core n.slot
  let put := fun (s : State) (o : OpenPk) =>
    { s with fab := { s.fab with opens := s.fab.opens.set none st (some o) } }
  match s.fab.opens.get none st with
  | none => put s n
  | some o =>
    if o.continues n then
      let o' := { o with kinds := o.kinds ++ n.kinds, data := o.data ++ n.data }
      let s' := put s o'
      if o'.kinds.length = 63 then s'.closeOpen st else s'
    else put (s.closeOpen st) n

/-- A remote gate addition leaves as an ADD packet with the placement epoch (R153, R173, R234). -/
def State.sendAdd (s : State) (c : Nat) (g : GateAdd) : State :=
  let txn := s.fab.nextTxn
  let s1 := { s with fab := { s.fab with nextTxn := (txn + 1) % 65536 } }
  let p := { s1.ownPkt 0x12 (gaDev g.gaddr) (streamNo c 0) with
    epchk := true, epoch := g.epoch, addr := gaOff g.gaddr, txn := txn, arg := g.add }
  let r := s1.sendPkt p
  match r.2 with
  | some port => (r.1.newTxn (.gateAdd c) port txn).updCore c (fun k =>
      { k with ste := { k.ste with sigBusy := k.ste.sigBusy + 1 } })
  | none => r.1

/-- A signal leaves from an entry: a local addition is performed in its slice, which frees the entry again; a remote one holds it until
its acknowledgement (R153, R234). -/
def State.signalNow (s : State) (c : Nat) (g : GateAdd) : State :=
  if s.gaLocal g.gaddr then s.gateAdd (gaOff g.gaddr) g.add else s.sendAdd c g

/-- A gate addition of a stream or of SQ.SIGNAL: from one of the 16 signal entries, or waiting behind those that wait for one (R153,
R234). -/
def State.signalGate (s : State) (c : Nat) (g : GateAdd) : State :=
  if (s.core c).ste.sigBusy < 16 ∧ (s.core c).ste.sigWait.isEmpty then s.signalNow c g
  else s.updCore c (fun k => { k with ste := { k.ste with sigWait := k.ste.sigWait ++ [g] } })

/-- A signal entry of an STE is free again; the oldest waiting gate addition leaves (R153, R234). -/
def State.signalFree (s : State) (c : Nat) : State :=
  let s1 := s.updCore c (fun k => { k with ste := { k.ste with sigBusy := k.ste.sigBusy - 1 } })
  match (s1.core c).ste.sigWait with
  | [] => s1
  | g :: rest => (s1.updCore c (fun k => { k with ste := { k.ste with sigWait := rest } })).signalNow c g

/-! Answers. -/

def State.noPathDrop (s : State) : State := { s with fab := { s.fab with noPathDrops := s.fab.noPathDrops + 1 } }

/-- Answer a request with a response packet; with no path it is discarded and counted (R295, R299). -/
def State.reply (s : State) (rq : Packet) (ptype arg : Nat) (payload : List Byte) : State :=
  let r := s.sendPkt { s.ownPkt ptype rq.srcdev rq.stream with addr := rq.addr, txn := rq.txn, arg := arg, payload := payload }
  if r.2.isSome then r.1 else r.1.noPathDrop

end Sys2Proof.Machine
end

