-- ==== Sys2Proof/Machine/Seq.lean ====
section
/-! DEFINITION. The sequencer's commands and events (R139 to R172). A SEQ command that waits for engines has two
commands of the table: the one at issue begins it, with SEQ_PC still at it, and the one named after its effect
completes it (assumption log 9). -/

namespace Sys2Proof.Machine

/-! Segments. -/

/-- Does an OPEN slot hold the other numeric mode (R72)? -/
def modeClash (m : MxeSt) (strict : Bool) : Bool := m.slots.any (fun p => decide (p.2.st = 1) && p.2.strict != strict)

/-- SQ.SEGMENT (R142, R170): waits for the core's earlier commands. With nothing to wait for, a mode that R72 forbids
is a state fault at once. -/
def execSqSegment (c : Fin 136) (w : Cmd) (s : State) : Host.Outcome State Fault Refusal :=
  let k := s.core c
  .next (s.issueSq c w 1 false false (idleMask k 7 && modeClash k.mxe (bit w.w0 23)) (fun s => s.seqWait c 1 (some w)))

/-- The segment that an SQ.SEGMENT begins at tick `tsc`. -/
def segOf (w : Cmd) (tsc : Nat) : Segment := { strict := bit w.w0 23, segid := w.w1, pred := w.w2, start := tsc }

/-- The boundary of two segments, once every earlier command has retired (R170 to R172). -/
def execSegmentBoundary (c : Fin 136) (s : State) : Host.Outcome State Fault Refusal :=
  let k := s.core c
  match s.begun c 1 with
  | none => .next s
  | some w =>
    if !idleMask k 7 then .next s
    else if modeClash k.mxe (bit w.w0 23) then .next (s.seqFault c 2 w)
    else .next (((s.endSegment c 0).updCore c (fun k => { k with seq := { k.seq with seg := some (segOf w s.tsc) } })).advance c)

/-! Waits. -/

/-- SQ.WAIT (R143): goes on at once when the engines are idle. -/
def execSqWait (c : Fin 136) (w : Cmd) (s : State) : Host.Outcome State Fault Refusal :=
  .next (s.issueSq c w 2 false false false (fun s =>
    if idleMask (s.core c) (sqEmask w) then s.advance c else s.seqWait c 1 (some w)))

/-- The engines of a waiting SQ.WAIT have retired their earlier commands (R143). -/
def execSqWaitRelease (c : Fin 136) (s : State) : Host.Outcome State Fault Refusal :=
  match s.begun c 2 with
  | some w => if idleMask (s.core c) (sqEmask w) then .next (s.advance c) else .next s
  | none => .next s

/-- One test of a gate by a SEQ: it passes, or the SEQ waits; a poisoned gate has stopped the image (R151, R206). -/
def State.waitg (s : State) (c : Nat) (w : Cmd) : State :=
  let r := s.gateTest (sqGoff w) (sqTarget w) (sqConsume w)
  if r.1.sched.st ≠ 3 then r.1
  else if r.2 then r.1.advance c
  else r.1.seqWait c 3 (some w)

/-- SQ.WAITG (R144, R151). -/
def execSqWaitg (c : Fin 136) (w : Cmd) (s : State) : Host.Outcome State Fault Refusal :=
  .next (s.issueSq c w 3 false false false (fun s => s.waitg c w))

/-- A waiting SQ.WAITG repeats its test (R151). -/
def execWaitgPoll (c : Fin 136) (s : State) : Host.Outcome State Fault Refusal :=
  match s.begun c 3 with
  | some w =>
    let r := s.gateTest (sqGoff w) (sqTarget w) (sqConsume w)
    .next (if r.1.sched.st = 3 ∧ r.2 = true then r.1.advance c else r.1)
  | none => .next s

/-! Signals. -/

/-- SQ.SIGNAL (R145, R153). -/
def execSqSignal (c : Fin 136) (w : Cmd) (s : State) : Host.Outcome State Fault Refusal :=
  .next (s.issueSq c w 4 false false false (fun s => s.seqWait c 1 (some w)))

/-- The gate addition of a begun SQ.SIGNAL, with the placement epoch in force (R153, R173). -/
def execSignalGateAdd (c : Fin 136) (s : State) : Host.Outcome State Fault Refusal :=
  match s.begun c 4 with
  | some w =>
    if idleMask (s.core c) (sqEmask w) then
      .next ((s.advance c).signalGate c { gaddr := sqGaddr w, add := sqTarget w, epoch := s.sched.placeEpoch })
    else .next s
  | none => .next s

/-! Barriers. -/

def State.bar (s : State) (b : Nat) : BarSt := s.bars.get {} b
def State.updBar (s : State) (b : Nat) (f : BarSt → BarSt) : State := { s with bars := s.bars.upd {} b f }

/-- SQ.BAR (R146, R155): an arrival leaves for the barrier unit and the SEQ waits. A core outside the barrier's
masks is malformed (R159). -/
def execSqBar (c : Fin 136) (w : Cmd) (s : State) : Host.Outcome State Fault Refusal :=
  let b := sqBarid w
  .next (s.issueSq c w 5 (!(s.bar b).mask.contains c.val) false false (fun s =>
    (s.updBar b (fun x => { x with inflight := x.inflight ++ [c.val] })).seqWait c 4 (some w)))

/-- A released participant goes on. -/
def State.barRelease (s : State) (c : Nat) : State := if (s.begun c 5).isSome then s.advance c else s

/-- The hub whose unit serves a barrier: the north hub the even ones, or one hub all of them when the other was fenced at the load
(R154). -/
def State.barHub (s : State) (b : Nat) : Nat := s.sched.barHub.getD (b % 2)

/-- A barrier unit counts an arrival; the last one releases every participant (R155). The units of a fenced hub take no work (R17), until
a load gives their barriers to the other hub (R156). -/
def execBarrierArrival (b : Fin 64) (s : State) : Host.Outcome State Fault Refusal :=
  let x := s.bar b
  match x.inflight with
  | [] => .next s
  | c :: rest =>
    if (s.hub (s.barHub b)).fenced || s.clock.lost then .next s
    else if x.arrived + 1 = x.mask.length then
      .next ((s.updBar b (fun x => { x with inflight := rest, arrived := 0, waiting := [] })).forEach (x.waiting ++ [c])
        State.barRelease)
    else .next (s.updBar b (fun x => { x with inflight := rest, arrived := x.arrived + 1, waiting := x.waiting ++ [c] }))

/-! Flags. -/

/-- Engines of ENGSEL that are gated; the VXE's enable stands for the SFU (R147). -/
def State.engGated (s : State) (c sel : Nat) : Bool :=
  (sel.testBit 0 && !s.clkOn c 1) || ((sel.testBit 1 || sel.testBit 2) && !s.clkOn c 2)

/-- Have the engines of ENGSEL retired their earlier commands (R50, R147)? -/
def engSelIdle (k : CoreSt) (sel : Nat) : Bool :=
  (!sel.testBit 0 || mxeIdle k) && (!(sel.testBit 1 || sel.testBit 2) || vxeIdle k)

/-- SQ.FLAGRD (R50, R147). -/
def execSqFlagrd (c : Fin 136) (w : Cmd) (s : State) : Host.Outcome State Fault Refusal :=
  .next (s.issueSq c w 6 false (s.engGated c (sqEngsel w) || !s.clkOn c 4) false (fun s => s.seqWait c 1 (some w)))

/-- The NUMFLAGS register that ENGSEL names. -/
def flagUnit (c : Fin 136) (sel : Nat) : FlagUnit := if sel = 1 then .mxe c else if sel = 2 then .vxe c else .sfu c

/-- The pending flag read writes the 32-bit value at byte 64 × ADDR (R50, R147). -/
def execFlagrdRead (c : Fin 136) (s : State) : Host.Outcome State Fault Refusal :=
  match s.begun c 6 with
  | some w =>
    if engSelIdle (s.core c) (sqEngsel w) then
      .next ((s.spadWrite c (64 * sqFaddr w) (leBytes 4 (s.flagReg (flagUnit c (sqEngsel w))).v.toNat)).advance c)
    else .next s
  | none => .next s

/-- SQ.FLAGCLR (R147). -/
def execSqFlagclr (c : Fin 136) (w : Cmd) (s : State) : Host.Outcome State Fault Refusal :=
  .next (s.issueSq c w 7 false (s.engGated c (sqEngsel w)) false (fun s => s.seqWait c 1 (some w)))

/-- The registers that ENGSEL names. -/
def flagUnits (c : Fin 136) (sel : Nat) : List FlagUnit :=
  (if sel.testBit 0 then [.mxe c] else []) ++ (if sel.testBit 1 then [.vxe c] else []) ++
    (if sel.testBit 2 then [.sfu c] else [])

/-- The pending clear meets the sets of its cycle (R49, R147). -/
def execFlagclrClear (c : Fin 136) (coset : List (FlagUnit × BitVec 4)) (s : State) : Host.Outcome State Fault Refusal :=
  match s.begun c 7 with
  | some w =>
    if engSelIdle (s.core c) (sqEngsel w) then
      .next ((s.forEach (flagUnits c (sqEngsel w)) (fun s u => s.flagCycle u (sqMask w) (cosetOf coset u))).advance c)
    else .next s
  | none => .next s

/-! Loops and the end. -/

/-- SQ.LOOP (R148). -/
def execSqLoop (c : Fin 136) (w : Cmd) (s : State) : Host.Outcome State Fault Refusal :=
  .next (s.issueSq c w 8 false false false (fun s =>
    (s.advance c).updCore c (fun k => { k with seq := { k.seq with
      loops := { body := k.seq.pc, count := w.w1.toNat, done := 0 } :: k.seq.loops } })))

/-- A pass ends: back to the body, which is fetched anew (log 69), or on past the loop (R149). -/
def loopEnd (q : SeqSt) : SeqSt :=
  match q.loops with
  | [] => q
  | l :: ls => if l.done + 1 < l.count then { q with pc := l.body, buf := [], loops := { l with done := l.done + 1 } :: ls } else { q with loops := ls }

/-- SQ.ENDLOOP (R149). -/
def execSqEndloop (c : Fin 136) (w : Cmd) (s : State) : Host.Outcome State Fault Refusal :=
  .next (s.issueSq c w 9 false false false (fun s => (s.advance c).updCore c (fun k => { k with seq := loopEnd k.seq })))

/-- SQ.END (R149). -/
def execSqEnd (c : Fin 136) (w : Cmd) (s : State) : Host.Outcome State Fault Refusal :=
  .next (s.issueSq c w 10 false false false (fun s => s.seqWait c 1 (some w)))

/-- A sequencer that is not DONE when the image completes is halted, with its event (R312). -/
def State.collAbandon (s : State) (h : Nat) : State :=
  let k := (s.hub h).coll
  if k.st = 1 ∨ k.st = 2 then ((s.collDo h collHalt).collForget h).post 0x0903 2 (srcHub h 0x52) [4 + h, k.index] else s

/-- The image becomes COMPLETE when every SEQ started for the entry is DONE (R136). -/
def State.completeIfDone (s : State) : State :=
  if s.sched.st = 3 ∧ s.imageCores.all (fun c => decide ((s.core c).seq.st = 3)) = true then
    (((s.setSched 4).post 0x0601 0 (srcHub s.logHub 0xFF) [s.sched.entry]).collAbandon 0).collAbandon 1
  else s

/-- The SEQ ends its segment and becomes DONE (R136, R149, R170). -/
def execSqEndComplete (c : Fin 136) (s : State) : Host.Outcome State Fault Refusal :=
  match s.begun c 10 with
  | some _ =>
    if idleMask (s.core c) 7 then
      .next (((s.endSegment c 1).updCore c (fun k => { k with seq := { k.seq with st := 3, waitk := 0, cmd := none } })).completeIfDone)
    else .next s
  | none => .next s

/-! The watchdog and the end of a fault. -/

/-- A SEQ has issued nothing for StallLimit microseconds (R167). -/
def execStall (c : Fin 136) (s : State) : Host.Outcome State Fault Refusal :=
  let q := (s.core c).seq
  if s.sched.st = 3 ∧ s.clock.lost = false ∧ (q.st = 1 ∨ q.st = 2) ∧ q.stallPosted = false ∧ s.sched.stallLimit * 400 ≤ s.tsc - q.lastIssue then
    .next ((s.updCore c (fun k => { k with seq := { k.seq with stallPosted := true } })).post 0x0603 1 (srcCore c 0)
      [dieOf c, logOf c, q.waitk, q.pc])
  else .next s

/-- Have the engines of a halted image come to rest: no request of a cancelled stream is still served (R137, R237)? -/
def State.haltDone (s : State) : Bool := s.imageCores.all (fun c => (s.admittedFor c).isEmpty)

/-- The slots of cancelled streams become free. -/
def State.freeCancelled (s : State) : State :=
  s.forEach s.imageCores (fun s c => s.updCore c (fun k => { k with ste := { k.ste with slots := [] } }))

/-- The engines of a faulted image are idle (R163). -/
def execImageFaulted (s0 : State) : Host.Outcome State Fault Refusal :=
  let s := s0.faultHalt
  if s.sched.st = 3 ∧ s.sched.faulting = true ∧ s.haltDone = true ∧ s.clock.lost = false then
    .next (({ s.freeCancelled with sched := { s.sched with faulting := false } }).setSched 7)
  else .next s

end Sys2Proof.Machine
end

