-- ==== Sys2Proof/Machine/Reel.lean ====
section
/-! DEFINITION. Accesses by local offset for everything that is not a control core (R178, R179, R207), Reel packets on
their way out (R252, R297), and landings (R223, R252 to R254). -/

namespace Sys2Proof.Machine

/-! Accesses by local offset; the second part of the answer is a status of R235. -/

/-- Write bytes at a local offset for requester `w`: HBM through the slices under a hint, a scratchpad window when its clock runs. -/
def State.localWrite (s : State) (w o : Nat) (bs : List Byte) (hint : Nat) : State × Nat :=
  match placeOf o with
  | .hbm a =>
    if hbmTop < a + bs.length then (s, 4)
    else
      let r := s.memWrite w a bs hint noErr
      (r.1, if r.2 then 0 else 3)
  | .spad c a => if spadBytes < a + bs.length then (s, 4) else if s.clkOn c 4 then (s.spadWrite c a bs, 0) else (s, 2)
  | _ => (s, 4)

/-- Read bytes at a local offset, likewise; `ecc` is what the words of a scratchpad show (R187). -/
def State.localRead (s : State) (w o n hint : Nat) (ecc : List (Nat × Ecc)) : State × List Byte × Nat :=
  match placeOf o with
  | .hbm a =>
    if hbmTop < a + n then (s, [], 4)
    else
      let r := s.memRead w a n hint noErr
      match r.2 with
      | some d => (r.1, d, 0)
      | none => (r.1, [], 3)
  | .spad c a =>
    if spadBytes < a + n then (s, [], 4)
    else if s.clkOn c 4 then
      let s1 := s.spadReadEcc c a n ecc
      (s1, s1.spadRead c a n, 0)
    else (s, [], 2)
  | _ => (s, [], 4)

/-! Epochs. -/

/-- The test of R174 on an arriving epoch: accepted, or discarded with its count and, for a newer epoch, its event. -/
def State.epochCheck (s : State) (e : Nat) : State × Bool :=
  let k := (e + 65536 - s.sched.placeEpoch) % 65536
  if k = 0 then (s, true)
  else if 32768 ≤ k then ({ s with sched := { s.sched with stale := s.sched.stale + 1 } }, false)
  else
    let seen := s.sched.futureSeen.contains e
    let s1 := { s with sched := { s.sched with future := s.sched.future + 1,
                                               futureSeen := if seen then s.sched.futureSeen else e :: s.sched.futureSeen } }
    (if seen then s1 else s1.post 0x0605 1 (srcHub s.logHub 0xFF) [e], false)

/-! Reel packets. -/

/-- The neighbour's device number in a direction (R223, R291). -/
def State.neighbour (s : State) (dir : Nat) : Nat :=
  let step := fun axis => let d := s.sysDim axis
    (coord s.devNum axis + (if dir % 2 = 0 then 1 else d - 1)) % d
  let x := if dir / 2 = 0 then step 0 else coord s.devNum 0
  let y := if dir / 2 = 1 then step 1 else coord s.devNum 1
  let z := if dir / 2 = 2 then step 2 else coord s.devNum 2
  z * 2048 + y * 32 + x

/-- Change a landing by its number. -/
def State.updLanding (s : State) (no : Nat) (f : Landing → Landing) : State :=
  { s with landings := s.landings.map (fun l => if l.no = no then f l else l) }

/-! Streams. -/

def State.strm (s : State) (c i : Nat) : Strm := (s.core c).ste.slots.get {} i
def State.updStrm (s : State) (c i : Nat) (f : Strm → Strm) : State :=
  s.updCore c (fun k => { k with ste := { k.ste with slots := k.ste.slots.upd {} i f } })

/-- A stream meets a status other than OK (R236): the first one stays. -/
def State.strmFail (s : State) (c i st : Nat) : State :=
  s.updStrm c i (fun t => { t with status := if t.status = 0 then st else t.status })

/-! Landings. -/

/-- The armed landing of a direction and tag (R223). -/
def State.landingFor (s : State) (dir tag : Nat) : Option Landing :=
  s.landings.find? (fun l => decide (l.indir = dir ∧ l.tag = tag))

/-- The port on which an injected packet of a core leaves: behind those of its earlier ones that a port of the direction still holds, so
that they leave in the order of the writes (R252; log 19); otherwise by R297. -/
def State.injectPort (s : State) (c dir : Nat) : Option Nat :=
  match ((List.range 6).map (fun k => 6 * dir + k)).find? (fun p => s.usable p && (s.port p).txBulk.any (fun t => t.inj = some c)) with
  | some p => some p
  | none => s.pickPort dir 4 none

/-- A 64-byte write is injected into one landing armed with FWD (R252); false when OUTDIR has no port. -/
def State.injectInto (s : State) (c slot o : Nat) (bs : List Byte) (l : Landing) : State × Bool :=
  let p := { s.ownPkt 0x30 (s.neighbour l.outdir) (streamNo c slot) with
    epchk := true, epoch := s.sched.placeEpoch, addr := o - l.dst, tag := l.tag, payload := bs }
  let s1 := s.updLanding l.no (fun x => { x with landed := x.landed + bs.length })
  match s.injectPort c l.outdir with
  | none => (s1, false)
  | some port =>
    if (s.port port).ver = 1 then (s1, false)
    else (s1.updPort port (fun q => q.put 0x30 { q.wait p true with land := some (l.no, bs.length), inj := some c }), true)

/-- The injection of a 64-byte write into each landing armed with FWD whose range it lies in (R252; the owner of a line arms two
for one range, R258); false when an OUTDIR has no port. -/
def State.inject (s : State) (c slot o : Nat) (bs : List Byte) : State × Bool :=
  (s.landings.filter (fun l => l.fwd && decide (l.dst ≤ o ∧ o + bs.length ≤ l.dst + l.len))).foldl
    (fun r l => let q := r.1.injectInto c slot o bs l; (q.1, r.2 && q.2)) (s, true)

/-- A Reel packet passes on unchanged to OUTDIR of its landing, of whose block it is a part (R223, R253, R299): along its axis on the same
port index, or into another axis, where it enters a ring (R297, R298). -/
def State.reelPass (s : State) (port : Nat) (l : Landing) (p : Packet) : State :=
  match s.pickPort l.outdir 4 (some (port % 6)) with
  | none => s.noPathDrop
  | some out =>
    if p.epchk && decide ((s.port out).ver = 1) then s
    else s.updPort out (fun q => q.put 0x30 { q.wait p (decide (l.outdir / 2 ≠ port / 6 / 2)) with land := some (l.no, p.payload.length) })

/-- A Reel packet at its landing: written at DST + byte position with the descriptor's DHINT, counted, and passed on when FWD is set
(R218, R223). A write that fails ends the FWDLAND's stream (R235). `port` is the port it arrived on. -/
def State.reelLand (s : State) (port : Nat) (l : Landing) (p : Packet) : State :=
  let r := s.localWrite deviceStream (l.dst + p.addr) p.payload l.hint
  let s1 := if r.2 = 0 then r.1 else r.1.strmFail l.core l.slot r.2
  let s2 := s1.updLanding l.no (fun x => { x with landed := x.landed + p.payload.length })
  if l.fwd then s2.reelPass port l p else s2

/-- Bytes of a landing's block have left on OUTDIR (R223). -/
def State.landingLeft (s : State) (x : Nat × Nat) : State := s.updLanding x.1 (fun l => { l with fwded := l.fwded + x.2 })

/-- Does a hub still hold a Reel packet of a direction and tag? What comes after it waits behind it (R255). -/
def State.reelBehind (s : State) (dir tag : Nat) : Bool := s.fab.reelHeld.any (fun h => decide (h.1 / 6 = dir ∧ h.2.1.tag = tag))

/-- A Reel packet that has passed its port's checks: discarded by its epoch (R254), landed, discarded after a stop (R237, R255), or held for
want of a landing or behind one that is held (R223, R255, R256). A byte position beyond the landing is discarded. -/
def State.reelArrive (s : State) (port : Nat) (p : Packet) : State :=
  let dir := port / 6
  let r := s.epochCheck p.epoch
  let hold := fun (n : Nat) => { s with fab := { s.fab with
    reelHeld := s.fab.reelHeld ++ [(port, p, s.tsc)],
    reelHeldCount := s.fab.reelHeldCount.upd 0 dir (fun x => x + n) } }
  if !r.2 then r.1
  else
    match s.landingFor dir p.tag with
    | some l =>
      if s.reelBehind dir p.tag then hold 0
      else if p.addr + p.payload.length ≤ l.len then s.reelLand port l p
      else s
    | none => if s.fab.reelOff then s else hold 1

end Sys2Proof.Machine
end

