-- ==== Sys2Proof/Machine/Ste.lean ====
section
/-! DEFINITION. The stream engine: descriptors and their checks (R218 to R226), the next request of a stream, the
earliest-dry arbiter (R228 to R230), responses and write order (R215, R233), retirement, signals and the other ends
(R232 to R236), and the Reel's landings (R223, R256). -/

namespace Sys2Proof.Machine

/-! Descriptors. -/

/-- Word `i` of a descriptor. -/
def dW (d : List Word) (i : Nat) : Word := d.getD i 0
def dVer (d : List Word) : Nat := fld (dW d 0) 31 24
def dType (d : List Word) : Nat := fld (dW d 0) 23 20
def dShint (d : List Word) : Nat := fld (dW d 0) 19 18
def dDhint (d : List Word) : Nat := fld (dW d 0) 17 16
def dRes (d : List Word) : Bool := bit (dW d 0) 15
def dLoop (d : List Word) : Nat := fld (dW d 0) 14 12
def dIdxw (d : List Word) : Nat := fld (dW d 0) 11 10
def dRun (d : List Word) : Nat := fld (dW d 1) 23 0
def dCnt (d : List Word) : Nat := fld (dW d 2) 31 16
def dSstr (d : List Word) : Int := (dW d 3).toInt
def dDstr (d : List Word) : Int := (dW d 4).toInt
def dSlstr (d : List Word) : Int := (dW d 5).toInt
def dDlstr (d : List Word) : Int := (dW d 6).toInt
def dSrc (d : List Word) : Nat := (dW d 7).toNat + (dW d 8).toNat * 2 ^ 32
def dDst (d : List Word) : Nat := (dW d 9).toNat + (dW d 10).toNat * 2 ^ 32
def dAux (d : List Word) : Nat := (dW d 11).toNat + (dW d 12).toNat * 2 ^ 32
def dRate (d : List Word) : Nat := (dW d 13).toNat
def dDepth (d : List Word) : Nat := fld (dW d 14) 31 16
def dImax (d : List Word) : Nat := (dW d 15).toNat
/-- SCALEPANEL: entry number, first vector, first group (R222). -/
def dSidx (d : List Word) : Nat := fld (dW d 11) 11 0
def dV0 (d : List Word) : Nat := fld (dW d 12) 31 16
def dT0 (d : List Word) : Nat := fld (dW d 12) 15 0
/-- FWDLAND: tag, forwarding, directions (R223). -/
def dTag (d : List Word) : Nat := fld (dW d 11) 31 16
def dFwd (d : List Word) : Bool := bit (dW d 11) 7
def dOutdir (d : List Word) : Nat := fld (dW d 11) 6 4
def dIndir (d : List Word) : Nat := fld (dW d 11) 2 0
/-- Width of an index entry. -/
def dIw (d : List Word) : Nat := if dIdxw d = 1 then 2 else 4

/-- `n` words of a byte string. -/
def wordsLe (n : Nat) (bs : List Byte) : List Word := (List.range n).map (fun i => BitVec.ofNat 32 (leAt bs (4 * i) 4))

/-- A global address moved by a byte distance within its 40-bit offset. -/
def gaAdd (g : Nat) (d : Int) : Nat := (g - gaOff g) + ((gaOff g + d) % 2 ^ 40).toNat

/-- A SCALES entry: BASE, NV, NG (R222). -/
structure ScaleEnt where
  base : Nat
  nv : Nat
  ng : Nat
deriving DecidableEq, Repr

/-! Sections of the held image. -/

/-- The bytes of a core's descriptor, when its DESCRIPTORS section reaches that far. -/
def descOff (secs : List Section) (img c n : Nat) : Option Nat :=
  match secs.find? (fun x => decide (x.typ = 6 ∧ x.core = c)) with
  | some x => if 64 * (n + 1) ≤ x.len then some (img + x.off + 64 * n) else none
  | none => none

/-- A descriptor as the image holds it. -/
def State.descAt (s : State) (secs : List Section) (img c n : Nat) : Option (List Word) :=
  (descOff secs img c n).map (fun o => wordsLe 16 (s.peek o 64))

/-- An entry of the image's SCALES section. -/
def State.scaleAt (s : State) (secs : List Section) (img n : Nat) : Option ScaleEnt :=
  match secs.find? (fun x => decide (x.typ = 7)) with
  | some x =>
    if 16 * (n + 1) ≤ x.len then
      let w := wordsLe 4 (s.peek (img + x.off + 16 * n) 16)
      some { base := (w.getD 0 0).toNat + fld (w.getD 1 0) 7 0 * 2 ^ 32, nv := fld (w.getD 2 0) 31 16, ng := fld (w.getD 2 0) 15 0 }
    else none
  | none => none

/-! Checks. -/

/-- Does an address name a scratchpad, its own module's or another's? -/
def gaSpad (g : Nat) : Bool :=
  match placeOf (gaOff g) with
  | .spad _ _ => true
  | _ => false

/-- Is an address local and in HBM or in the own scratchpad of a core? -/
def State.ownOrHbm (s : State) (c g : Nat) : Bool :=
  s.gaLocal g &&
    (match placeOf (gaOff g) with
      | .hbm _ => true
      | .spad k _ => decide (k = c)
      | _ => false)

/-- Is an address in the own scratchpad of a core? -/
def State.ownSpad (s : State) (c g : Nat) : Bool := s.ownOrHbm c g && gaSpad g

/-- R216, R218 to R224 on a descriptor of core `c`, without the ranges. -/
def State.descMal (s : State) (secs : List Section) (img c : Nat) (d : List Word) : Bool :=
  let t := dType d
  let ix := t = 2 ∨ t = 3
  let old := dVer d < 3
  decide (dVer d = 0 ∨ 3 < dVer d) || decide (t = 0 ∨ 5 < t) || decide (4 < dLoop d) || decide (dIdxw d = 3) ||
  decide (fld (dW d 0) 9 0 ≠ 0) || decide (fld (dW d 1) 31 24 ≠ 0) || decide (fld (dW d 2) 15 0 ≠ 0) ||
  decide (fld (dW d 14) 15 0 ≠ 0) || decide (dRun d = 0) || decide (dCnt d = 0) ||
  decide (dSrc d % 64 ≠ 0) || decide (dDst d % 64 ≠ 0) ||
  decide (old ∧ (dLoop d ≠ 0 ∨ dW d 5 ≠ 0 ∨ dW d 6 ≠ 0 ∨ dImax d ≠ 0 ∨ 4 ≤ t)) ||
  decide (dDhint d = 3) || decide ((dRate d = 0) ≠ (dDepth d = 0)) || decide (dDepth d * 409600 < dRate d) ||
  decide (ix ∧ (dIdxw d = 0 ∨ dImax d = 0)) || decide (¬ ix ∧ (dIdxw d ≠ 0 ∨ dImax d ≠ 0)) ||
  (decide (dShint d ≠ 0) && gaSpad (dSrc d)) || (decide (dDhint d ≠ 0) && gaSpad (dDst d)) ||
  (dRes d && decide (gaSpace (dDst d) ≠ 1)) ||
  (decide (t ≤ 3) && s.gaRemote (dSrc d) && s.gaRemote (dDst d)) ||
  (match t with
    | 1 => decide (dAux d ≠ 0)
    | 2 => decide (dSstr d < 1) || !s.ownOrHbm c (dAux d)
    | 3 => decide (dDstr d < 1) || !s.ownOrHbm c (dAux d)
    | 4 => decide (fld (dW d 11) 31 12 ≠ 0) || decide (dRun d < 2 ∨ 4 < dRun d) || decide (dDstr d ≠ dRun d) ||
        decide (dSrc d ≠ 0) || decide (dW d 3 ≠ 0) || !s.ownSpad c (dDst d) || (s.scaleAt secs img (dSidx d)).isNone
    | _ => decide (fld (dW d 11) 15 8 ≠ 0) || bit (dW d 11) 3 || decide (dW d 12 ≠ 0) || decide (5 < dIndir d) ||
        decide (dSrc d ≠ 0) || decide (dW d 3 ≠ 0) || decide (dW d 4 ≠ 0) || decide (dW d 5 ≠ 0) || decide (dRate d ≠ 0) ||
        dRes d || decide (dCnt d ≠ 1) || decide (3 ≤ dTag d / 2 ^ 14) || !s.ownOrHbm c (dDst d) ||
        (if dFwd d then decide (5 < dOutdir d) || decide (dOutdir d = dIndir d) else decide (dOutdir d ≠ 0)))

/-- Does the byte range from `lo` up to `hi`, counted from an address, lie wholly in one memory that R225 allows? -/
def State.extentOk (s : State) (g : Nat) (lo hi : Int) : Bool :=
  let a := gaOff g + lo
  let loc := s.gaLocal g
  (loc || s.gaRemote g) && decide (0 ≤ a) && decide (lo < hi) &&
    (match placeOf a.toNat with
      | .hbm x => decide ((x : Int) + (hi - lo) ≤ (if loc then hbmTop else s.mem.remoteLimit))
      | .spad _ x => decide ((x : Int) + (hi - lo) ≤ spadBytes)
      | _ => false)

/-- The bounding range of a strided end in pass `i` (R225). -/
def strided (d : List Word) (str lstr : Int) (i : Nat) : Int × Int :=
  let b : Int := 64 * i * lstr
  let e : Int := 64 * ((dCnt d : Int) - 1) * str
  (b + min 0 e, b + max 0 e + 64 * dRun d)

/-- The bounding range of an index-addressed end (R225). -/
def indexed (d : List Word) (str : Int) : Int × Int := (0, 64 * (((dImax d : Int) - 1) * str + dRun d))

/-- R225 on every end of a descriptor in pass `i`. -/
def State.rangesOk (s : State) (secs : List Section) (img : Nat) (d : List Word) (i : Nat) : Bool :=
  let sr := strided d (dSstr d) (dSlstr d) i
  let dr := strided d (dDstr d) (dDlstr d) i
  let ia : Int := 64 * i * (if dType d = 2 then dSlstr d else dDlstr d)
  let ix := fun (_ : Unit) => s.extentOk (dAux d) ia (ia + dCnt d * dIw d)
  match dType d with
  | 1 => s.extentOk (dSrc d) sr.1 sr.2 && s.extentOk (dDst d) dr.1 dr.2
  | 2 =>
    let q := indexed d (dSstr d)
    s.extentOk (dSrc d) q.1 q.2 && s.extentOk (dDst d) dr.1 dr.2 && ix ()
  | 3 =>
    let q := indexed d (dDstr d)
    s.extentOk (dSrc d) sr.1 sr.2 && s.extentOk (dDst d) q.1 q.2 && ix ()
  | 4 =>
    s.extentOk (dDst d) dr.1 dr.2 &&
      (match s.scaleAt secs img (dSidx d) with
        | none => false
        | some e =>
          let nv := min (32 * dRun d) (e.nv - dV0 d)
          let c0 : Int := dT0 d + i * dSlstr d
          decide (nv = 0) || s.extentOk e.base (2 * (dV0 d * e.ng + c0)) (2 * (((dV0 d + nv - 1) * e.ng : Nat) + c0 + dCnt d)))
  | _ => s.extentOk (dDst d) (64 * i * dDlstr d) (64 * i * dDlstr d + 64 * dRun d)

/-- The pass of the loop at a descriptor's LOOPLVL; `passes` outermost first (R220). -/
def passOf (d : List Word) (passes : List Nat) : Nat := if dLoop d = 0 then 0 else passes.getD (dLoop d - 1) 0

/-- The state faults of R225 and R226. -/
def State.descBad (s : State) (secs : List Section) (img : Nat) (d : List Word) (passes : List Nat) : Bool :=
  let i := passOf d passes
  decide (passes.length < dLoop d) ||
  (decide (dType d = 4) &&
    (match s.scaleAt secs img (dSidx d) with
      | none => false
      | some e => decide ((e.ng : Int) < dT0 d + i * dSlstr d + dCnt d) || decide (e.nv ≤ dV0 d))) ||
  (decide (dLoop d ≠ 0) && !s.rangesOk secs img d i)

/-- The malformed checks of an ST.ISSUE of core `c` with the descriptor it names (R216, R224, R225). -/
def State.stIssueMal (s : State) (secs : List Section) (img c : Nat) (w : Cmd) : Bool :=
  stMal w ||
    (match s.descAt secs img c (stDesc w) with
      | none => true
      | some d => s.descMal secs img c d || (decide (dLoop d = 0) && !s.rangesOk secs img d 0))

/-- ST.ISSUE (R216): joins the issue queue with the passes of the open loops. -/
def execStIssue (c : Fin 136) (w : Cmd) (s : State) : Host.Outcome State Fault Refusal :=
  let passes := ((s.core c).seq.loops.map (fun l => l.done)).reverse
  let sc := s.sched
  .next (s.issue c w 3 1 (s.stIssueMal sc.secs sc.imgOff c w) (!s.clkOn c 3)
    (match s.descAt sc.secs sc.imgOff c (stDesc w) with
      | none => false
      | some d => s.descBad sc.secs sc.imgOff d passes)
    (decide (64 ≤ (s.core c).ste.q.length))
    (fun s => s.updCore c (fun k => { k with ste := { k.ste with q := k.ste.q ++ [{ w := w, passes := passes }] } })))

/-! Slots. -/

/-- Put a number in a rising list, once. -/
def insNat (x : Nat) : List Nat → List Nat
  | [] => [x]
  | y :: ys => if x < y then x :: y :: ys else if x = y then y :: ys else y :: insNat x ys

/-- The address of the scale of vector `v` at group `g` of the scale array at `base` (R222). -/
def scaleAddr (base ng v : Nat) (g : Int) : Nat := ((base : Int) + 2 * (((v * ng : Nat) : Int) + g)).toNat

/-- The source sectors of a SCALEPANEL, in rising order, each once (R222). -/
def panelSecs (d : List Word) (e : ScaleEnt) (i : Nat) : List Nat :=
  let sectors := (List.range (min (32 * dRun d) (e.nv - dV0 d))).flatMap (fun v =>
    let lo := scaleAddr e.base e.ng (dV0 d + v) (dT0 d + i * dSlstr d)
    (List.range ((lo + 2 * dCnt d - 1) / 64 + 1 - lo / 64)).map (fun k => lo / 64 + k))
  sectors.foldl (fun acc x => insNat x acc) []

/-- The fault that the checks find in the descriptor that the STE has read: 1 malformed, 2 state (R217, R224 to R226). -/
def State.descFault (s : State) (c : Nat) (d : List Word) (passes : List Nat) : Option Nat :=
  let sc := s.sched
  if s.descMal sc.secs sc.imgOff c d || (decide (dLoop d = 0) && !s.rangesOk sc.secs sc.imgOff d 0) then some 1
  else if s.descBad sc.secs sc.imgOff d passes then some 2
  else none

/-- An ST.ISSUE at the head of the queue takes the lowest free slot (R213) and the STE reads and checks its descriptor (R217); a
FWDLAND waits while its direction and tag are armed (R223) or its direction has 16 landings (R253), and then arms its landing. A
descriptor that has become bad since the issue faults the SEQ, as it would have at issue (DESIGN CHOICE, log 73). -/
def execStreamSlotTake (c : Fin 136) (s : State) : Host.Outcome State Fault Refusal :=
  let k := s.core c
  match k.ste.q, (List.range 16).find? (fun i => !(s.strm c i).busy) with
  | q :: rest, some i =>
    if s.sched.st ≠ 3 ∨ s.sched.faulting = true ∨ s.clkOn c 3 = false then .next s
    else
      match descOff s.sched.secs s.sched.imgOff c (stDesc q.w) with
      | none => .next s
      | some off =>
        let r := s.memRead (streamNo c i) off 64 0 noErr
        let d := wordsLe 16 (r.2.getD [])
        let land := dType d = 5 ∧ r.2.isSome = true
        if land ∧ ((s.landingFor (dIndir d) (dTag d)).isSome = true ∨
            16 ≤ (s.landings.filter (fun l => l.indir = dIndir d)).length) then .next s
        else if h : r.2.isSome = true ∧ (s.descFault c d q.passes).isSome = true then
          .next (r.1.seqFault c ((s.descFault c d q.passes).get h.2) q.w)
        else
          let p := passOf d q.passes
          let e := (s.scaleAt s.sched.secs s.sched.imgOff (dSidx d)).getD { base := 0, nv := 0, ng := 0 }
          let t : Strm := {
            busy := true, desc := d, descNo := stDesc q.w, pass := p, sig := stSig q.w, gaddr := sqGaddr q.w,
            add := q.w.w3.toNat, t0 := s.tsc, epoch := s.sched.placeEpoch, order := k.ste.order,
            secs := if dType d = 4 then panelSecs d e p else [], sbase := e.base, snv := e.nv, sng := e.ng,
            status := if r.2.isSome then 0 else 3 }
          let s1 := (r.1.updCore c (fun k => { k with ste := { k.ste with q := rest, order := k.ste.order + 1 } })).updStrm c i
            (fun _ => t)
          if land then
            .next { s1 with
              landings := s1.landings ++ [{
                no := s1.fab.landNo, hint := dDhint d, core := c, slot := i, indir := dIndir d, tag := dTag d, fwd := dFwd d, outdir := dOutdir d,
                dst := gaOff (gaAdd (dDst d) (64 * p * dDlstr d)), len := 64 * dRun d }],
              fab := { s1.fab with landNo := s1.fab.landNo + 1 } }
          else .next s1
  | _, _ => .next s

/-! The next request of a stream. -/

/-- What a stream asks for next: nothing more, nothing until an index sector comes, an index at or above IMAX, an index
sector, a unit from source to destination, or a SCALEPANEL source sector. -/
inductive StNext where
  | done
  | wait
  | badIndex
  | index (sec : Nat)
  | unit (u src dst : Nat)
  | scale (sec : Nat)
deriving DecidableEq, Repr

/-- The bytes of an index entry at local offset `a`, or the sector still to read (R221). -/
def idxEntry (t : Strm) (a w : Nat) : Nat ⊕ List Byte :=
  let sec := fun x => t.idx.find? (fun p => p.1 = x)
  match sec (a / 64), sec ((a + w - 1) / 64) with
  | none, _ => .inl (a / 64)
  | some _, none => .inl ((a + w - 1) / 64)
  | some p, some q =>
    .inr (((p.2 ++ (if p.1 = q.1 then [] else q.2)).drop (a % 64)).take w)

/-- The next request of a stream (R220 to R222, R227). -/
def strmNext (t : Strm) : StNext :=
  let d := t.desc
  let i : Int := t.pass
  match dType d with
  | 4 =>
    match t.secs[t.g]? with
    | some x => .scale x
    | none => .done
  | 5 => .done
  | ty =>
    if dCnt d * dRun d ≤ t.g then .done
    else
      let j : Int := t.g / dRun d
      let pos : Int := 64 * (t.g % dRun d : Nat)
      let sOff := 64 * (j * dSstr d + i * dSlstr d)
      let dOff := 64 * (j * dDstr d + i * dDlstr d)
      if ty = 1 then .unit t.g (gaAdd (dSrc d) (sOff + pos)) (gaAdd (dDst d) (dOff + pos))
      else if t.idxWait then .wait
      else
        let a := gaOff (gaAdd (dAux d) (j * dIw d + 64 * i * (if ty = 2 then dSlstr d else dDlstr d)))
        match idxEntry t a (dIw d) with
        | .inl sec => .index sec
        | .inr bs =>
          let x : Int := ofLe bs
          if (dImax d : Int) ≤ x then .badIndex
          else if ty = 2 then .unit t.g (gaAdd (dSrc d) (64 * x * dSstr d + pos)) (gaAdd (dDst d) (dOff + pos))
          else .unit t.g (gaAdd (dSrc d) (sOff + pos)) (gaAdd (dDst d) (64 * x * dDstr d + pos))

/-! The arbiter. -/

/-- The dry tick; none is +infinity (R228). -/
def dryTick (t : Strm) : Option Nat := if dRate t.desc = 0 then none else some (t.t0 + t.g * 64 * 400 / dRate t.desc)

/-- Shared entries in use (R215). -/
def sharedUsed (k : CoreSt) : Nat := (k.ste.slots.map (fun p => p.2.shared.length)).sum

/-- Is a dedicated entry of a stream's slot free (R215)? -/
def dedicatedFree (t : Strm) : Bool := decide (t.outst.length - t.shared.length < 64)

/-- May a stream receive a grant at tick `now` (R229)? -/
def eligible (k : CoreSt) (t : Strm) (now : Nat) : Bool :=
  t.busy && decide (t.status = 0) && decide (t.outst.length < 512) &&
  (dedicatedFree t || decide (sharedUsed k < 1024)) &&
  (match dryTick t with
    | none => true
    | some x => decide (x < now + dDepth t.desc * 409600 / dRate t.desc)) &&
  (match strmNext t with
    | .index _ => true
    | .unit _ _ _ => true
    | .scale _ => true
    | _ => false)

/-- Is stream `a` chosen before stream `b`: by count when either has reached 4,095, else by dry tick, then by age (R230)? -/
def before (starved : Bool) (a b : Strm) : Bool :=
  if starved then decide (b.starve < a.starve) || (decide (a.starve = b.starve) && decide (a.order < b.order))
  else
    match dryTick a, dryTick b with
    | some x, some y => decide (x < y) || (decide (x = y) && decide (a.order < b.order))
    | some _, none => true
    | none, some _ => false
    | none, none => decide (a.order < b.order)

/-- The slot that receives the next grant (R230). -/
def chooseSlot (k : CoreSt) (now : Nat) : Option Nat :=
  let es := (List.range 16).filter (fun i => eligible k (k.ste.slots.get {} i) now)
  let st := fun i => k.ste.slots.get {} i
  let starved := es.any (fun i => decide (4095 ≤ (st i).starve))
  es.foldl (fun acc i =>
    match acc with
    | none => some i
    | some b => if before starved (st i) (st b) then some i else some b) none

/-! Requests and responses. -/

/-- Is a write of unit `u` held by an earlier outstanding write of the stream to the same sector (R233)? -/
def writeHeld (t : Strm) (u dst : Nat) : Bool :=
  t.outst.any (fun k =>
    match k with
    | .unit v e => decide (v < u ∧ e = dst)
    | _ => false)

/-- A request of a stream is complete: its entry is freed (R215). -/
def State.reqDone (s : State) (c i : Nat) (k : ReqKind) : State :=
  s.updStrm c i (fun t => { t with outst := t.outst.erase k, shared := t.shared.erase k })

/-- A write of unit `u` leaves for its destination (R214, R232, R252). -/
def State.sendWrite (s : State) (c i u dst : Nat) (data : List Byte) : State :=
  let t := s.strm c i
  let k := ReqKind.unit u dst
  if s.gaLocal dst then
    let o := gaOff dst
    let r := s.inject c i o data
    let s1 := if r.2 then r.1 else r.1.strmFail c i 7
    match placeOf o with
    | .hbm a => s1.toSlice (.stream c i k) a (.write data) (dDhint t.desc)
    | .spad d a => if s1.clkOn d 4 then (s1.spadWrite d a data).reqDone c i k else (s1.strmFail c i 2).reqDone c i k
    | _ => (s1.strmFail c i 4).reqDone c i k
  else s.mergeReq {
    core := c, slot := i, write := true, dst := gaDev dst, off := gaOff dst, epchk := dRes t.desc,
    epoch := t.epoch, hint := dDhint t.desc, kinds := [k], data := data }

/-- Hand a unit's data to its destination, in stream order per sector (R233). -/
def State.steWrite (s : State) (c i u dst : Nat) (data : List Byte) : State :=
  if writeHeld (s.strm c i) u dst then s.updStrm c i (fun t => { t with held := t.held ++ [(u, dst, data)] })
  else s.sendWrite c i u dst data

/-- Writes that waited for an earlier one go on, in stream order; `fuel` bounds the passes. -/
def State.flushHeld : Nat → State → Nat → Nat → State
  | 0, s, _, _ => s
  | fuel + 1, s, c, i =>
    let t := s.strm c i
    match t.held.find? (fun p => !writeHeld t p.1 p.2.1) with
    | none => s
    | some p => State.flushHeld fuel ((s.updStrm c i (fun t => { t with held := t.held.erase p })).sendWrite c i p.1 p.2.1 p.2.2) c i

/-- The completion of a unit: its entry is freed and what waited for it goes on. -/
def State.unitDone (s : State) (c i u dst : Nat) : State := (s.reqDone c i (.unit u dst)).flushHeld 513 c i

/-- An index sector arrives; the STE keeps the last two. -/
def State.idxArrive (s : State) (c i sec : Nat) (data : List Byte) : State :=
  (s.updStrm c i (fun t => { t with idx := (t.idx ++ [(sec, data)]).drop (t.idx.length - 1), idxWait := false })).reqDone c i (.index sec)

/-- The BF16 scales of a panel that source sector `sec` holds: scratchpad address and value (R222). -/
def panelWrites (t : Strm) (sec : Nat) (data : List Byte) : List (Nat × List Byte) :=
  let d := t.desc
  (List.range (dCnt d)).flatMap (fun (b : Nat) => (List.range (32 * dRun d)).filterMap (fun (v : Nat) =>
    let a := scaleAddr t.sbase t.sng (dV0 d + v) (dT0 d + t.pass * dSlstr d + b)
    if dV0 d + v < t.snv ∧ a / 64 = sec then some (64 * b * dRun d + 2 * v, slice data (a % 64) 2) else none))

/-- The zero entries of a panel, for vectors at or beyond NV. -/
def panelZeros (t : Strm) : List (Nat × List Byte) :=
  let p := 32 * dRun t.desc
  (List.range (dCnt t.desc)).flatMap (fun b => (List.range p).filterMap (fun v =>
    if t.snv ≤ dV0 t.desc + v then some (64 * b * dRun t.desc + 2 * v, [0, 0]) else none))

/-- The bytes that a local offset holds, as any reader meets them. -/
def State.bytesAt (s : State) (o n : Nat) : List Byte :=
  match placeOf o with
  | .hbm a => s.peek a n
  | .spad k a => s.spadRead k a n
  | _ => []

/-- One scale of a panel is written at local offset `base + w.1`, or its status ends the stream (R235). The last of the 32 scales of a
64-byte sector makes that sector's write, which is injected (R252; log 19). -/
def State.panelOne (s : State) (c i base : Nat) (w : Nat × List Byte) : State :=
  let o := base + w.1
  let r := s.localWrite (streamNo c i) o w.2 (dDhint (s.strm c i).desc)
  let n := (s.strm c i).panel.get 0 (o / 64) + 1
  let s1 := (if r.2 = 0 then r.1 else r.1.strmFail c i r.2).updStrm c i (fun t => { t with panel := t.panel.set 0 (o / 64) (n % 32) })
  if n = 32 then
    let q := s1.inject c i (o / 64 * 64) (s1.bytesAt (o / 64 * 64) 64)
    if q.2 then q.1 else q.1.strmFail c i 7
  else s1

/-- Parts of a panel are written where the present pass of the stream puts it: in the core's scratchpad, or where DLSTR carries it (R222,
R225). -/
def State.panelPut (s : State) (c i : Nat) (ws : List (Nat × List Byte)) : State :=
  let t := s.strm c i
  s.forEach ws (fun s w => s.panelOne c i (gaOff (gaAdd (dDst t.desc) (64 * t.pass * dDlstr t.desc))) w)

/-- Read a sector of a stream's source: a scratchpad answers within the grant, with what its words show (R187), HBM through its slice,
another module by a merged READ, which for a result stream carries its epoch (R173, R214, R294). -/
def State.sendRead (s : State) (c i : Nat) (k : ReqKind) (g hint : Nat) (ecc : List (Nat × Ecc)) (got : State → List Byte → State) :
    State :=
  let t := s.strm c i
  if s.gaLocal g then
    match placeOf (gaOff g) with
    | .hbm a => s.toSlice (.stream c i k) a .read hint
    | .spad d a =>
      if s.clkOn d 4 then s.readThen d [(a, 64)] ecc (fun s => got s (s.spadRead d a 64)) else (s.strmFail c i 2).reqDone c i k
    | _ => (s.strmFail c i 4).reqDone c i k
  else s.mergeReq {
    core := c, slot := i, write := false, dst := gaDev g, off := gaOff g, epchk := dRes t.desc, epoch := t.epoch,
    hint := hint, kinds := [k], data := [] }

/-- One grant to a slot (R214, R215, R228, R230). -/
def State.grantTo (s : State) (c i : Nat) (ecc : List (Nat × Ecc)) : State :=
  let n := strmNext (s.strm c i)
  let s0 := s.updCore c (fun k => { k with ste := { k.ste with
    slots := k.ste.slots.mapV {} (fun j t => { t with starve := if j = i ∨ t.busy = false then 0 else t.starve + 1 }) } })
  let add := fun (s : State) k (data : Bool) => s.updStrm c i (fun t =>
    { t with outst := t.outst ++ [k], shared := if dedicatedFree t then t.shared else t.shared ++ [k],
             g := if data then t.g + 1 else t.g })
  match n with
  | .index sec =>
    let s1 := (add s0 (.index sec) false).updStrm c i (fun t => { t with idxWait := true })
    s1.sendRead c i (.index sec) (64 * sec) 0 ecc (fun s d => s.idxArrive c i sec d)
  | .scale sec =>
    let s1 := add s0 (.scale sec) true
    let s2 := if (s.strm c i).g = 0 then s1.panelPut c i (panelZeros (s.strm c i)) else s1
    s2.sendRead c i (.scale sec) (64 * sec) (dShint (s.strm c i).desc) ecc (fun s d =>
      (s.panelPut c i (panelWrites (s.strm c i) sec d)).reqDone c i (.scale sec))
  | .unit u src dst =>
    (add s0 (.unit u dst) true).sendRead c i (.unit u dst) src (dShint (s.strm c i).desc) ecc (fun s d =>
      (s.steWrite c i u dst d).flushHeld 513 c i)
  | _ => s

/-- Streams whose next index is at or above IMAX end with status INDEX (R221). -/
def State.indexEnds (s : State) (c : Nat) : State :=
  s.updCore c (fun k => { k with ste := { k.ste with
    slots := k.ste.slots.mapV {} (fun _ t =>
      if t.busy ∧ t.status = 0 ∧ strmNext t = .badIndex then { t with status := 6 } else t) } })

/-- One grant of the earliest-dry arbiter (R230); `ecc` is what the words of a scratchpad source show (R187). -/
def execSteGrant (x : Met (Fin 136)) (s : State) : Host.Outcome State Fault Refusal :=
  if s.sched.st ≠ 3 ∨ s.sched.faulting = true ∨ s.clkOn x.on 3 = false then .next s
  else
    let s1 := s.indexEnds x.on
    match chooseSlot (s1.core x.on) s1.tsc with
    | none => .next s1
    | some i => .next (s1.grantTo x.on i x.ecc)

/-- A response that belongs to a live request of a stream (R215, R222, R233). -/
def State.steArrive (s : State) (c : Nat) (r : Resp) : State :=
  let i := r.slot
  if r.status ≠ 0 then
    let s1 := s.strmFail c i r.status
    match r.kind with
    | .unit u dst => s1.unitDone c i u dst
    | k => s1.reqDone c i k
  else
    match r.kind with
    | .index sec => s.idxArrive c i sec r.data
    | .scale sec => (s.panelPut c i (panelWrites (s.strm c i) sec r.data)).reqDone c i (.scale sec)
    | .unit u dst =>
      if r.data.isEmpty then s.unitDone c i u dst else (s.steWrite c i u dst r.data).flushHeld 513 c i

/-- The `k`-th response that waits at a core arrives (R215); one that no stream awaits is discarded (R237). -/
def execSteResponse (c : Fin 136) (k : Nat) (s : State) : Host.Outcome State Fault Refusal :=
  match (if s.clock.lost then none else (s.core c).ste.resp[k]?) with
  | none => .next s
  | some r =>
    let s1 := s.updCore c (fun x => { x with ste := { x.ste with resp := x.ste.resp.eraseIdx k } })
    let t := s1.strm c r.slot
    if t.busy ∧ t.outst.contains r.kind = true then
      if t.status = 1 then .next (s1.reqDone c r.slot r.kind) else .next ((s1.steArrive c r).indexEnds c)
    else .next s1

/-! Ends. -/

/-- Has the landing of a FWDLAND's slot received, and with FWD passed on, its whole block (R223)? -/
def State.landingDone (s : State) (c i : Nat) : Bool :=
  match s.landings.find? (fun l => decide (l.core = c ∧ l.slot = i)) with
  | none => false
  | some l => decide (l.len ≤ l.landed) && (!l.fwd || decide (l.len ≤ l.fwded))

/-- Is a stream ready to end: nothing left to grant after OK, nothing outstanding (R232, R236)? -/
def State.strmOver (s : State) (c i : Nat) : Bool :=
  let t := s.strm c i
  t.busy && decide (t.status ≠ 1) && t.outst.isEmpty && t.held.isEmpty &&
    (decide (t.status ≠ 0) || (if dType t.desc = 5 then s.landingDone c i else decide (strmNext t = .done)))

/-- The slot is freed and its landing gone. -/
def State.slotFree (s : State) (c i : Nat) : State :=
  { s.updCore c (fun k => { k with ste := { k.ste with slots := k.ste.slots.set {} i {} } }) with
    landings := s.landings.filter (fun l => ¬ (l.core = c ∧ l.slot = i)) }

/-- STE_ERR's word for a status, slot and descriptor (R238). -/
def steErrWord (st i desc : Nat) : Word := BitVec.ofNat 32 (st * 2 ^ 28 + i * 2 ^ 24 + desc * 2 ^ 14)

/-- A stream ends: it retires and signals (R232, R234), or ends with a status, its event, and a stop (R236). -/
def execStreamRetire (c : Fin 136) (slot : Fin 16) (s : State) : Host.Outcome State Fault Refusal :=
  let t := s.strm c slot
  if !s.strmOver c slot || s.clock.lost then .next s
  else
    let s1 := s.slotFree c slot
    if t.status = 0 then
      if t.sig then .next (s1.signalGate c { gaddr := t.gaddr, add := t.add, epoch := s.sched.placeEpoch }) else .next s1
    else
      let s2 := s1.updCore c (fun k => { k with ste := { k.ste with
        err := if k.ste.err = 0 then steErrWord t.status slot t.descNo else k.ste.err } })
      let s3 := { s2 with mem := { s2.mem with streamErrors := s2.mem.streamErrors + 1 } }
      .next ((s3.post 0x0510 2 (srcCore c 0) [dieOf c, logOf c, slot, t.descNo, t.status]).stopImage 4)

/-- A waiting gate signal takes a freed signal entry (R234). -/
def execGateSignalSend (c : Fin 136) (s : State) : Host.Outcome State Fault Refusal :=
  let e := (s.core c).ste
  match e.sigWait with
  | [] => .next s
  | g :: rest =>
    if e.sigBusy < 16 ∧ s.clock.lost = false then
      .next ((s.updCore c (fun k => { k with ste := { k.ste with sigWait := rest } })).signalNow c g)
    else .next s

/-! The Reel's held packets. -/

/-- The first held packet of a port whose landing is armed lands (R223). -/
def execReelPacketLand (p : Fin 40) (s : State) : Host.Outcome State Fault Refusal :=
  match (if s.clock.lost then [] else s.fab.reelHeld).find? (fun h => decide (h.1 = p.val) && (s.landingFor (p.val / 6) h.2.1.tag).isSome) with
  | none => .next s
  | some h =>
    let s1 := ({ s with fab := { s.fab with reelHeld := s.fab.reelHeld.erase h } }).freePackets 4 [(h.1, h.2.1)]
    match s1.landingFor (p.val / 6) h.2.1.tag with
    | none => .next s1
    | some l =>
      let r := s1.epochCheck h.2.1.epoch
      if r.2 ∧ h.2.1.addr + h.2.1.payload.length ≤ l.len then .next (r.1.reelLand p l h.2.1) else .next r.1

/-- A Reel packet held for ReelHoldLimit posts its event, once for each direction and tag; its source is the link port that holds the
packet (R256, R430; log 19). -/
def execReelHold (p : Fin 40) (s : State) : Host.Outcome State Fault Refusal :=
  match (if s.clock.lost then [] else s.fab.reelHeld).find? (fun h => decide (h.1 = p.val) && !s.fab.reelPosted.contains (p.val / 6, h.2.1.tag) &&
      decide (s.fab.reelHoldLimit * 400 ≤ s.tsc - h.2.2)) with
  | none => .next s
  | some h =>
    .next (({ s with fab := { s.fab with reelPosted := (p.val / 6, h.2.1.tag) :: s.fab.reelPosted } }).post 0x0902 1
      (srcHub (portHub p) p) [p.val / 6, h.2.1.tag])

end Sys2Proof.Machine
end

