-- ==== Sys2Proof/Machine/Vxe.lean ====
section
/-! DEFINITION. The vector engine and the special-function unit (R90 to R124). -/

namespace Sys2Proof.Machine

/-- Change a core's VXE. -/
def State.updVxe (s : State) (c : Nat) (f : VxeSt → VxeSt) : State :=
  s.updCore c (fun k => { k with vxe := f k.vxe })

/-! Registers. -/

/-- `n` bytes of register `r` from byte `a` on (R90). -/
def VxeSt.bytes (v : VxeSt) (r a n : Nat) : List Byte := v.v.gets 0 (r % 32 * 4096 + a) n
def VxeSt.setBytes (v : VxeSt) (r a : Nat) (bs : List Byte) : VxeSt :=
  { v with v := v.v.sets 0 (r % 32 * 4096 + a) bs }

/-- The first `n` elements of a register in a format. -/
def VxeSt.elems (v : VxeSt) (r f n : Nat) : List Nat := (unpackElems f (v.bytes r 0 (fmtBytes f n))).take n
def VxeSt.setElems (v : VxeSt) (r f : Nat) (xs : List Nat) : VxeSt := v.setBytes r 0 (packElems f xs)

/-- 32-bit word `i` of a register (R93). -/
def VxeSt.word (v : VxeSt) (r i : Nat) : Nat := ofLe (v.bytes r (4 * i) 4)
def VxeSt.setWord (v : VxeSt) (r i x : Nat) : VxeSt := v.setBytes r (4 * i) (leBytes 4 x)

/-- Operand B or C in its mode (R98). -/
def VxeSt.operand (v : VxeSt) (mode r pos f vl rlen imm : Nat) : List Nat :=
  match mode with
  | 0 => v.elems r f vl
  | 1 => (List.range vl).map (fun i => v.word r (4 * (i / rlen) + pos))
  | 2 => List.replicate vl imm
  | _ => List.replicate vl ((v.elems r f 1).headD 0)

/-! Element operations. -/

/-- ADD, SUB, MUL, MAX and MIN on one pair of elements (R101). -/
def vxBin (op : Nat) (strict : Bool) (f a b : Nat) : Nat × Flags :=
  if f = cINT32 then
    match op with
    | 0x08 => addI a b
    | 0x09 => subI a b
    | 0x0B => (if signed 32 a < signed 32 b then b else a, 0)
    | _ => (if signed 32 b < signed 32 a then b else a, 0)
  else
    match op with
    | 0x08 => addF strict f a b
    | 0x09 => subF strict f a b
    | 0x0A => mulF strict f a b
    | 0x0B => maxMinF strict true f a b
    | _ => maxMinF strict false f a b

/-- Widen an element to FP32 (R30, R38). -/
def widen (strict : Bool) (f x : Nat) : Nat × Flags := if f = cFP32 then (x, 0) else cvtFF strict f cFP32 x

/-- One level of a balanced pairwise tree in ascending position; an unpaired last value passes (R102). -/
def pairLevel {α : Type} (op : α → α → α × Flags) : List α → List α × Flags
  | a :: b :: r =>
    let x := op a b
    let t := pairLevel op r
    (x.1 :: t.1, x.2 ||| t.2)
  | xs => (xs, 0)

/-- The whole tree: `fuel` counts levels (R102, R111). -/
def pairTree {α : Type} (op : α → α → α × Flags) : Nat → List α → List α × Flags
  | 0, xs => (xs, 0)
  | n + 1, xs =>
    match xs with
    | _ :: _ :: _ =>
      let l := pairLevel op xs
      let t := pairTree op n l.1
      (t.1, l.2 ||| t.2)
    | _ => (xs, 0)

/-- v · num / den rounded once to FP32, for an FP32 value v; an infinity times zero is invalid (R109, R110). -/
def scaleQ (strict : Bool) (v num den : Nat) : Nat × Flags :=
  match nanOf strict cFP32 [decodeF cFP32 v] with
  | some r => r
  | none =>
    match decodeF cFP32 v with
    | .fin n m e => roundF strict cFP32 n (m * num) den e
    | .inf n => if num = 0 then invalidF cFP32 else (infBits cFP32 n, 0)
    | _ => invalidF cFP32

/-- v · v · num / den rounded once to FP32 (R109, R110). -/
def squareQ (strict : Bool) (v num den : Nat) : Nat × Flags :=
  match nanOf strict cFP32 [decodeF cFP32 v] with
  | some r => r
  | none =>
    match decodeF cFP32 v with
    | .fin _ m e => roundF strict cFP32 false (m * m * num) den (2 * e)
    | .inf _ => if num = 0 then invalidF cFP32 else (infBits cFP32 false, 0)
    | _ => invalidF cFP32

/-- A position of a Welford triple: count, mean, sum of squared deviations. -/
abbrev Triple := Nat × Nat × Nat

/-- VX.WELF at one position (R109). -/
def welf (strict : Bool) (t : Triple) (x : Nat) : Triple × Flags :=
  if 2 ^ 31 - 1 ≤ t.1 then (t, fOVF)
  else
    let n1 := t.1 + 1
    let d := subF strict cFP32 x t.2.1
    let q := scaleQ strict d.1 1 n1
    let mean := addF strict cFP32 t.2.1 q.1
    let inc := squareQ strict d.1 t.1 n1
    let m2 := addF strict cFP32 t.2.2 inc.1
    ((n1, mean.1, m2.1), d.2 ||| q.2 ||| mean.2 ||| inc.2 ||| m2.2)

/-- VX.WMRG at one position: b into a (R110). -/
def wmrg (strict : Bool) (a b : Triple) : Triple × Flags :=
  if b.1 = 0 then (a, 0)
  else if 2 ^ 31 - 1 < a.1 + b.1 then (a, fOVF)
  else if a.1 = 0 then (b, 0)
  else
    let n := a.1 + b.1
    let d := subF strict cFP32 b.2.1 a.2.1
    let q := scaleQ strict d.1 b.1 n
    let mean := addF strict cFP32 a.2.1 q.1
    let sum := addF strict cFP32 a.2.2 b.2.2
    let inc := squareQ strict d.1 (a.1 * b.1) n
    let m2 := addF strict cFP32 sum.1 inc.1
    ((n, mean.1, m2.1), d.2 ||| q.2 ||| mean.2 ||| sum.2 ||| inc.2 ||| m2.2)

/-- VX.WFIN at one position (R112). -/
def wfin (strict : Bool) (div : Nat) (t : Triple) : Nat × Flags :=
  if t.1 ≤ div ∨ 2 ^ 31 - 1 < t.1 then invalidF cFP32 else scaleQ strict t.2.2 1 (t.1 - div)

/-- The triple at register `r`, positions 0 to `n` − 1, and its writing back. -/
def VxeSt.triple (v : VxeSt) (r n : Nat) : List Triple :=
  (v.elems r cINT32 n).zip ((v.elems (r + 1) cFP32 n).zip (v.elems (r + 2) cFP32 n))
def VxeSt.setTriple (v : VxeSt) (r : Nat) (ts : List Triple) : VxeSt :=
  ((v.setElems r cINT32 (ts.map (fun t => t.1))).setElems (r + 1) cFP32 (ts.map (fun t => t.2.1))).setElems (r + 2) cFP32
    (ts.map (fun t => t.2.2))

/-! Function tables. -/

/-- A word of the published images as a finite FP32 word (R114). -/
def shippedFinite (f k : Nat) : Word := if finite32 (Config.shippedTable f k) then Config.shippedTable f k else 0

/-- The smallest FP32 word that is not below a positive wide value in the normal range. -/
def ceilWord (x : Wide) : Word :=
  let l := Nat.log2 x.2.1
  let m := if 23 ≤ l then cdiv x.2.1 (2 ^ (l - 23)) else x.2.1 <<< (23 - l)
  BitVec.ofNat 32 (((l : Int) + x.2.2 + 127).toNat * 2 ^ 23 + m - 2 ^ 23)

/-- The larger, or for `dec` the smaller, of two FP32 words by value. -/
def farther (dec : Bool) (a b : Word) : Word := if (if dec then leW (wideOf b) (wideOf a) else leW (wideOf a) (wideOf b)) then b else a

/-- The endpoints of a shipped table in order, E0 and E1 of each segment: a published image passes the check of R119, so they never step
backward in a table that declares MONO, and they begin at `first`. -/
def shippedEnd (f : Nat) (first : Word) : Nat → Word
  | 0 => if f = 6 ∨ f = 7 then shippedFinite f 20 else first
  | n + 1 =>
    let w := shippedFinite f (16 + 8 * ((n + 1) / 2) + 4 + (n + 1) % 2)
    if f = 6 ∨ f = 7 then w else farther (decide (f = 2 ∨ f = 3)) (shippedEnd f first n) w

/-- An endpoint of a table of slots 0 to 3 within the seam of R119 between its last and first reduction. -/
def shippedSeam (f : Nat) (w : Word) : Word :=
  if f = 0 then (if leW (wideOf w) (false, 2, 0) then w else 0x40000000)
  else if f = 1 then (if leW (wideOf w) (false, 1, 0) then w else 0x3F800000)
  else if f = 2 ∨ f = 3 then (if leW (false, 1, -1) (wideOf w) then w else 0x3F000000)
  else w

/-- The words of slots 0 to 3 from W16 on: W6 and W7 of a segment are zero (R114); the first value is exact, so that the powers that R124
names are (1, and 0 for log2); the endpoints are in order (R119). -/
def shippedBase (f k : Nat) : Word :=
  let one : Word := if f = 1 then 0 else 0x3F800000
  let j := (k - 16) % 8
  if 6 ≤ j then 0
  else if k = 16 then one
  else if 4 ≤ j then shippedSeam f (shippedEnd f one (2 * ((k - 16) / 8) + (j - 4)))
  else shippedFinite f k

/-- The headers of the shipped tables, as R123 gives them. -/
def shippedHead (f k : Nat) : Word :=
  if k = 0 then
    (match f with
      | 0 => 0x03184000
      | 1 => 0x03284000
      | 2 => 0x03388000
      | 3 => 0x03488000
      | 4 => 0x03086100
      | 5 => 0x03084100
      | _ => 0x03081500)
  else if k = 1 then (if f = 4 ∨ f = 6 then 0xFD000000 else if f = 5 ∨ f = 7 then 0xFC000000 else 0)
  else if k = 2 then (if f = 4 ∨ f = 6 then 0xC1800000 else if f = 5 ∨ f = 7 then 0xC1000000 else 0)
  else if k = 3 then (if f = 4 then 0x3FB8AA3B else 0)
  else if k = 5 then (if f = 6 ∨ f = 7 then 0x3F800000 else 0)
  else 0

/-- The words of slots 4 to 7 from W16 on; the sigmoid's first endpoint is not below its low tail at LO (R119). -/
def shippedUpper (f k : Nat) : Word :=
  let j := (k - 16) % 8
  let tail : Wide := tWide (mulW (wideOf (shippedHead 4 3)) (wideOf (shippedHead 4 2)))
  let rd0 := fun k => if k < 16 then shippedHead 0 k else shippedBase 0 k
  let first := if f = 4 then farther false (ceilWord (evalCore rd0 tail)) (shippedFinite 4 20) else shippedFinite f 20
  if 6 ≤ j then 0
  else if 4 ≤ j then shippedEnd f first (2 * ((k - 16) / 8) + (j - 4))
  else shippedFinite f k

/-- Every word of a shipped table but its CRC. -/
def shippedBody (f k : Nat) : Word := if k < 16 then shippedHead f k else if f < 4 then shippedBase f k else shippedUpper f k

/-- The shipped tables in the format of R114 (R123). What the manual does not print is opaque: the coefficients, the endpoints up to the
order and the ranges above, and with them the results' last places (R124, log 4). -/
def shippedWord (f k : Nat) : Word :=
  if k = 15 then crc32c (((List.range 15) ++ (List.range 2048).map (fun k => 16 + k)).flatMap (fun k => leBytes 4 (shippedBody f k).toNat))
  else shippedBody f k

/-- Word `k` of the table in slot `f` of an SFU (R113). -/
def SfuSt.word (u : SfuSt) (f k : Nat) : Word := if f < 8 then shippedWord f k else u.tables.get 0 (f * 4096 + k)

/-- Is a slot valid (R113)? -/
def SfuSt.slotValid (u : SfuSt) (f : Nat) : Bool := decide (f < 8) || u.valid.getLsbD (f - 8)

/-! Execution. -/

/-- Write elements and raise flags: the end of an element-wise instruction. -/
def State.vxDone (s : State) (c : Nat) (r f : Nat) (xs : List (Nat × Flags)) : State :=
  let s' := s.updVxe c (fun v => v.setElems r f (xs.map Prod.fst))
  if h : c < 136 then s'.raiseFlags (.vxe ⟨c, h⟩) (orFlags (xs.map Prod.snd)) else s'

/-- Raise VXE flags. -/
def State.vxFlags (s : State) (c : Nat) (fl : Flags) : State :=
  if h : c < 136 then s.raiseFlags (.vxe ⟨c, h⟩) fl else s

/-- VX.LD (R103). -/
def vxRunLd (s : State) (c : Nat) (i : VxItem) : State :=
  let n := fmtBytes (vxFmt i.w) i.vl
  s.readThen c [(64 * vxAddr i.w, n)] i.ecc fun s1 =>
  s1.updVxe c (fun v => v.setBytes (vxVD i.w) 0 (s1.spadRead c (64 * vxAddr i.w) n))

/-- VX.ST (R103). -/
def vxRunSt (s : State) (c : Nat) (i : VxItem) : State :=
  s.spadWrite c (64 * vxAddr i.w) ((s.core c).vxe.bytes (vxVA i.w) 0 (fmtBytes (vxFmt i.w) i.vl))

/-- VX.STT: the rows of VA transposed, as an A operand panel (R103). -/
def vxRunStt (s : State) (c : Nat) (i : VxItem) : State :=
  let f := vxFmt i.w
  let es := fmtBits f / 8
  let p := if vxPr i.w then 64 else 128
  let v := (s.core c).vxe
  s.forEach (List.range i.vl) (fun s k =>
    s.spadWrite c (64 * vxAddr i.w + (k % i.rlen * p + vxCount i.w + k / i.rlen) * es)
      (v.bytes (vxVA i.w) (k * es) es))

/-- One entry of the hand-off queue into VD and its sideband into VB (R108). With VD = VB each entry's sideband is written after its data
(DESIGN CHOICE, log 68). -/
def vxPopOne (s : State) (c : Nat) (i : VxItem) : State :=
  let k := s.core c
  let e := k.vxe.popped
  let ent := k.mxe.hq.headD []
  let n := fmtBytes (vxFmt i.w) 96
  (s.updMxe c (fun m => { m with hq := m.hq.drop 1 })).updVxe c (fun v =>
    { (v.setBytes (vxVD i.w) (n * e) (slice ent 0 n)).setBytes (vxVB i.w) (16 * e) (slice ent 384 16) with
      popped := e + 1 })

/-- Element-wise arithmetic: ADD, SUB, MUL, MAX, MIN (R101). -/
def vxRunBin (s : State) (c : Nat) (i : VxItem) : State :=
  let v := (s.core c).vxe
  let f := vxFmt i.w
  let b := v.operand (vxBmode i.w) (vxVB i.w) (vxBpos i.w) f i.vl i.rlen i.w.w3.toNat
  s.vxDone c (vxVD i.w) f (((v.elems (vxVA i.w) f i.vl).zip b).map (fun p => vxBin (cmdOp i.w) i.strict f p.1 p.2))

/-- VX.FMA (R101). -/
def vxRunFma (s : State) (c : Nat) (i : VxItem) : State :=
  let v := (s.core c).vxe
  let b := v.operand (vxBmode i.w) (vxVB i.w) (vxBpos i.w) cFP32 i.vl i.rlen i.w.w3.toNat
  let d := v.operand (vxCmode i.w) (vxVC i.w) (vxCpos i.w) cFP32 i.vl i.rlen i.w.w3.toNat
  s.vxDone c (vxVD i.w) cFP32 (((v.elems (vxVA i.w) cFP32 i.vl).zip (b.zip d)).map (fun p =>
    fmaV i.strict cFP32 (decodeF cFP32 p.1) (decodeF cFP32 p.2.1) (decodeF cFP32 p.2.2)))

/-- VX.CVT (R38, R104). -/
def vxRunCvt (s : State) (c : Nat) (i : VxItem) : State :=
  let v := (s.core c).vxe
  s.vxDone c (vxVD i.w) (vxOfmt i.w)
    ((v.elems (vxVA i.w) (vxFmt i.w) i.vl).map (cvt i.strict (vxFmt i.w) (vxOfmt i.w)))

/-- VX.QNT: automatic group scales to VB (R44, R104). With VD = VB the scales are written last (DESIGN CHOICE, log 68). -/
def vxRunQnt (s : State) (c : Nat) (i : VxItem) : State :=
  let v := (s.core c).vxe
  let gs := (chunks (rqLen (vxGrp i.w)) i.vl (v.elems (vxVA i.w) cFP32 i.vl)).map (quantGroup i.strict (vxOfmt i.w))
  let s' := s.updVxe c (fun v => (v.setElems (vxVD i.w) (vxOfmt i.w) (gs.flatMap (fun g => g.2.1))).setElems
    (vxVB i.w) cBF16 (gs.map (fun g => g.1)))
  s'.vxFlags c (orFlags (gs.map (fun g => g.2.2)))

/-- VX.DQNT (R42, R104). -/
def vxRunDqnt (s : State) (c : Nat) (i : VxItem) : State :=
  let v := (s.core c).vxe
  let g := rqLen (vxGrp i.w)
  let sc := v.elems (vxVB i.w) cBF16 (cdiv i.vl g)
  s.vxDone c (vxVD i.w) cFP32 (((List.range i.vl).zip (v.elems (vxVA i.w) (vxFmt i.w) i.vl)).map (fun p =>
    dequant i.strict (vxFmt i.w) p.2 (sc.getD (p.1 / g) 0)))

/-- RSUM and RMAX: each row by a balanced tree into its row word (R102). -/
def vxRunRow (s : State) (c : Nat) (i : VxItem) : State :=
  let v := (s.core c).vxe
  let f := vxFmt i.w
  let int := decide (f = cINT32)
  let op := fun a b =>
    if cmdOp i.w = 0x14 then addF i.strict cFP32 a b
    else if int then vxBin 0x0B i.strict cINT32 a b else maxMinF i.strict true cFP32 a b
  let rs := (chunks i.rlen i.vl (v.elems (vxVA i.w) f i.vl)).map (fun row =>
    let ws := row.map (fun x => if int then (x, 0) else widen i.strict f x)
    let t := pairTree op 12 (ws.map Prod.fst)
    (t.1.headD 0, orFlags (ws.map Prod.snd) ||| t.2))
  let s' := s.updVxe c (fun v => ((List.range rs.length).zip rs).foldl
    (fun v p => v.setWord (vxVD i.w) (4 * p.1 + vxCpos i.w) p.2.1) v)
  s'.vxFlags c (orFlags (rs.map Prod.snd))

/-- VX.FN: the SFU's table on each element; flags to the SFU (R116, R117). -/
def vxRunFn (s : State) (c : Nat) (i : VxItem) : State :=
  let k := s.core c
  let xs := (k.vxe.elems (vxVA i.w) (vxFmt i.w) i.vl).map
    (evalFn (k.sfu.word (vxFn i.w)) (k.sfu.word 0) i.strict (vxFmt i.w) (vxOfmt i.w))
  let s' := s.updVxe c (fun v => v.setElems (vxVD i.w) (vxOfmt i.w) (xs.map Prod.fst))
  if h : c < 136 then s'.raiseFlags (.sfu ⟨c, h⟩) (orFlags (xs.map Prod.snd)) else s'

/-- VX.WELF (R109). -/
def vxRunWelf (s : State) (c : Nat) (i : VxItem) : State :=
  let v := (s.core c).vxe
  let rs := ((v.triple (vxVD i.w) i.vl).zip (v.elems (vxVA i.w) (vxFmt i.w) i.vl)).map (fun p =>
    let x := widen i.strict (vxFmt i.w) p.2
    let t := welf i.strict p.1 x.1
    if 2 ^ 31 - 1 ≤ p.1.1 then t else (t.1, x.2 ||| t.2))
  (s.updVxe c (fun v => v.setTriple (vxVD i.w) (rs.map Prod.fst))).vxFlags c (orFlags (rs.map Prod.snd))

/-- VX.WMRG (R110). -/
def vxRunWmrg (s : State) (c : Nat) (i : VxItem) : State :=
  let v := (s.core c).vxe
  let rs := ((v.triple (vxVD i.w) i.vl).zip (v.triple (vxVA i.w) i.vl)).map (fun p => wmrg i.strict p.1 p.2)
  (s.updVxe c (fun v => v.setTriple (vxVD i.w) (rs.map Prod.fst))).vxFlags c (orFlags (rs.map Prod.snd))

/-- VX.WRED: each row's triples merged into its first position (R111). -/
def vxRunWred (s : State) (c : Nat) (i : VxItem) : State :=
  let v := (s.core c).vxe
  let rs := (chunks i.rlen i.vl (v.triple (vxVD i.w) i.vl)).map (fun row => pairTree (wmrg i.strict) 12 row)
  let s' := s.updVxe c (fun v => ((List.range rs.length).zip rs).foldl (fun v p =>
    match p.2.1 with
    | t :: _ => ((v.setWord (vxVD i.w) (p.1 * i.rlen) t.1).setWord (vxVD i.w + 1) (p.1 * i.rlen) t.2.1).setWord
        (vxVD i.w + 2) (p.1 * i.rlen) t.2.2
    | [] => v) v)
  s'.vxFlags c (orFlags (rs.map Prod.snd))

/-- VX.WFIN (R112). -/
def vxRunWfin (s : State) (c : Nat) (i : VxItem) : State :=
  let v := (s.core c).vxe
  s.vxDone c (vxVD i.w) cFP32 ((v.triple (vxVA i.w) i.vl).map (wfin i.strict (if vxDivsel i.w then 1 else 0)))

/-- One instruction other than VX.HQPOP and VX.SETVL; with VL = 0 nothing changes (R92). -/
def vxRunOne (s : State) (c : Nat) (i : VxItem) : State :=
  if i.vl = 0 then s
  else
    match cmdOp i.w with
    | 0x02 => vxRunLd s c i
    | 0x03 => vxRunSt s c i
    | 0x04 => vxRunStt s c i
    | 0x08 => vxRunBin s c i
    | 0x09 => vxRunBin s c i
    | 0x0A => vxRunBin s c i
    | 0x0B => vxRunBin s c i
    | 0x0C => vxRunBin s c i
    | 0x0D => vxRunFma s c i
    | 0x10 => vxRunCvt s c i
    | 0x11 => vxRunQnt s c i
    | 0x12 => vxRunDqnt s c i
    | 0x14 => vxRunRow s c i
    | 0x15 => vxRunRow s c i
    | 0x18 => vxRunFn s c i
    | 0x20 => vxRunWelf s c i
    | 0x21 => vxRunWmrg s c i
    | 0x22 => vxRunWred s c i
    | 0x23 => vxRunWfin s c i
    | _ => s

/-! The pipes (R94, R95). -/

/-- The pipe of an instruction, by its bit in VXE_STAT: 0 LANE, 1 SFU, 2 STAT, 3 MEM (R94, R107). -/
def vxPipe (w : Cmd) : Nat :=
  let op := cmdOp w
  if op ≤ 0x05 then 3 else if op = 0x18 then 1 else if 0x20 ≤ op then 2 else 0

/-- The chunks of a register that its first `n` bytes touch, as numbers register * 8 + chunk (R95). -/
def regChunks (r n : Nat) : List Nat := (List.range (min 8 (cdiv n 512))).map (fun k => r % 32 * 8 + k)

/-- The chunks that operand B or C reads (R98). -/
def operandChunks (mode r f vl rlen : Nat) : List Nat :=
  match mode with
  | 0 => regChunks r (fmtBytes f vl)
  | 1 => regChunks r (16 * cdiv vl rlen)
  | 2 => []
  | _ => regChunks r 1

/-- The chunks of a Welford triple. -/
def tripleChunks (r vl : Nat) : List Nat := (List.range 3).flatMap (fun k => regChunks (r + k) (4 * vl))

/-- The chunks that an instruction reads, and those that it writes; of a VX.HQPOP, those of the entries still to come. -/
def vxReads (i : VxItem) : List Nat :=
  let w := i.w
  let f := vxFmt w
  let a := regChunks (vxVA w) (fmtBytes f i.vl)
  if i.vl = 0 then []
  else
    match cmdOp w with
    | 0x02 => []
    | 0x05 => []
    | 0x0D => a ++ operandChunks (vxBmode w) (vxVB w) cFP32 i.vl i.rlen ++ operandChunks (vxCmode w) (vxVC w) cFP32 i.vl i.rlen
    | 0x12 => a ++ regChunks (vxVB w) (2 * cdiv i.vl (rqLen (vxGrp w)))
    | 0x20 => a ++ tripleChunks (vxVD w) i.vl
    | 0x21 => tripleChunks (vxVA w) i.vl ++ tripleChunks (vxVD w) i.vl
    | 0x22 => tripleChunks (vxVD w) i.vl
    | 0x23 => tripleChunks (vxVA w) i.vl
    | op => if 0x08 ≤ op ∧ op ≤ 0x0C then a ++ operandChunks (vxBmode w) (vxVB w) f i.vl i.rlen else a

def vxWrites (i : VxItem) (popped : Nat) : List Nat :=
  let w := i.w
  let f := vxFmt w
  if cmdOp w = 0x05 then
    let n := fmtBytes f 96
    (regChunks (vxVD w) (n * vxCount w)).filter (fun k => decide (n * popped < (k % 8 + 1) * 512)) ++
      (regChunks (vxVB w) (16 * vxCount w)).filter (fun k => decide (16 * popped < (k % 8 + 1) * 512))
  else if i.vl = 0 then []
  else
    match cmdOp w with
    | 0x03 => []
    | 0x04 => []
    | 0x10 => regChunks (vxVD w) (fmtBytes (vxOfmt w) i.vl)
    | 0x11 => regChunks (vxVD w) (fmtBytes (vxOfmt w) i.vl) ++ regChunks (vxVB w) (2 * cdiv i.vl (rqLen (vxGrp w)))
    | 0x12 => regChunks (vxVD w) (4 * i.vl)
    | 0x14 => regChunks (vxVD w) (16 * cdiv i.vl i.rlen)
    | 0x15 => regChunks (vxVD w) (16 * cdiv i.vl i.rlen)
    | 0x18 => regChunks (vxVD w) (fmtBytes (vxOfmt w) i.vl)
    | 0x20 => tripleChunks (vxVD w) i.vl
    | 0x21 => tripleChunks (vxVD w) i.vl
    | 0x22 => tripleChunks (vxVD w) i.vl
    | 0x23 => regChunks (vxVD w) (4 * i.vl)
    | _ => regChunks (vxVD w) (fmtBytes f i.vl)

/-- Must an instruction wait for one issued before it: does it read or write what that writes, or write what that reads (R95)? -/
def vxAfter (popped : Nat) (i e : VxItem) : Bool :=
  let ew := vxWrites e popped
  (vxReads i).any (fun k => ew.contains k) || (vxWrites i popped).any (fun k => ew.contains k || (vxReads e).contains k)

/-- The first instruction of the pipes that can work now: a VX.HQPOP with an entry to take or none left, any other that waits for no
earlier one. `before` are the earlier ones. -/
def vxReady (hq popped : Nat) : List VxItem → List VxItem → Option VxItem
  | _, [] => none
  | earlier, i :: rest =>
    let go := if cmdOp i.w = 0x05 then decide (vxCount i.w ≤ popped ∨ hq ≠ 0) && !earlier.any (vxAfter popped i)
      else !earlier.any (vxAfter popped i)
    if go then some i else vxReady hq popped (earlier ++ [i]) rest

/-- The VXE goes on as far as it can: an instruction in a pipe that waits for no earlier one is executed, a VX.HQPOP entry by entry as
entries come, and the first waiting instruction enters its pipe when that is free (R94, R95, R108). An instruction is executed whole
(DESIGN CHOICE, log 12). `fuel` bounds the steps. -/
def State.vxRun : Nat → State → Nat → State
  | 0, s, _ => s
  | fuel + 1, s, c =>
    let k := s.core c
    let v := k.vxe
    if k.vxePaused || !s.clkOn c 2 then s
    else
      match vxReady k.mxe.hq.length v.popped [] v.pipes with
      | some i =>
        if cmdOp i.w = 0x05 then
          if vxCount i.w ≤ v.popped then State.vxRun fuel (s.updVxe c (fun v => { v with pipes := v.pipes.erase i, popped := 0 })) c
          else State.vxRun fuel (vxPopOne s c i) c
        else State.vxRun fuel (vxRunOne (s.updVxe c (fun v => { v with pipes := v.pipes.erase i })) c i) c
      | none =>
        match v.q with
        | [] => s
        | i :: rest =>
          if v.pipes.any (fun x => decide (vxPipe x.w = vxPipe i.w)) then s
          else State.vxRun fuel (s.updVxe c (fun v => { v with pipes := v.pipes ++ [i], q := rest })) c

/-- Fuel enough for a full queue and a full hand-off queue. -/
def vxFuel : Nat := 200

/-- The state faults of R106 with the VL and RLEN in force. The row words of RSUM and RMAX on BF16 and FP16, and the scales of QNT and
DQNT, are not written VL times, and do not count as a format of VL elements (DESIGN CHOICE, log 68). -/
def vxBad (k : CoreSt) (w : Cmd) : Bool :=
  let vl := k.vxe.vl
  let rlen := k.vxe.rlen
  let op := cmdOp w
  let big := fun f => decide (4096 * 8 < vl * fmtBits f)
  let g := rqLen (vxGrp w)
  let rows := cdiv vl rlen
  let rowMode := (decide (0x08 ≤ op ∧ op ≤ 0x0D)) && (decide (vxBmode w = 1) || (decide (op = 0x0D) && decide (vxCmode w = 1)))
  let p := if vxPr w then 64 else 128
  if op = 0x01 then false
  else if op = 0x05 then !cfgRoute k.mxe.cfg
  else
    big (vxFmt w) ||
    ((decide (op = 0x10) || decide (op = 0x11) || decide (op = 0x12) || decide (op = 0x18)) && big (vxOfmt w)) ||
    (decide (0x20 ≤ op) && big cFP32) ||
    ((decide (op = 0x14) || decide (op = 0x15) || decide (op = 0x04) || decide (op = 0x22) || rowMode) && decide (256 < rows)) ||
    ((decide (op = 0x11) || decide (op = 0x12)) && decide (vl % g ≠ 0)) ||
    ((decide (op = 0x02) || decide (op = 0x03)) && decide (vxFmt w = cINT4) && decide (vl % 2 = 1)) ||
    (decide (op = 0x04) && (decide (p < vxCount w + rows) || decide (p < rlen))) ||
    (decide (op = 0x18) && (!k.sfu.slotValid (vxFn w) || !omaxOk (tOmax (k.sfu.word (vxFn w))) (vxOfmt w)))

/-- Is the VXE's issue queue of 32 full behind the pipes (R140)? -/
def vxFull (k : CoreSt) : Bool := decide (32 ≤ k.vxe.q.length)

/-- Issue of a VXE instruction: the checks of R105, R162, R106, and then its place in the VXE. -/
def State.vxIssue (s : State) (c : Nat) (w : Cmd) (op : Nat) (ecc : List (Nat × Ecc)) : State :=
  let k := s.core c
  s.issue c w 2 op (vxMal w k.vxe.vl k.vxe.rlen) (!s.clkOn c 2) (vxBad k w) (vxFull k) (fun s =>
    let strict := s.strictOf c
    (s.updVxe c (fun v => { v with q := v.q ++ [{ w := w, strict := strict, vl := v.vl, rlen := v.rlen, ecc := ecc }] })).vxRun
      vxFuel c)

/-- VX.SETVL completes at issue (R91, R94). -/
def execVxSetvl (c : Fin 136) (w : Cmd) (s : State) : Host.Outcome State Fault Refusal :=
  let k := s.core c
  .next (s.issue c w 2 0x01 (vxMal w k.vxe.vl k.vxe.rlen) (!s.clkOn c 2) false (vxFull k) (fun s =>
    s.updVxe c (fun v => { v with vl := vxVl w, rlen := vxRlen w })))

/-- VX.LD; `ecc` is what the scratchpad words show when they are read (R103, R187). -/
def execVxLd (c : Fin 136) (w : Cmd) (ecc : List (Nat × Ecc)) (s : State) : Host.Outcome State Fault Refusal :=
  .next (s.vxIssue c w 0x02 ecc)
/-- VX.ST (R103). -/
def execVxSt (c : Fin 136) (w : Cmd) (s : State) : Host.Outcome State Fault Refusal := .next (s.vxIssue c w 0x03 [])
/-- VX.STT (R103). -/
def execVxStt (c : Fin 136) (w : Cmd) (s : State) : Host.Outcome State Fault Refusal := .next (s.vxIssue c w 0x04 [])
/-- VX.HQPOP (R108). -/
def execVxHqpop (c : Fin 136) (w : Cmd) (s : State) : Host.Outcome State Fault Refusal := .next (s.vxIssue c w 0x05 [])

/-- An entry reaches a waiting VX.HQPOP (R108). -/
def execHqpopEntryArrive (c : Fin 136) (s : State) : Host.Outcome State Fault Refusal := .next (s.vxRun vxFuel c)

/-- VX.ADD (R101). -/
def execVxAdd (c : Fin 136) (w : Cmd) (s : State) : Host.Outcome State Fault Refusal := .next (s.vxIssue c w 0x08 [])
/-- VX.SUB (R101). -/
def execVxSub (c : Fin 136) (w : Cmd) (s : State) : Host.Outcome State Fault Refusal := .next (s.vxIssue c w 0x09 [])
/-- VX.MUL (R101). -/
def execVxMul (c : Fin 136) (w : Cmd) (s : State) : Host.Outcome State Fault Refusal := .next (s.vxIssue c w 0x0A [])
/-- VX.MAX (R101). -/
def execVxMax (c : Fin 136) (w : Cmd) (s : State) : Host.Outcome State Fault Refusal := .next (s.vxIssue c w 0x0B [])
/-- VX.MIN (R101). -/
def execVxMin (c : Fin 136) (w : Cmd) (s : State) : Host.Outcome State Fault Refusal := .next (s.vxIssue c w 0x0C [])
/-- VX.FMA (R101). -/
def execVxFma (c : Fin 136) (w : Cmd) (s : State) : Host.Outcome State Fault Refusal := .next (s.vxIssue c w 0x0D [])
/-- VX.CVT (R104). -/
def execVxCvt (c : Fin 136) (w : Cmd) (s : State) : Host.Outcome State Fault Refusal := .next (s.vxIssue c w 0x10 [])
/-- VX.QNT (R104). -/
def execVxQnt (c : Fin 136) (w : Cmd) (s : State) : Host.Outcome State Fault Refusal := .next (s.vxIssue c w 0x11 [])
/-- VX.DQNT (R104). -/
def execVxDqnt (c : Fin 136) (w : Cmd) (s : State) : Host.Outcome State Fault Refusal := .next (s.vxIssue c w 0x12 [])
/-- VX.RSUM (R102). -/
def execVxRsum (c : Fin 136) (w : Cmd) (s : State) : Host.Outcome State Fault Refusal := .next (s.vxIssue c w 0x14 [])
/-- VX.RMAX (R102). -/
def execVxRmax (c : Fin 136) (w : Cmd) (s : State) : Host.Outcome State Fault Refusal := .next (s.vxIssue c w 0x15 [])
/-- VX.FN (R116). -/
def execVxFn (c : Fin 136) (w : Cmd) (s : State) : Host.Outcome State Fault Refusal := .next (s.vxIssue c w 0x18 [])
/-- VX.WELF (R109). -/
def execVxWelf (c : Fin 136) (w : Cmd) (s : State) : Host.Outcome State Fault Refusal := .next (s.vxIssue c w 0x20 [])
/-- VX.WMRG (R110). -/
def execVxWmrg (c : Fin 136) (w : Cmd) (s : State) : Host.Outcome State Fault Refusal := .next (s.vxIssue c w 0x21 [])
/-- VX.WRED (R111). -/
def execVxWred (c : Fin 136) (w : Cmd) (s : State) : Host.Outcome State Fault Refusal := .next (s.vxIssue c w 0x22 [])
/-- VX.WFIN (R112). -/
def execVxWfin (c : Fin 136) (w : Cmd) (s : State) : Host.Outcome State Fault Refusal := .next (s.vxIssue c w 0x23 [])

end Sys2Proof.Machine
end

