-- ==== Sys2Proof/Machine/Schedule.lean ====
section
/-! DEFINITION. The schedule image: the checks of a load (R125 to R131, R159, R224), its commit (R132), start, stop and
the placement epoch (R134 to R137, R175). -/

namespace Sys2Proof.Machine

/-- What a write to an object does once its access and length are in order (R412): refused as INVALID, refused as STATE,
or taking effect. `rej` is what a refusal leaves, where it leaves a result code (R339, R357, R487). -/
structure Act where
  inv : Bool := false
  bad : Bool := false
  rej : Option State := none
  eff : State
deriving DecidableEq, Repr

/-! Function tables. -/

def State.updSfu (s : State) (c : Nat) (f : SfuSt → SfuSt) : State := s.updCore c (fun k => { k with sfu := f k.sfu })

/-- Word `k` of FN_STAGE. -/
def stageWord (st : SMap Byte) (k : Nat) : Word := BitVec.ofNat 32 (ofLe (st.gets 0 (4 * k) 4))

/-- The check of a staged table (R121). -/
def stageCheck (st : SMap Byte) : Nat := fnCheck (stageWord st) (shippedWord 0)

/-- Commit FN_STAGE into a loadable slot: the header and its N entries (R120). -/
def SfuSt.commit (u : SfuSt) (f : Nat) : SfuSt :=
  let n := 16 + 8 * tN (stageWord u.stage)
  { u with tables := u.tables.sets 0 (f * 4096) ((List.range n).map (stageWord u.stage)),
           valid := u.valid ||| BitVec.ofNat 8 (2 ^ (f - 8)) }

/-! The image's header and sections. -/

/-- An image header (R125). -/
structure Hdr where
  w : List Word
deriving DecidableEq, Repr

def Hdr.word (h : Hdr) (i : Nat) : Word := h.w.getD i 0
def Hdr.ver (h : Hdr) : Nat := fld (h.word 1) 31 24
def Hdr.nsec (h : Hdr) : Nat := fld (h.word 1) 15 8
def Hdr.nentry (h : Hdr) : Nat := fld (h.word 1) 7 0
def Hdr.len (h : Hdr) : Nat := (h.word 2).toNat
def Hdr.logn (h : Hdr) : Nat := fld (h.word 3) 31 24
def Hdr.logBase (h : Hdr) : Nat := (h.word 4).toNat + fld (h.word 5) 7 0 * 2 ^ 32

def State.hdrAt (s : State) (off : Nat) : Hdr := { w := wordsLe 32 (s.peek off 128) }

/-- Bytes of a segment-log area (R171). -/
def logBytes (logn : Nat) : Nat := 136 * 2 ^ logn * 32

/-- HEADER (R131). -/
def hdrBad (h : Hdr) (off : Nat) : Bool :=
  decide (off % 64 ≠ 0) || decide (hbmTop < off + 128) || decide (h.word 0 ≠ 0x4C514B33) || decide (fld (h.word 3) 23 0 ≠ 0) ||
  decide (fld (h.word 5) 31 8 ≠ 0) || decide (h.word 6 ≠ 0) || decide (h.word 7 ≠ 0) ||
  (h.w.drop 16).any (fun x => decide (x ≠ 0)) || decide (h.len % 64 ≠ 0) || decide (hbmTop < off + h.len) ||
  decide (h.nsec = 0) || decide (h.nentry = 0) || decide (16 < h.nentry) || decide (h.len < 128 + 16 * h.nsec) ||
  (decide (h.ver = 3) && decide (h.logn ≠ 0) &&
    (decide (h.logn < 4) || decide (16 < h.logn) || decide (h.logBase % 64 ≠ 0) || decide (hbmTop < h.logBase + logBytes h.logn)))

/-- The four words of section-table entry `i` (R127). -/
def State.secWords (s : State) (off i : Nat) : List Word := wordsLe 4 (s.peek (off + 128 + 16 * i) 16)

/-- A section-table entry with its fields: a module-wide section has core number 136. -/
def secOf (w : List Word) : Section :=
  let a := w.getD 0 0
  { typ := fld a 31 24, core := if fld a 12 7 = 0x3F then 136 else fld a 15 13 * 34 + fld a 12 7, sub := fld a 6 0,
    off := (w.getD 1 0).toNat, len := (w.getD 2 0).toNat }

/-- VERSION (R126, R131). -/
def verBad (h : Hdr) (tbl : List (List Word)) : Bool :=
  decide (h.ver = 0 ∨ 3 < h.ver) || (decide (h.ver < 3) && (decide (h.logn ≠ 0) || decide (h.logBase ≠ 0))) ||
  tbl.any (fun w => decide (fld (w.getD 0 0) 23 16 = 0 ∨ 3 < fld (w.getD 0 0) 23 16))

/-- DIGEST, and the list of a loaded job (R125, R131, R453). -/
def State.digestBad (s : State) (h : Hdr) (off : Nat) : Bool :=
  let bs := s.peek off h.len
  let want := (bs.drop 32).take 32
  decide (digest (bs.take 32 ++ List.replicate 32 0 ++ bs.drop 64) ≠ want) ||
  (!s.jobKey.isEmpty && !(s.jobImages.any (fun p => p.2 = want)))

/-- The shape of one section by its type (R127 to R129, R217, R222). A LENGTH or SUB that does not fit the type has no code of its own in
R131: it is refused with SECTION (DESIGN CHOICE, log 68). -/
def State.secBad (s : State) (h : Hdr) (off : Nat) (w : List Word) : Bool :=
  let x := secOf w
  let a := w.getD 0 0
  let wide := x.typ = 4 ∨ x.typ = 5 ∨ x.typ = 7
  let bytes := fun (_ : Unit) => s.peek (off + x.off) x.len
  decide (w.getD 3 0 ≠ 0) || decide (x.typ = 0) || decide (7 < x.typ) || decide (x.off % 64 ≠ 0) || decide (h.len < x.off + x.len) ||
  decide (wide ∧ (fld a 15 13 ≠ 0 ∨ x.core ≠ 136 ∨ x.sub ≠ 0)) ||
  decide (¬ wide ∧ (3 < fld a 15 13 ∨ 33 < fld a 12 7)) ||
  (match x.typ with
    | 1 => decide (h.nentry ≤ x.sub)
    | 2 => decide (x.sub ≠ 0) || decide (x.len ≠ 16) || !allZero ((bytes ()).drop 8)
    | 3 => decide (x.sub < 8) || decide (15 < x.sub) || decide (x.len < 64) || decide (8256 < x.len)
    | 6 => decide (x.sub ≠ 0) || decide (x.len = 0) || decide (x.len % 64 ≠ 0) || decide (65536 < x.len)
    | 4 => decide (x.len % 64 ≠ 0) || (chunks 64 x.len (bytes ())).any (fun b =>
        let v := wordsLe 16 b
        decide (63 < (v.getD 0 0).toNat) || decide (v.getD 1 0 ≠ 0) || (v.drop 10).any (fun y => decide (y ≠ 0)) ||
        [3, 5, 7, 9].any (fun i => decide (fld (v.getD i 0) 31 2 ≠ 0)))
    | 5 => decide (x.len % 16 ≠ 0) || (chunks 16 x.len (bytes ())).any (fun b =>
        decide (leAt b 0 8 % 64 ≠ 0) || decide (hbmTop < leAt b 0 8 + 64))
    | _ => decide (x.len % 16 ≠ 0) || decide (65536 < x.len) || (chunks 16 x.len (bytes ())).any (fun b =>
        decide (leAt b 0 8 % 64 ≠ 0) || decide (hbmTop ≤ leAt b 0 8) || decide (leAt b 8 2 = 0) || decide (leAt b 10 2 = 0) ||
        decide (leAt b 12 4 = 0) || decide (3 < leAt b 12 4)))

/-- Do any two ranges of a list meet? -/
def anyOverlap : List (Nat × Nat) → Bool
  | [] => false
  | x :: xs => xs.any (fun y => overlap x.1 x.2 y.1 y.2) || anyOverlap xs

/-- Does a list hold an element twice? -/
def hasDup {α : Type} [DecidableEq α] : List α → Bool
  | [] => false
  | x :: xs => xs.contains x || hasDup xs

/-- Barrier numbers and the participants of each, as global core numbers (R129). -/
def State.barriersOf (s : State) (secs : List Section) (img : Nat) : List (Nat × List Nat) :=
  match secs.find? (fun x => x.typ = 4) with
  | none => []
  | some x => (chunks 64 x.len (s.peek (img + x.off) x.len)).map (fun b =>
      (leAt b 0 1, allCores.filter (fun c => (leAt b (8 + 8 * dieOf c) 8).testBit (logOf c))))

/-- Gate offsets and initial counts (R129). -/
def State.gatesOf (s : State) (secs : List Section) (img : Nat) : List (Nat × Nat) :=
  match secs.find? (fun x => x.typ = 5) with
  | none => []
  | some x => (chunks 16 x.len (s.peek (img + x.off) x.len)).map (fun b => (leAt b 0 8, leAt b 8 8))

/-- SECTION (R131). -/
def State.sectionBad (s : State) (h : Hdr) (off : Nat) (tbl : List (List Word)) : Bool :=
  let secs := tbl.map secOf
  let gates := s.gatesOf secs off
  tbl.any (fun w => s.secBad h off w) ||
  anyOverlap ((0, 128 + 16 * h.nsec) :: secs.map (fun x => (x.off, x.len))) ||
  hasDup (secs.map (fun x => (x.typ, x.core, x.sub))) || hasDup ((s.barriersOf secs off).map (fun b => b.1)) ||
  anyOverlap ((off, h.len) :: (if h.logn = 0 then [] else [(h.logBase, logBytes h.logn)]) ++ gates.map (fun g => (g.1, 64))) ||
  (List.range h.nentry).any (fun e => !(secs.any (fun x => decide (x.typ = 1 ∧ x.sub = e))))

/-! Commands. -/

/-- A core's CORECFG: MXE_CFG and CORE_CLKEN (R129). -/
def State.corecfg (s : State) (secs : List Section) (img c : Nat) : Option (Word × Word) :=
  (secs.find? (fun x => decide (x.typ = 2 ∧ x.core = c))).map (fun x =>
    let w := wordsLe 2 (s.peek (img + x.off) 8)
    (w.getD 0 0, w.getD 1 0))

/-- What the loader's static checks know of a stream as they walk it: bindings by slot, and for each open loop, innermost first, the
commands of its body onward with whether another pass is to be walked. -/
structure Walk where
  binds : SMap Slot := []
  loops : List (List Cmd × Bool) := []
deriving DecidableEq, Repr

/-- Is a command malformed by a check that does not depend on state at issue (R159)? The bindings are those of the
stream's MX.OPEN commands in order. -/
def State.cmdStatic (s : State) (secs : List Section) (img c : Nat) (cfg : Word) (bars : List (Nat × List Nat)) (k : Walk)
    (w : Cmd) : Bool :=
  let b := k.binds.get {} (mxSlot w)
  match cmdEng w with
  | 1 =>
    (match cmdOp w with
      | 1 => mxOpenMal cfg w
      | 2 => mxMacMal cfg (if b.st = 1 then some b else none) w
      | 3 => mxCloseMal cfg none w
      | 4 => mxMergeMal cfg w
      | _ => true)
  | 2 => vxMalStatic w
  | 3 => s.stIssueMal secs img c w
  | 4 => sqMal w k.loops.length ||
      (decide (cmdOp w = 5) && !(bars.any (fun x => decide (x.1 = sqBarid w) && x.2.contains c)))
  | _ => true

/-- Where the walk goes on after a command, and what it knows there. The body of a loop with more than one pass is walked twice: the
bindings that a pass leaves are the same from the first pass on, so later passes show nothing new. -/
def Walk.after (k : Walk) (w : Cmd) (ws : List Cmd) : List Cmd × Walk :=
  match cmdEng w, cmdOp w with
  | 1, 1 => (ws, { k with binds := k.binds.set {} (mxSlot w) (mxBind w false) })
  | 1, 3 => (ws, { k with binds := k.binds.set {} (mxSlot w) {} })
  | 4, 8 => (ws, { k with loops := (ws, decide (1 < w.w1.toNat)) :: k.loops })
  | 4, 9 =>
    match k.loops with
    | (body, true) :: ls => (body, { k with loops := (body, false) :: ls })
    | _ => (ws, { k with loops := k.loops.drop 1 })
  | _, _ => (ws, k)

/-- Some command of a stream fails in some pass of its loops, or its loops do not match (R159). With loops at most four deep a command is
walked at most sixteen times, which bounds the fuel. -/
def State.walkBad (s : State) (secs : List Section) (img c : Nat) (cfg : Word) (bars : List (Nat × List Nat)) :
    Nat → List Cmd → Walk → Bool
  | 0, _, _ => true
  | _, [], k => !k.loops.isEmpty
  | fuel + 1, w :: ws, k =>
    s.cmdStatic secs img c cfg bars k w ||
      (let r := k.after w ws
       s.walkBad secs img c cfg bars fuel r.1 r.2)

/-- Is a command the SEQ command `op`? -/
def isSq (op : Nat) (w : Cmd) : Bool := decide (cmdEng w = 4 ∧ cmdOp w = op)

/-- One command stream fails (R159). A LENGTH that is no multiple of 16 has no code of its own: it is refused with COMMAND (DESIGN CHOICE,
log 68). -/
def State.streamBad (s : State) (secs : List Section) (img : Nat) (bars : List (Nat × List Nat)) (x : Section) : Bool :=
  let cs := (chunks 16 x.len (s.peek (img + x.off) x.len)).map cmdOf
  let cfg := ((s.corecfg secs img x.core).map Prod.fst).getD 0
  decide (x.len % 16 ≠ 0) || !(cs.head?.any (isSq 1)) || !(cs.getLast?.any (isSq 10)) || s.walkBad secs img x.core cfg bars (16 * cs.length + 1) cs {}

/-- COMMAND (R131, R224): the streams and every descriptor. -/
def State.commandBad (s : State) (secs : List Section) (img : Nat) : Bool :=
  let bars := s.barriersOf secs img
  secs.any (fun x =>
    (decide (x.typ = 1) && s.streamBad secs img bars x) ||
    (decide (x.typ = 6) && (List.range (x.len / 64)).any (fun n =>
      match s.descAt secs img x.core n with
      | none => true
      | some d => s.descMal secs img x.core d || (decide (dLoop d = 0) && !s.rangesOk secs img d 0))))

/-- The first refused function table: core, slot, code (R121, R131). -/
def State.fnBad (s : State) (secs : List Section) (img : Nat) : Option (Nat × Nat × Nat) :=
  secs.findSome? (fun x =>
    if x.typ = 3 then
      let r := stageCheck (SMap.sets 0 [] 0 (s.peek (img + x.off) x.len))
      if r = 0 then none else some (x.core, x.sub, r)
    else none)

/-- CONFIG (R131): a core without CORECFG, a reserved bit, or a value that R69 or R169 would not apply. -/
def State.configBad (s : State) (secs : List Section) (img : Nat) : Bool :=
  secs.any (fun x =>
    (decide (x.typ = 1 ∨ x.typ = 3 ∨ x.typ = 6) && (s.corecfg secs img x.core).isNone) ||
    (match (if x.typ = 2 then s.corecfg secs img x.core else none) with
      | none => false
      | some (cfg, clk) =>
        decide (fld cfg 31 8 ≠ 0) || decide (fld cfg 3 1 ≠ 0) || decide (fld clk 31 5 ≠ 0) ||
        (!bit clk 4 && decide (fld clk 3 1 ≠ 0)) || decide (3 < cfgPart cfg) || (decide (cfgPart cfg ≠ 0) && !isWide x.core)))

/-- The reads of an image that a load makes, with the NORMAL hint (R193): its header, and all of it once the header is in order; false when
some sector is poisoned (log 14). -/
def State.imageRead (s : State) (off : Nat) : State × Bool :=
  let h := s.hdrAt off
  if hbmTop < off + 128 then (s, true)
  else
    let r := s.devRead off (if hdrBad h off then 128 else h.len)
    (r.1, r.2.isSome)

/-- The outcome of a load (R131) with, for FNTABLE, the core, slot and code of the refusal. -/
def State.loadCheck (s : State) (off : Nat) : Nat × Option (Nat × Nat × Nat) :=
  let h := s.hdrAt off
  let tbl := (List.range h.nsec).map (fun i => s.secWords off i)
  let secs := tbl.map secOf
  if hdrBad h off then (1, none)
  else if verBad h tbl then (2, none)
  else if fld (h.word 1) 23 16 ≠ 3 then (3, none)
  else if s.digestBad h off then (4, none)
  else if s.sectionBad h off tbl then (5, none)
  else if s.commandBad secs off then (6, none)
  else
    match s.fnBad secs off with
    | some x => (7, some x)
    | none => if s.configBad secs off then (8, none) else (0, none)

/-! Commit. -/

/-- Fill a range of local HBM with zero, past the slices: lines and poison entries of the range go. -/
def State.zeroRange (s : State) (o n : Nat) : State :=
  let inR := fun st a => decide (o ≤ s.offsetOf st a ∧ s.offsetOf st a < o + n)
  { s with mem := { s.mem with
    hbm := s.mem.hbm.drop (fun k => inR (k / 2 ^ 40) (k % 2 ^ 40)),
    regions := s.mem.regions.mapV {} (fun r g => { g with
      sets := g.sets.mapV [] (fun _ ls => ls.filter (fun l => !inR r (l.tag * 64))),
      poison := g.poison.filter (fun a => !inR r a) }),
    errs := s.mem.errs.drop (fun k => inR (k / 2 ^ 40) (k % 2 ^ 40)) } }

/-- CORE_CLKEN takes a value; a clear that waited for an engine takes effect when it comes on (R53, R168). -/
def State.setClken (s : State) (c : Nat) (v : BitVec 5) : State :=
  let old := (s.core c).clken
  let s1 := s.updCore c (fun k => { k with clken := v })
  if h : c < 136 then
    let on := fun i => v.getLsbD i && !old.getLsbD i
    let s2 := if on 1 then s1.flagEnable (.mxe ⟨c, h⟩) else s1
    if on 2 then (s2.flagEnable (.vxe ⟨c, h⟩)).flagEnable (.sfu ⟨c, h⟩) else s2
  else s1

/-- Steps 1 and 2 of R132 on a core. -/
def resetEngines (k : CoreSt) : CoreSt :=
  { k with mxe := { k.mxe with slots := [], arrQ := [], drains := [], hq := [] },
           vxe := { k.vxe with v := [], vl := 0, rlen := 96, pipes := [], q := [], popped := 0 },
           ste := { k.ste with q := [], slots := [], resp := [] } }

/-- R132 on one core of the image. FN_STAGE takes the section with zeros past its end, as the check has read it: a section shorter than the
table that its header announces leaves no byte of an earlier table (DESIGN CHOICE, log 68). -/
def State.commitCore (s : State) (secs : List Section) (img c : Nat) (cfg clk : Word) : State :=
  let s1 := s.updCore c (fun k => resetEngines { k with sfu := { k.sfu with valid := 0 }, seq := { k.seq with seqno := 0 } })
  let s2 := s1.forEach (secs.filter (fun x => decide (x.typ = 3 ∧ x.core = c))) (fun s x => s.updSfu c (fun u =>
    ({ u with stage := SMap.sets 0 [] 0 (s.peek (img + x.off) x.len), lastSlot := x.sub, result := 0 }).commit x.sub))
  (s2.setClken c (BitVec.ofNat 5 (fld clk 4 0))).updCore c (fun k => { k with mxe := { k.mxe with cfg := cfg } })

/-- Every core takes what the image configures for it, or loses its clocks; STE_ERR is cleared on each (R238). -/
def State.commitCores (s : State) (secs : List Section) (off : Nat) : State :=
  s.forEach allCores (fun s c =>
    (match s.corecfg secs off c with
      | some (cfg, clk) => s.commitCore secs off c cfg clk
      | none => s.setClken c 0).updCore c (fun k => { k with ste := { k.ste with err := 0 } }))

/-- The hub that serves every barrier from a load on, when the other is fenced then (R154, R156). -/
def State.servingHub (s : State) : Option Nat := if (s.hub 0).fenced then some 1 else if (s.hub 1).fenced then some 0 else none

/-- R132 on every core, gate, barrier and the segment log. -/
def State.commitImage (s : State) (off : Nat) : State :=
  let h := s.hdrAt off
  let secs := (List.range h.nsec).map (fun i => secOf (s.secWords off i))
  let bars := s.barriersOf secs off
  let gates := s.gatesOf secs off
  let s1 := s.commitCores secs off
  let s2 := s1.forEach gates (fun s g => s.devWrite g.1 (leBytes 8 g.2))
  let s3 : State := { s2 with bars := bars.foldl (fun m b => m.set {} b.1 { mask := b.2 }) [] }
  let s4 := if h.logn = 0 then s3 else s3.zeroRange h.logBase (logBytes h.logn)
  { s4 with sched := { s4.sched with nentry := h.nentry, logn := h.logn, logBase := h.logBase, imgOff := off, imgLen := h.len,
                                     secs := secs, digest := (s.peek off 64).drop 32, entry := 0, barHub := s.servingHub } }

/-! Actions. -/

/-- Is the image in a state from which it may be loaded or started (R134)? -/
def schedIdle (st : Nat) : Bool := decide (st = 2 ∨ st = 4 ∨ st = 6 ∨ st = 7)

/-- The held image is discarded, and both hubs' tables with it (R131, R311). -/
def State.discardImage (s : State) : State :=
  let clear := fun (k : CollSt) => { k with table := [], queue := [], prog := [], own := [], acc := [], st := 0, index := 0 }
  let s1 : State := { s with bars := [], sched := { s.sched with secs := [], nentry := 0, logn := 0, digest := [], imgLen := 0 } }
  (s1.updColl 0 clear).updColl 1 clear

/-- LoadSchedule (R131, R134): the image held goes, and the start of the load marks the loadable function tables invalid (R113). -/
def actLoad (s : State) (off : Nat) : Act :=
  { bad := !(decide (s.sched.st = 0) || schedIdle s.sched.st),
    eff := let s1 := s.discardImage.forEach allCores (fun s c => s.updSfu c (fun u => { u with valid := 0 }))
           ({ s1 with sched := { s1.sched with loadOff := off } }).setSched 1 }

/-- The checks of a load end: the image is committed, or refused and the image is EMPTY (R131 to R133). A load goes through FN_STAGE and
FN_LOAD, so it waits for a check that is running (R121, R132). An image that could not be read has no digest: it is refused with
DIGEST (log 14). -/
def execLoadComplete (s0 : State) : Host.Outcome State Fault Refusal :=
  if s0.sched.st ≠ 1 ∨ s0.clock.lost = true ∨ (allCores.any (fun c => (s0.core c).sfu.checking.isSome)) = true then .next s0
  else
    let off := s0.sched.loadOff
    let s := (s0.imageRead off).1
    let r0 := s.loadCheck off
    let r := if (s0.imageRead off).2 || decide (r0.1 ≠ 0 ∧ r0.1 < 4) then r0 else (4, none)
    let s1 : State := { s with sched := { s.sched with loadResult := r.1 } }
    if r.1 = 0 then .next ((s1.commitImage off).setSched 2)
    else
      let s2 := match r.2 with
        | some (c, slot, code) => s1.updSfu c (fun u => { u with lastSlot := slot, result := code })
        | none => s1
      .next (s2.setSched 0)

/-- One SEQ starts at byte 0 of its stream (R135). -/
def startSeq (e base len tsc : Nat) (q : SeqSt) : SeqSt :=
  { q with st := 1, fcode := 0, waitk := 0, entry := e, pc := 0, base := base, len := len, loops := [], cmd := none, seg := none,
           lastIssue := tsc, stallPosted := false, buf := [] }

/-- A collective sequencer at a start (R312). -/
def collStart (e : Nat) (k : CollSt) : CollSt := collNext { k with queue := collEntries k.table e }

/-- StartSchedule (R134, R135). An entry at or above NENTRY is INVALID in every state that holds an image; with none held there is no
NENTRY, and the answer is STATE (DEDUCED, log 17). The SEQs without a stream for the entry are IDLE. A barrier's arrivals are among what
a start leaves alone (log 16). -/
def actStart (s : State) (e : Nat) : Act :=
  { inv := decide (s.sched.nentry ≠ 0) && decide (s.sched.nentry ≤ e),
    bad := !schedIdle s.sched.st,
    eff :=
      let img := s.sched.imgOff
      let cs := allCores.filter (fun c => s.sched.secs.any (fun x => decide (x.typ = 2 ∧ x.core = c)))
      let s0 := s.forEach allCores (fun s c => s.updCore c (fun k => { k with seq := { k.seq with st := 0, fcode := 0, waitk := 0 } }))
      let s1 := s0.forEach cs (fun s c => s.updCore c (fun k => { resetEngines k with seq := { k.seq with loops := [] } }))
      let s2 := s1.forEach (s.sched.secs.filter (fun x => decide (x.typ = 1 ∧ x.sub = e))) (fun s x =>
        s.updCore x.core (fun k => { k with seq := startSeq e (img + x.off) x.len s.tsc k.seq }))
      let s3 : State := { s2 with
        bars := s2.bars.mapV {} (fun _ b => { b with waiting := [], inflight := [] }),
        fab := { s2.fab with reelOff := false },
        sched := { s2.sched with entry := e, faulting := false, halted := false, recValid := false } }
      ((s3.updColl 0 (collStart e)).updColl 1 (collStart e)).setSched 3 }

/-- StopSchedule (R134, R137, R138). -/
def actStop (s : State) : Act := { bad := decide (s.sched.st ≠ 3), eff := s.stopImage 4 }

/-- The STEs report their cancellations complete (R137, R138). -/
def execStopComplete (s : State) : Host.Outcome State Fault Refusal :=
  if s.sched.st = 5 ∧ s.haltDone = true ∧ s.clock.lost = false then
    .next (({ s.freeCancelled with sched := { s.sched with faulting := false } }).setSched 6)
  else .next s

/-- PlaceEpochAdvance (R175). -/
def actEpoch (s : State) (e : Nat) : Act :=
  { inv := decide (e ≠ (s.sched.placeEpoch + 1) % 65536), bad := decide (s.sched.st = 1),
    eff := { s with sched := { s.sched with placeEpoch := e } } }

end Sys2Proof.Machine
end

