-- ==== Sys2Proof/Machine/Memory.lean ====
section
/-! DEFINITION. Commands and events of device memory: slice lookups and the stack's queues (R193, R200 to R207), cache
maintenance (R198), band changes (R183), refresh, scrubs and stack temperature (R187, R202, R208, R210). -/

namespace Sys2Proof.Machine

/-! Errors of a slice. -/

/-- The poison list takes a sector; when that fills the list of 256, the slice is fenced from allocation (R207). A sector that finds the
list full is not listed (log 15). -/
def State.poisonAdd (s : State) (st a : Nat) : State :=
  let g := s.region st
  if g.poison.contains a ∨ 256 ≤ g.poison.length then s
  else
    let s1 := s.updRegion st (fun g => { g with poison := g.poison ++ [a] })
    if g.poison.length = 255 then (s1.updRegion st (fun g => { g with fenced := true })).post 0x0503 2 (srcRegion st) [st] else s1

/-- What the codes of an MSC line show when it is looked up (R207): a double error in a clean line invalidates it; in a
dirty line the data is lost. -/
def State.lineEcc (s : State) (st a : Nat) (e : Ecc) : State :=
  match s.findLine st a, e with
  | some l, .double =>
    let s1 := s.setLines st a (withoutLine (s.lines st a) a)
    if l.dirty then
      let s2 := (s1.stopImage 4).setSector st (l.tag * 64) (List.replicate 64 0)
      (s2.post 0x0501 2 (srcRegion st) ([st, pcOf a, bankOf a, rowOf a] ++ w64 (s.offsetOf st (l.tag * 64)))).poisonAdd st
        (l.tag * 64)
    else s1
  | _, _ => s

/-! Remote requests inside the slices. -/

/-- A remote job is over: its answer leaves (R294, R295). -/
def State.jobEnd (s : State) (job : Nat) (j : RemoteJob) : State :=
  let s1 : State := { s with mem := { s.mem with jobs := s.mem.jobs.set none job none } }
  if j.status ≠ 0 then s1.reply j.pkt 0x22 j.status []
  else if j.pkt.ptype = 0x10 then
    s1.reply j.pkt 0x20 0 ((List.range j.pkt.arg).flatMap (fun i => ((j.parts.find? (fun x => decide (x.1 = i))).map Prod.snd).getD []))
  else s1.reply j.pkt 0x21 (j.pkt.payload.length / 64) []

/-- One part of a remote job has been served. -/
def State.jobPart (s : State) (job part : Nat) (data : List Byte) (status : Nat) : State :=
  match s.mem.jobs.get none job with
  | none => s
  | some j =>
    let j1 := { j with left := j.left - 1, parts := j.parts ++ [(part, data)], status := if j.status = 0 then status else j.status }
    if j1.left = 0 then s.jobEnd job j1 else { s with mem := { s.mem with jobs := s.mem.jobs.set none job (some j1) } }

/-- A remote request becomes one request of its stream for each of its sectors (R294). -/
def State.jobStart (s : State) (p : Packet) (ops : List MemOp) : State :=
  let n := s.mem.nextJob
  let s1 : State := { s with mem := { s.mem with jobs := s.mem.jobs.set none n (some { pkt := p, left := ops.length }), nextJob := n + 1 } }
  s1.forEach ((List.range ops.length).zip ops) (fun s x => s.toSlice (.remote n x.1) (p.addr + 64 * x.1) x.2 p.hint)

/-! Service. -/

/-- The answer of a request goes to its owner: bytes, or a status of R235. A poisoned gate stops the image (R206). -/
def State.answerReq (s : State) (w : ReqOwner) (op : MemOp) (data : List Byte) (status : Nat) : State :=
  let s1 := match op with
    | .add _ => if status = 0 then s else s.stopImage 4
    | _ => s
  match w with
  | .stream c i k => s1.respond c i [k] [data] status
  | .remote job part => s1.jobPart job part data status
  | _ => s1

/-- A request is served by the slice, and answered (R150, R193, R206); the write of a victim has nothing left to do. -/
def State.serveReq (s : State) (r : Nat) (q : MemReq) (err : HbmErr) : State :=
  let n := s.reqStream q
  match q.owner, q.op with
  | .back _, _ => s
  | _, .write bs =>
    let w := s.mscWriteBy q.policy n r q.addr 0 bs q.hint err
    w.1.answerReq q.owner q.op [] (if w.2 then 0 else 3)
  | _, .read =>
    let d := s.mscReadBy q.policy n r q.addr q.hint err
    d.1.answerReq q.owner q.op (d.2.getD []) (if d.2.isSome then 0 else 3)
  | _, .add x =>
    let d := s.mscReadBy q.policy n r q.addr 0 err
    match d.2 with
    | some b => ((d.1.mscWriteBy q.policy n r q.addr 0 (leBytes 8 ((ofLe (b.take 8) + x) % 2 ^ 64)) 0 noErr).1).answerReq q.owner q.op [] 0
    | none => d.1.answerReq q.owner q.op [] 3

/-- Can the slice serve a request without its stack: a hit, or a whole-sector write that allocates (R193, R196)? -/
def State.servedHere (s : State) (r : Nat) (q : MemReq) : Bool :=
  (s.findLine r q.addr).isSome ||
    (match q.op with
      | .write _ => decide (s.effHint r q.hint ≠ 1)
      | _ => false)

/-- Does a request that the slice holds already concern the line of a request of its queue (R197)? -/
def heldLine (g : RegionSt) (q : MemReq) : Bool :=
  let same := fun (x : MemReq) => decide (x.addr / 64 = q.addr / 64) && (match x.owner with | .back _ => false | _ => true)
  g.held.any same || g.adm.any same

/-- The slice looks up the first request of its queue whose band is not changing (R183) and whose line no earlier request waits for
(R193, R197). -/
def execMscRequest (r : Fin 24) (ecc : Ecc) (s : State) : Host.Outcome State Fault Refusal :=
  let g := s.region r
  match g.q.find? (fun q => !s.bandBusy q.band && !heldLine g q) with
  | none => .next s
  | some q =>
    if !g.clken.getLsbD 1 || s.clock.lost then .next s
    else
      let s1 := (s.updRegion r (fun g => { g with q := g.q.erase q })).lineEcc r q.addr ecc
      if s1.servedHere r q then .next (s1.serveReq r { q with policy := s1.mem.eccPolicy } noErr) else .next (s1.toStack r q)

/-- The requests held for a bank that may be admitted: each the first of its stream there, its band not changing (R183, R200, R201). -/
def State.admissible (s : State) (g : RegionSt) (key : Nat) : List MemReq :=
  g.held.filter (fun q => decide (bankKey q.addr = key) && !s.bandBusy q.band && s.canAdmit g.adm (s.reqStream q) q.addr &&
    decide ((g.held.find? (fun x => decide (pcOf x.addr = pcOf q.addr ∧ s.reqStream x = s.reqStream q))) = some q))

/-- The next of the admissible requests in round-robin order of stream (R201). -/
def State.nextRobin (s : State) (last : Nat) (qs : List MemReq) : Option MemReq :=
  let pick := fun (xs : List MemReq) => xs.foldl (fun acc q =>
    match acc with
    | none => some q
    | some b => if s.reqStream q < s.reqStream b then some q else some b) none
  match pick (qs.filter (fun q => last < s.reqStream q)) with
  | some q => some q
  | none => pick qs

/-- A freed slot of a bank's queue admits one held request (R201). -/
def execHbmAdmit (r : Fin 24) (pc : Fin 32) (bank : Fin 48) (s : State) : Host.Outcome State Fault Refusal :=
  let g := s.region r
  let key := pc.val * 48 + bank.val
  if s.clock.lost then .next s else
  match s.nextRobin (g.banks.get {} key).lastAdm (s.admissible g key) with
  | none => .next s
  | some q => .next ((s.updRegion r (fun g => { g with held := g.held.erase q })).takeSlotFor r q)

/-- May the controller serve request `q` next in its bank: the oldest, or one that hits the open row, at most four times
in succession ahead of the oldest (R202)? -/
def bankTurn (g : RegionSt) (q : MemReq) : Bool :=
  let b := g.banks.get {} (bankKey q.addr)
  match g.adm.find? (fun x => bankKey x.addr = bankKey q.addr) with
  | none => false
  | some o => decide (o = q) || (decide (b.row = some (rowOf q.addr)) && decide (b.streak < 4))

/-- The `k`-th admitted request completes (R202, R203, R206); `err` is the error its codeword meets. -/
def execHbmRequestComplete (r : Fin 24) (k : Nat) (err : HbmErr) (s : State) : Host.Outcome State Fault Refusal :=
  let g := s.region r
  match g.adm[k]? with
  | none => .next s
  | some q =>
    if !bankTurn g q || !g.clken.getLsbD 0 || s.clock.lost then .next s
    else
      let oldest := decide ((g.adm.find? (fun x => bankKey x.addr = bankKey q.addr)) = some q)
      let s1 := s.updRegion r (fun g => { g with
        adm := g.adm.eraseIdx k,
        banks := g.banks.upd {} (bankKey q.addr) (fun b =>
          { b with row := some (rowOf q.addr), streak := if oldest then 0 else b.streak + 1 }) })
      .next (s1.serveReq r q err)

/-- A refresh (R202). -/
def execHbmRefresh (r : Fin 24) (s : State) : Host.Outcome State Fault Refusal :=
  if s.clock.lost then .next s
  else .next (s.updRegion r (fun g => { g with refreshes := g.refreshes + 1, banks := g.banks.mapV {} (fun _ b => { b with row := none }) }))

/-- Sectors of a stack: 36 GiB of 64 bytes. -/
def stackSectors : Nat := 36 * 2 ^ 30 / 64

/-- The next sector of the scrub pass (R208). -/
def execHbmScrub (r : Fin 24) (err : HbmErr) (s : State) : Host.Outcome State Fault Refusal :=
  let g := s.region r
  if !g.clken.getLsbD 0 || s.clock.lost then .next s
  else .next ((s.stackRead r (g.scrubPos * 64) err).1.updRegion r (fun g => { g with scrubPos := (g.scrubPos + 1) % stackSectors }))

/-- The integrity port reads a scratchpad word (R187). -/
def execSpadScrub (c : Fin 136) (word : Nat) (ecc : Ecc) (s : State) : Host.Outcome State Fault Refusal :=
  if 8 * word < spadBytes ∧ s.clkOn c 4 = true then .next (s.spadEcc c word ecc) else .next s

/-! Maintenance. -/

/-- MSC_BASE as an offset. -/
def RegionSt.base (g : RegionSt) : Nat := g.baseLo.toNat + fld g.baseHi 7 0 * 2 ^ 32

/-- A write of an operation code to MSC_OP (R198); a gated window takes none (R393). RESULT is the outcome of the last write, so an
accepted write clears it and a refusal while BUSY stays (DEDUCED, log 75). -/
def State.mscOp (s : State) (r op : Nat) : State :=
  let g := s.region r
  if g.clken.getLsbD 1 = false ∨ s.clock.lost = true then s
  else if g.op.isSome ∨ (op = 3 ∧ (s.sched.st = 3 ∨ s.sched.st = 5)) then s.updRegion r (fun g => { g with result := 1 })
  else if op = 0 ∨ 4 < op then s.updRegion r (fun g => { g with result := 3 })
  else if fld g.baseHi 31 8 ≠ 0 ∨ (g.len ≠ 0 ∧ hbmTop < g.base + 64 * g.len.toNat) then s.updRegion r (fun g => { g with result := 2 })
  else s.updRegion r (fun g => { g with op := some op, result := 0 })

/-- CLEAN, FLUSH, DROP and UNKEEP (R198): stores of the codes to MSC_OP. -/
def execMscClean (r : Fin 24) (s : State) : Host.Outcome State Fault Refusal := .next (s.mscOp r 1)
def execMscFlush (r : Fin 24) (s : State) : Host.Outcome State Fault Refusal := .next (s.mscOp r 2)
def execMscDrop (r : Fin 24) (s : State) : Host.Outcome State Fault Refusal := .next (s.mscOp r 3)
def execMscUnkeep (r : Fin 24) (s : State) : Host.Outcome State Fault Refusal := .next (s.mscOp r 4)

/-- Is a line in the range of a region's maintenance registers? -/
def State.inMscRange (s : State) (r : Nat) (l : Line) : Bool :=
  let g := s.region r
  let o := s.offsetOf r (l.tag * 64)
  decide (g.len = 0) || decide (g.base ≤ o ∧ o < g.base + 64 * g.len.toNat)

/-- Write back the dirty lines for which `p` holds. -/
def State.writeBack (s : State) (r : Nat) (p : Line → Bool) : State :=
  s.forEach ((s.region r).sets.flatMap (fun q => q.2.filter (fun l => l.dirty && p l))) (fun s l => s.stackWrite r (l.tag * 64) l.data)

/-- A maintenance operation has passed every set (R198). -/
def execMscOpDone (r : Fin 24) (s : State) : Host.Outcome State Fault Refusal :=
  match (if s.clock.lost then none else (s.region r).op) with
  | none => .next s
  | some op =>
    let p := s.inMscRange r
    let s1 := if op = 1 ∨ op = 2 then s.writeBack r p else s
    let f := fun (ls : List Line) =>
      if op = 1 then ls.map (fun l => if p l then { l with dirty := false } else l)
      else if op = 4 then ls.map (fun l => if p l then { l with keep := false } else l)
      else ls.filter (fun l => !p l)
    .next (s1.updRegion r (fun g => { g with op := none, sets := g.sets.mapV [] (fun _ ls => f ls) }))

/-! Bands. -/

/-- Does a band hold a byte of the loaded image, its gates or its log area (R183)? -/
def State.bandInUse (s : State) (b : Nat) : Bool :=
  let hit := fun o n => overlap (b * bandBytes) bandBytes o n
  let c := s.sched
  hit c.imgOff c.imgLen || (decide (c.logn ≠ 0) && hit c.logBase (logBytes c.logn)) ||
  (s.gatesOf c.secs c.imgOff).any (fun g => hit g.1 64)

/-- Is the image LOADING, RUNNING or STOPPING? -/
def State.schedBusy (s : State) : Bool := decide (s.sched.st = 1 ∨ s.sched.st = 3 ∨ s.sched.st = 5)

/-- HbmBandSet (R183). -/
def actBandSet (s : State) (v : Nat) : Act :=
  let b := v % 64
  let homed := v.testBit 15
  { inv := decide (35 < b) || decide (nfld v 14 6 ≠ 0),
    bad := s.schedBusy || s.bandInUse b || s.bandBusy b,
    eff := if s.homed b = homed then s else { s with mem := { s.mem with bandChg := s.mem.bandChg ++ [(b, homed)] } } }

/-- The stack addresses of a band. -/
def inBand (b a : Nat) : Bool := decide (b * gib ≤ a ∧ a < (b + 1) * gib)

/-- The requests of a band that a slice holds: those in front of the stack, then those of its queue, with their local offsets. -/
def State.bandHeld (s : State) (b : Nat) : List (Nat × MemReq) :=
  allRegions.flatMap (fun r => ((s.region r).held ++ (s.region r).q).filterMap (fun q =>
    if q.band = b then some (s.offsetOf r q.addr, q) else none))

/-- The requests that a band's change held go on, each to the slice that homes its offset now (R183). -/
def State.bandFree (s : State) (xs : List (Nat × MemReq)) : State := s.forEach xs (fun s x => s.toSlice x.2.owner x.1 x.2.op x.2.hint)

/-- A band change ends: lines dropped, the new mode, zeros, held requests free (R183). -/
def execBandChangeDone (b : Fin 36) (s : State) : Host.Outcome State Fault Refusal :=
  match s.mem.bandChg.find? (fun p => p.1 = b.val) with
  | none => .next s
  | some p =>
    if s.clock.lost || allRegions.any (fun r => (s.region r).adm.any (fun q => q.band = b.val)) then .next s
    else
      let bit1 : BitVec 36 := BitVec.ofNat 36 (2 ^ b.val)
      let s1 : State := { s with mem := { s.mem with
        bandChg := s.mem.bandChg.erase p,
        bandMap := if p.2 then s.mem.bandMap ||| bit1 else s.mem.bandMap &&& ~~~bit1,
        hbm := s.mem.hbm.drop (fun k => inBand b (k % 2 ^ 40)),
        regions := s.mem.regions.mapV {} (fun _ g => { g with
          sets := g.sets.mapV [] (fun _ ls => ls.filter (fun l => !inBand b (l.tag * 64))),
          poison := g.poison.filter (fun a => !inBand b a),
          q := g.q.filter (fun q => q.band ≠ b.val), held := g.held.filter (fun q => q.band ≠ b.val) }),
        errs := s.mem.errs.drop (fun k => inBand b (k % 2 ^ 40)) } }
      .next (s1.bandFree (s.bandHeld b))

/-! Temperature. -/

/-- Thresholds of the throttle levels in millidegrees (R210). -/
def stackThr (l : Nat) : Int := if l = 1 then 95000 else if l = 2 then 100000 else 105000

/-- The throttle level after a sample (R210). -/
def throttleNext (cur : Nat) (t : Int) : Nat :=
  let up := if stackThr 3 ≤ t then 3 else if stackThr 2 ≤ t then 2 else if stackThr 1 ≤ t then 1 else 0
  if cur < up then up else if 0 < cur ∧ t ≤ stackThr cur - 3000 then cur - 1 else cur

end Sys2Proof.Machine
end

