-- ==== Sys2Proof/Machine/Husk.lean ====
section
/-! DEFINITION. Floods (R308) and the Husk: the map (R353 to R357), trailers and the encryption of parity (R356, R459),
the parity engines (R359 to R364, R371, R372), the fence and the decision (R366 to R370), the resume (R375), the action log
(R376) and the flush (R378). The engines' work on local memory takes effect at the action that starts it; pulls from other
modules are packets, and the work's completion is the row that moves HuskState (log 41). -/

namespace Sys2Proof.Machine

/-! Floods. -/

/-- The lowest-coded UP interior port of a torus direction (R308). -/
def State.floodPort (s : State) (dir : Nat) : Option Nat := ((List.range 6).map (fun k => 6 * dir + k)).find? (fun p => s.usable p)

/-- One copy of a flooded packet on every direction but one. -/
def State.floodCopies (s : State) (p : Packet) (except : Option Nat) : State :=
  s.forEach (List.range 6) (fun s d =>
    if except = some d then s
    else
      match s.floodPort d with
      | some port => s.queueAt port p false
      | none => s)

/-- Record a (SRCDEV, CSEQ) pair among the last 256. -/
def State.floodNote (s : State) (src cseq : Nat) : State :=
  { s with fab := { s.fab with flood := ((src, cseq) :: s.fab.flood).take 256 } }

/-- Originate a flood with a new CSEQ (R308). DSTDEV is the module's own number, which lies in the block (R302). -/
def State.floodNew (s : State) (ptype : Nat) (payload : List Byte) : State :=
  let n := s.fab.cseq
  let p := { s.ownPkt ptype s.devNum 0 with arg := n, payload := payload }
  let s1 : State := { s with fab := { s.fab with cseq := (n + 1) % 2 ^ 32 } }
  (s1.floodNote s.devNum n).floodCopies p none

/-- The payload of FENCE and RECOVER (R366); each link writes its own version (`linkForm`). -/
def fencePayload (kind epoch lost gen : Nat) : List Byte :=
  leBytes 4 (3 * 2 ^ 24 + kind * 2 ^ 16 + epoch % 65536) ++ leBytes 4 (lost % 2 ^ 17) ++ leBytes 8 gen ++ List.replicate 16 0

/-! Map entries. -/

def hw (w : List Word) (i : Nat) : Nat := (w.getD i 0).toNat
def hw64 (w : List Word) (i : Nat) : Nat := hw w i + 2 ^ 32 * hw w (i + 1)
def hKind (w : List Word) : Nat := fld (w.getD 0 0) 23 20
def hRole (w : List Word) : Nat := fld (w.getD 0 0) 19 16
def hChg (w : List Word) : Nat := fld (w.getD 0 0) 15 8
def hUnits (w : List Word) : Nat := fld (w.getD 0 0) 7 0
def hLen (w : List Word) : Nat := hUnits w * 65536
def hVer (w : List Word) : Nat := fld (w.getD 0 0) 31 24
def hGroup (w : List Word) : Nat := hw w 1

/-- The member record of member 0 to 7, of P0 (8) or of P1 (9): tray, device number, offset (R354). -/
def hRec (w : List Word) (m : Nat) : Nat × Nat × Nat :=
  let v := hw64 w (if m < 8 then 8 + 2 * m else if m = 8 then 6 else 24)
  (v / 2 ^ 49, v / 2 ^ 32 % 2 ^ 17, v % 2 ^ 32 * 256)

/-- The local extents of an entry (R354); a companion's is its PARITY entry's slot. -/
def hExtents (w : List Word) : List (Nat × Nat) :=
  if hKind w = 1 then (hw64 w 2, hLen w) :: (if hChg w = 0 then [] else [(hw64 w 4, hLen w + 64)])
  else if hKind w = 2 then [(hw64 w 2, hLen w + 64), (hw64 w 4, hLen w + 64)]
  else []

/-- Words `a` to `b` of an entry are zero. -/
def hZero (w : List Word) (a b : Nat) : Bool := ((w.drop a).take (b + 1 - a)).all (fun x => decide (x = 0))

/-- VERSION (R357). -/
def hVersionBad (w : List Word) : Bool :=
  decide (hVer w = 0) || decide (3 < hVer w) || (decide (hVer w < 3) && (decide (hKind w = 3) || decide (hRole w = 9)))

/-- FORMAT of one entry (R7, R354). -/
def hFormatBad (w : List Word) : Bool :=
  decide (hUnits w = 0) || decide (32 < hUnits w) || !hZero w 26 31 ||
  (if hKind w = 1 then
    decide (7 < hRole w) || decide (1 < hChg w) || !hZero w 6 25 || (decide (hChg w = 0) && !hZero w 4 5)
  else if hKind w = 2 then
    !(decide (hRole w = 8 ∨ hRole w = 9)) || (List.range 8).any (fun i => !(hChg w).testBit i && decide ((hRec w i).2.2 ≠ 0)) ||
    decide ((hRec w (hRole w)).2.2 ≠ hw64 w 2)
  else decide (hKind w ≠ 3) || decide (9 < hRole w) || decide (hChg w ≠ 0) || !hZero w 4 5)

/-- The companion rule of R355 over the whole map. -/
def companionsBad : List (List Word) → Bool
  | [] => false
  | w :: rest =>
    if hKind w = 2 then
      match rest with
      | [] => true
      | c :: rest' =>
        decide (hKind c ≠ 3) || decide (hGroup c ≠ hGroup w) || decide (hRole c ≠ hRole w) || decide (hUnits c ≠ hUnits w) ||
        decide (hw64 c 2 ≠ hw64 w 2) || decide (hw64 c 6 ≠ hw64 w 6) || decide (hw64 c 24 ≠ hw64 w 24) || companionsBad rest'
    else if hKind w = 3 then true
    else companionsBad rest

/-- PLACEMENT of an entry that names a group (R353, R357). -/
def State.placementBad (s : State) (w : List Word) : Bool :=
  let recs := (List.range 10).map (hRec w)
  decide (hKind w ≠ 1) &&
    (hasDup (recs.map (fun r => r.1)) || hasDup (recs.map (fun r => r.2.1)) ||
      (decide (hKind w = 2) && (decide ((hRec w (hRole w)).2.1 ≠ s.devNum) || decide ((hRec w (hRole w)).1 ≠ s.husk.tray))))

/-- An extent outside local HBM or misaligned. -/
def extentBad (x : Nat × Nat) : Bool := decide (x.1 % 256 ≠ 0) || decide (hbmTop < x.1 + x.2)

/-- Entries of 128 bytes from a local offset. -/
def State.entriesAt (s : State) (o n : Nat) : List (List Word) := (List.range n).map (fun i => wordsLe 32 (s.peek (o + 128 * i) 128))

/-- The outcome of a map load (R357): the lowest code that applies. -/
def State.mapCheck (s : State) (m : List (List Word)) : Nat :=
  let ex := m.flatMap hExtents
  if hbmTop < s.husk.mapBase + 128 * s.husk.mapCount ∨ ex.any extentBad = true ∨ anyOverlap ex = true then 2
  else if m.any hVersionBad then 3
  else if m.any hFormatBad || companionsBad m then 4
  else if m.any s.placementBad then 5
  else 0

/-! Trailers and encryption. -/

/-- A trailer (R356) of kind 1 JOLD, 2 JDELTA, 3 PARITY, 4 ACCUM. -/
def trailer (tkind group role gen : Nat) (tag : List Byte) : List Byte :=
  leBytes 4 (3 * 2 ^ 24 + tkind * 2 ^ 16) ++ leBytes 4 group ++ leBytes 4 role ++ leBytes 4 0 ++ leBytes 8 gen ++ leBytes 8 0 ++
    slice tag 0 16 ++ List.replicate 16 0

def trKind (t : List Byte) : Nat := leAt t 2 1
def trGen (t : List Byte) : Nat := leAt t 16 8

/-- R7 on a trailer: its version, and its reserved fields zero. -/
def trOk (t : List Byte) : Bool :=
  decide (1 ≤ leAt t 3 1 ∧ leAt t 3 1 ≤ 3) && decide (leAt t 0 2 = 0) && decide (leAt t 8 4 < 16) && decide (leAt t 12 4 = 0) &&
  decide (leAt t 24 8 = 0) && allZero (slice t 48 16)

/-- Does a trailer show a kind and a generation? -/
def trIs (t : List Byte) (kind gen : Nat) : Bool := trOk t && decide (trKind t = kind) && decide (trGen t = gen)

/-- The key and IV of R459. -/
def State.huskKey (s : State) : List Byte := kdf "KRN-HUSK" s.jobKey 32
def huskIv (group role tkind epoch gen : Nat) : List Byte :=
  leBytes 4 group ++ leBytes 1 (role + 16 * tkind) ++ leBytes 2 epoch ++ leBytes 5 gen

/-- A parity slot or accumulator with its trailer. -/
def State.sealChunk (s : State) (plain : List Byte) (tkind group role epoch gen : Nat) : List Byte :=
  let iv := huskIv group role tkind epoch gen
  let aad := (trailer tkind group role gen []).take 32
  gcmCrypt s.huskKey iv plain ++ trailer tkind group role gen (Config.gcmTag s.huskKey iv aad plain)

/-- The plaintext of a slot or accumulator of `n` bytes with its trailer, when its tag holds. -/
def State.openChunk (s : State) (bs : List Byte) (n epoch : Nat) : Option (List Byte) :=
  let t := bs.drop n
  let iv := huskIv (leAt t 4 4) (leAt t 8 1 % 16) (trKind t) epoch (trGen t)
  let plain := gcmCrypt s.huskKey iv (bs.take n)
  if trOk t ∧ Config.gcmTag s.huskKey iv (t.take 32) plain = (t.drop 32).take 16 then some plain else none

/-! Byte strings over GF(2^8). -/

def xorB (a b : List Byte) : List Byte := (a.zip b).map (fun p => p.1 ^^^ p.2)
def mulB (c : Nat) (a : List Byte) : List Byte := a.map (fun x => BitVec.ofNat 8 (gfMul c x.toNat))
def sumB (n : Nat) (xs : List (List Byte)) : List Byte := xs.foldl xorB (List.replicate n 0)

/-- The parity of R352 over data members: role 8 is P0, role 9 is P1. -/
def parityOf (role n : Nat) (ds : List (Nat × List Byte)) : List Byte :=
  sumB n (ds.map (fun d => if role = 8 then d.2 else mulB (gfPow d.1) d.2))

/-! The engines. -/

def State.par (s : State) (h : Nat) : ParSt := (s.hub h).par
def State.updPar (s : State) (h : Nat) (f : ParSt → ParSt) : State := s.updHub h (fun k => { k with par := f k.par })

/-- The hub that serves a map entry (R364); a companion counts with its PARITY entry. -/
def State.entryHub (s : State) (i : Nat) : Nat :=
  if (s.hub 0).fenced then 1 else if (s.hub 1).fenced then 0 else i % 2

/-- Entries of a list, with their numbers. -/
def numbered (m : List (List Word)) : List (Nat × List Word) := (List.range m.length).zip m

/-- The first error of an engine's work, and the Husk-error event (R361, R379): 1 TAG, 2 POISON, 3 LINK, 4 REMOTE, 5 ERASURES. -/
def State.parError (s : State) (h status entry : Nat) : State :=
  let w := if (s.par h).err = 0 then BitVec.ofNat 32 (status * 2 ^ 28 + entry) else (s.par h).err
  (s.updPar h (fun p => { p with err := w, fail := true })).post 0x0A02 2 (srcHub h 0x51) [w.toNat]

/-- The PAR_ERR status for a status of R235. -/
def parStatus (st : Nat) : Nat := if st = 3 then 2 else if st = 7 then 3 else 4

def State.chunkRead (s : State) (o n : Nat) : State × Option (List Byte) :=
  let r := s.localRead deviceStream o n 1 []
  (r.1, if r.2.2 = 0 then some r.2.1 else none)
def State.chunkWrite (s : State) (o : Nat) (bs : List Byte) : State := (s.localWrite deviceStream o bs 1).1

/-- Do the parity engines take nothing: a flush has stopped them or is stopping them (R378), or their clocks stand still (R388)? -/
def State.parStopped (s : State) : Bool := s.husk.flushing || s.husk.flushed || s.clock.lost

/-- Begin work `w` on both hubs with the entries given. -/
def State.parBegin (s : State) (w : Nat) (todo : List Nat) : State :=
  if s.parStopped then s
  else s.forEach [0, 1] (fun s h => if (s.hub h).fenced then s else
    s.updPar h (fun p => { p with work := w, done := 0, todo := todo.filter (fun i => decide (s.entryHub i = h)), cur := none, wait := [],
                                  outst := 0, got := [], have_ := [], asked := [], erased := [], halt := false, fail := false }))

/-- The engines fall idle. -/
def State.parIdle (s : State) (w : Nat) : State :=
  let s1 := s.forEach [0, 1] (fun s h => s.updPar h (fun p => { p with work := w, todo := [], cur := none, wait := [], outst := 0, got := [],
                                                                       have_ := [], asked := [], erased := [], halt := false }))
  { s1 with fab := { s1.fab with txns := s1.fab.txns.filter (fun t =>
      match t.2 with
      | some { owner := .husk _ _, .. } => false
      | _ => true) } }

/-- Has the engines' work `w` come to an end without an error? -/
def State.parDone (s : State) (w : Nat) : Bool :=
  !s.parStopped &&
  [0, 1].all (fun h => (s.hub h).fenced || (decide ((s.par h).work = w) && (s.par h).todo.isEmpty && decide ((s.par h).cur = none) && !(s.par h).fail))

/-- One local entry of an engine is done, or has failed with a status. -/
def State.parStepped (s : State) (i : Nat) (err : Option Nat) : State :=
  let h := s.entryHub i
  match err with
  | none => s.updPar h (fun p => { p with done := p.done + 1 })
  | some e => s.parError h e i

/-- The changed DATA entries of the map, and the PARITY entries with their companions. -/
def State.dataEntries (s : State) : List (Nat × List Word) := (numbered s.husk.map).filter (fun e => decide (hKind e.2 = 1 ∧ hChg e.2 = 1))
def State.parityEntries (s : State) : List (Nat × List Word) := (numbered s.husk.map).filter (fun e => decide (hKind e.2 = 2))
def State.companion (s : State) (i : Nat) : List Word := s.husk.map.getD (i + 1) []

/-- Local work of the engines on each entry of a list, unless they are stopped. -/
def State.parEach (s : State) (xs : List (Nat × List Word)) (f : State → Nat × List Word → State) : State :=
  if s.parStopped then s else s.forEach xs f

/-- Open: each changed chunk is copied to its journal (R360). -/
def State.journalOld (s : State) (g : Nat) : State :=
  s.parEach s.dataEntries (fun s e =>
    let r := s.chunkRead (hw64 e.2 2) (hLen e.2)
    match r.2 with
    | none => r.1.parStepped e.1 (some 2)
    | some d => (r.1.chunkWrite (hw64 e.2 4) (d ++ trailer 1 (hGroup e.2) (hRole e.2) g [])).parStepped e.1 none)

/-- Delta pass: journal := journal xor chunk, then the trailer (R361). -/
def State.journalDelta (s : State) (g : Nat) : State :=
  s.parEach s.dataEntries (fun s e =>
    let r := s.chunkRead (hw64 e.2 2) (hLen e.2)
    let q := r.1.chunkRead (hw64 e.2 4) (hLen e.2)
    match r.2, q.2 with
    | some d, some j => (q.1.chunkWrite (hw64 e.2 4) (xorB j d ++ trailer 2 (hGroup e.2) (hRole e.2) g [])).parStepped e.1 none
    | _, _ => q.1.parStepped e.1 (some 2))

/-- Apply: slot := slot xor accumulator with GEN = g; a slot that shows g is skipped (R362). -/
def State.applyAll (s : State) (g : Nat) : State :=
  s.parEach s.parityEntries (fun s e =>
    let n := hLen e.2
    let r := s.chunkRead (hw64 e.2 2) (n + 64)
    let q := r.1.chunkRead (hw64 e.2 4) (n + 64)
    match r.2, q.2 with
    | some sl, some ac =>
      if trIs (sl.drop n) 3 g then q.1.parStepped e.1 none
      else
        (match q.1.openChunk sl n 0, q.1.openChunk ac n s.husk.foldEpoch with
          | some a, some b => (q.1.chunkWrite (hw64 e.2 2) (q.1.sealChunk (xorB a b) 3 (hGroup e.2) (hRole e.2) 0 g)).parStepped e.1 none
          | _, _ => ({ q.1 with husk := { q.1.husk with tagFail := q.1.husk.tagFail + 1 } }).parStepped e.1 (some 1))
    | _, _ => q.1.parStepped e.1 (some 2))

/-- Restore: each chunk from its journal (R371). -/
def State.restoreAll (s : State) (g : Nat) : State :=
  s.parEach s.dataEntries (fun s e =>
    let n := hLen e.2
    let r := s.chunkRead (hw64 e.2 4) (n + 64)
    match r.2 with
    | none => r.1.parStepped e.1 (some 2)
    | some j =>
      if trIs (j.drop n) 1 g then (r.1.chunkWrite (hw64 e.2 2) (j.take n)).parStepped e.1 none
      else if trIs (j.drop n) 2 g then
        let q := r.1.chunkRead (hw64 e.2 2) n
        (match q.2 with
          | some d => (q.1.chunkWrite (hw64 e.2 2) (xorB d (j.take n))).parStepped e.1 none
          | none => q.1.parStepped e.1 (some 2))
      else r.1.parStepped e.1 none)

/-! Pulls. -/

/-- Where a pulled byte is kept. -/
def pullKey (m pos : Nat) : Nat := m * 2 ^ 24 + pos

/-- A pull that failed: an erasure in a rebuild, an error elsewhere (R361, R372). -/
def State.pullFailed (s : State) (h m status : Nat) : State :=
  let i := (s.par h).cur.getD 0
  if (s.par h).work = 7 then
    let w := if (s.par h).err = 0 then BitVec.ofNat 32 (parStatus status * 2 ^ 28 + i) else (s.par h).err
    s.updPar h (fun p => { p with erased := m :: p.erased, err := if status = 3 then p.err else w })
  else s.parError h (parStatus status) i

/-- One READ of at most 63 sectors to another module (R294, R361). -/
def State.pullPacket (s : State) (h m dev off pos n : Nat) : State :=
  let txn := s.fab.nextTxn
  let s1 := { s with fab := { s.fab with nextTxn := (txn + 1) % 65536 } }
  let p := { s1.ownPkt 0x10 dev (hubStream h) with addr := off, txn := txn, arg := n / 64 }
  let r := s1.sendPkt p
  match r.2 with
  | some port => (r.1.newTxn (.husk h (pullKey m pos)) port txn).updPar h (fun q => { q with outst := q.outst + 1 })
  | none => r.1.pullFailed h m 7

/-- Pull `n` bytes of a member from an offset, kept from position `pos` on. -/
def State.pull (s : State) (h m dev off pos n : Nat) : State :=
  if dev = s.devNum then
    let r := s.localRead deviceStream off n 1 []
    if r.2.2 = 0 then r.1.updPar h (fun p => { p with got := p.got.sets 0 (pullKey m pos) r.2.1 }) else r.1.pullFailed h m r.2.2
  else
    s.forEach (List.range (cdiv n 4032)) (fun s k => s.pullPacket h m dev (off + 4032 * k) (pos + 4032 * k) (min 4032 (n - 4032 * k)))

/-- The bytes pulled of a member. -/
def State.pulled (s : State) (h m pos n : Nat) : List Byte := (s.par h).got.gets 0 (pullKey m pos) n

/-- The entry in hand is written and done. -/
def State.entryDone (s : State) (h : Nat) : State :=
  s.updPar h (fun p => { p with cur := none, done := p.done + 1, wait := [], outst := 0, got := [], have_ := [], asked := [], erased := [] })

/-- The entry an engine has in hand: of the map, or of the rebuild list. -/
def State.curEntry (s : State) (h : Nat) : List Word :=
  (if (s.par h).work = 7 then s.husk.list else s.husk.map).getD ((s.par h).cur.getD 0) []

/-- Members of a rebuild entry that count as erased: the role itself, the lost, those whose pull failed (R372). -/
def State.erasedOf (s : State) (h : Nat) (w : List Word) : List Nat :=
  (List.range 10).filter (fun m => decide (m = hRole w) || s.husk.lost.contains (hRec w m).2.1 || (s.par h).erased.contains m)

/-- The members a decode needs, or none when three or more are erased (R372): all surviving data, and the parity chunks that
the erased data take. -/
def decodeNeed (role : Nat) (er : List Nat) : Option (List Nat) :=
  let dat := er.filter (fun m => decide (m < 8))
  let p0 := er.contains 8
  let p1 := er.contains 9
  let keep := (List.range 8).filter (fun m => !er.contains m)
  if role < 8 then
    match dat with
    | [_] => if !p0 then some (keep ++ [8]) else if !p1 then some (keep ++ [9]) else none
    | [_, _] => if p0 || p1 then none else some (keep ++ [8, 9])
    | _ => none
  else
    match dat with
    | [] => some keep
    | [_] => if p0 && p1 then none else some (keep ++ [if p0 then 9 else 8])
    | _ => none

/-- The chunk of a role from the members held (the table of R372). -/
def decodeRole (role n : Nat) (er : List Nat) (held : List (Nat × List Byte)) : List Byte :=
  let dat := er.filter (fun m => decide (m < 8))
  let data := held.filter (fun d => decide (d.1 < 8))
  let par := fun m => ((held.find? (fun d => decide (d.1 = m))).map Prod.snd).getD (List.replicate n 0)
  let s0 := xorB (par 8) (parityOf 8 n data)
  let s1 := xorB (par 9) (parityOf 9 n data)
  let one := fun k => if held.any (fun d => decide (d.1 = 8)) then s0 else mulB (gfInv (gfPow k)) s1
  if role < 8 then
    match dat with
    | [k, l] =>
      let dk := mulB (gfInv (gfPow k ^^^ gfPow l)) (xorB (mulB (gfPow l) s0) s1)
      if role = k then dk else xorB s0 dk
    | _ => one role
  else
    match dat with
    | [k] => parityOf role n ((k, one k) :: data)
    | _ => parityOf role n data

/-- One move of the first build, for entry `i`: the companions of a parity chunk are read, then the chunk is written (R359). -/
def State.initMove (s : State) (h i : Nat) : State × Bool :=
  let p := s.par h
  let w := s.curEntry h
  let n := hLen w
  let c := s.companion i
  if p.have_.isEmpty then
    ((s.forEach (List.range 8) (fun s m => s.pull h m (hRec c m).2.1 (hRec c m).2.2 0 n)).updPar h (fun p =>
      { p with have_ := List.range 8 }), true)
  else
    let d := parityOf (hRole w) n ((List.range 8).map (fun m => (m, s.pulled h m 0 n)))
    ((s.chunkWrite (hw64 w 2) (s.sealChunk d 3 (hGroup w) (hRole w) 0 s.husk.openGen)).entryDone h, true)

/-- One move of a fold: the deltas whose trailers have come are read, and the accumulator is written when all are there. -/
def State.foldMove (s : State) (h : Nat) : State × Bool :=
  let p := s.par h
  let w := s.curEntry h
  let n := hLen w
  let ok := fun m => trIs (s.pulled h m n 64) 2 s.husk.openGen
  if !p.asked.isEmpty then
    let good := p.asked.filter ok
    ((s.forEach good (fun s m => s.pull h m (hRec w m).2.1 (hRec w m).2.2 0 n)).updPar h (fun q =>
      { q with asked := [], wait := q.wait ++ p.asked.filter (fun m => !ok m), have_ := q.have_ ++ good }), true)
  else if !p.wait.isEmpty then (s, false)
  else
    let ms := (List.range 8).filter (fun m => (hChg w).testBit m)
    let d := parityOf (hRole w) n (ms.map (fun m => (m, s.pulled h m 0 n)))
    ((s.chunkWrite (hw64 w 4) (s.sealChunk d 4 (hGroup w) (hRole w) s.husk.foldEpoch s.husk.openGen)).entryDone h, true)

/-- A rebuild has read all it needs for its entry: a chunk whose tag fails counts as erased, else the lost chunk is decoded and written. -/
def State.rebuildWrite (s : State) (h n : Nat) (need er : List Nat) : State × Bool :=
  let w := s.curEntry h
  let opened := need.map (fun m => (m, if m < 8 then some (s.pulled h m 0 n) else s.openChunk (s.pulled h m 0 (n + 64)) n 0))
  match opened.find? (fun o => o.2.isNone) with
  | some o =>
    (({ s with husk := { s.husk with tagFail := s.husk.tagFail + 1 } }).updPar h (fun p => { p with erased := o.1 :: p.erased }), true)
  | none =>
    let d := decodeRole (hRole w) n er (opened.map (fun o => (o.1, o.2.getD [])))
    let out := if hRole w < 8 then d else s.sealChunk d 3 (hGroup w) (hRole w) 0 s.husk.gen
    let s1 := s.chunkWrite (hw64 w 2) out
    (({ s1 with husk := { s1.husk with rebuilt := s1.husk.rebuilt + 1 } }).entryDone h, true)

/-- One move of a rebuild of entry `i`. -/
def State.rebuildMove (s : State) (h i : Nat) : State × Bool :=
  let p := s.par h
  let w := s.curEntry h
  let n := hLen w
  match decodeNeed (hRole w) (s.erasedOf h w) with
  | none => ((s.parError h 5 i).updPar h (fun p => { p with todo := [], cur := none }), false)
  | some need =>
    let more := need.filter (fun m => !p.have_.contains m)
    if !p.wait.isEmpty then (s, false)
    else if !more.isEmpty then
      ((s.forEach more (fun s m => s.pull h m (hRec w m).2.1 (hRec w m).2.2 0 (if m < 8 then n else n + 64))).updPar h (fun p =>
        { p with have_ := p.have_ ++ more }), true)
    else
      let late := need.filter (fun m => decide (8 ≤ m) && !trIs (s.pulled h m n 64) 3 s.husk.gen)
      if !late.isEmpty then
        (s.updPar h (fun p => { p with wait := late, have_ := p.have_.filter (fun m => !late.contains m) }), false)
      else s.rebuildWrite h n need (s.erasedOf h w)

/-- The engine begins its next entry, if one is left and it is not to halt. -/
def State.nextEntry (s : State) (h : Nat) : State × Bool :=
  match (s.par h).todo with
  | [] => (s, false)
  | i :: rest =>
    if (s.par h).halt then (s.updPar h (fun p => { p with todo := [] }), false)
    else
      let s1 := s.updPar h (fun p => { p with
        cur := some i, todo := rest, got := [], have_ := [], erased := [], asked := [],
        wait := if p.work = 4 then (List.range 8).filter (fun m => (hChg (s.husk.map.getD i [])).testBit m) else [] })
      if (s.par h).work = 4 then
        ((s1.forEach (s1.par h).wait (fun s m =>
          let r := hRec (s.curEntry h) m
          s.pull h m r.2.1 (r.2.2 + hLen (s.curEntry h)) (hLen (s.curEntry h)) 64)).updPar h (fun p =>
            { p with asked := p.wait, wait := [] }), true)
      else (s1, true)

/-- One move of an engine that waits for nothing: request what the entry in hand still needs, finish it, or begin the next.
The second part says whether it moved. -/
def State.parMove (s : State) (h : Nat) : State × Bool :=
  let p := s.par h
  if p.outst ≠ 0 ∨ p.fail = true ∨ (s.parStopped = true ∧ p.cur = none) then (s, false)
  else
    match p.cur with
    | none => s.nextEntry h
    | some i =>
      if p.work = 1 then s.initMove h i
      else if p.work = 4 then s.foldMove h
      else if p.work = 7 then s.rebuildMove h i
      else (s, false)

/-- The engine moves until it waits. -/
def State.parRun (s : State) (h : Nat) : Nat → State
  | 0 => s
  | k + 1 =>
    let r := s.parMove h
    if r.2 then State.parRun r.1 h k else r.1

/-- Enough moves for every entry that remains. -/
def State.parGo (s : State) (h : Nat) : State := s.parRun h (64 * ((s.par h).todo.length + 2))

/-- A hub that is fenced hands the entries it has still to do, and the one in hand, to the other hub (R17, R364); its pulls are
abandoned. -/
def State.parHandOver (s : State) (h : Nat) : State :=
  let p := s.par h
  let o := 1 - h
  let left := p.cur.toList ++ p.todo
  if left.isEmpty ∨ (s.hub o).fenced then s
  else
    let s1 : State := { s with fab := { s.fab with txns := s.fab.txns.filter (fun t =>
      match t.2 with
      | some { owner := .husk k _, .. } => decide (k ≠ h)
      | _ => true) } }
    let s2 := s1.updPar h (fun q => { q with work := 0, todo := [], cur := none, wait := [], outst := 0, got := [], have_ := [],
                                             asked := [], erased := [] })
    (s2.updPar o (fun q => { q with work := p.work, todo := q.todo ++ left, fail := q.fail || p.fail })).parGo o

/-- Engine work that pulls begins on both hubs. -/
def State.parStart (s : State) (w : Nat) (todo : List Nat) : State := ((s.parBegin w todo).parGo 0).parGo 1

/-- Data of a pull arrives (R361, R372). -/
def State.pullData (s : State) (h job : Nat) (bs : List Byte) : State :=
  (s.updPar h (fun p => { p with outst := p.outst - 1, got := p.got.sets 0 job bs })).parGo h

/-- A pull is answered with a status. -/
def State.pullErr (s : State) (h job status : Nat) : State :=
  ((s.updPar h (fun p => { p with outst := p.outst - 1 })).pullFailed h (job / 2 ^ 24) status).parGo h

/-! Actions. -/

/-- STATE of every Husk action but HuskSeal, HuskDeclareLost and HuskResume (R358); a module that has declared itself lost takes part in no
Husk work (R370; DEDUCED, log 76). -/
def State.huskShut (s : State) : Bool := s.schedBusy || s.husk.lost.contains s.devNum

/-- A Husk action (R393) is refused unless PARITY is set on every hub that is not fenced. -/
def State.parityGated (s : State) : Bool := [0, 1].any (fun h => !(s.hub h).fenced && !(s.hub h).clken.getLsbD 1)

/-- A Husk action: refused with STATE, with another code, or done; every refusal returns STATE and leaves its code in
HuskResult (R357, R358). -/
def State.huskAct (s : State) (bad : Bool) (code : Nat) (eff : State) : Act :=
  let c := if bad then 1 else code
  { bad := decide (c ≠ 0), rej := some { s with husk := { s.husk with result := c } },
    eff := { eff with husk := { eff.husk with result := 0 } } }

def State.setHusk (s : State) (st : Nat) : State := { s with husk := { s.husk with st := st } }

/-- HuskMapLoad (R357, R358). -/
def actHuskMapLoad (s : State) : Act :=
  let st := s.husk.st
  s.huskAct (s.huskShut || s.parityGated || !(decide (st = 0 ∨ st = 1 ∨ st = 3 ∨ st = 12))) 0
    (let s1 := s.forEach [0, 1] (fun s h => s.updPar h (fun p => { p with err := 0, fail := false }))
     { s1 with husk := { s1.husk with loading := true } })

/-- The map check completes (R357, R358). If another action has left the states in which a map may be loaded, the new map is not taken,
with STATE (DESIGN CHOICE, log 76). -/
def execHuskMapLoadDone (s : State) : Host.Outcome State Fault Refusal :=
  if s.husk.loading = false ∨ s.clock.lost = true then .next s
  else
    let m := s.entriesAt s.husk.mapBase s.husk.mapCount
    let r := if s.husk.st = 0 ∨ s.husk.st = 1 ∨ s.husk.st = 3 ∨ s.husk.st = 12 then s.mapCheck m else 1
    let s0 := s.devTouch s.husk.mapBase (128 * s.husk.mapCount)
    let s1 : State := { s0 with husk := { s0.husk with loading := false, result := r } }
    if r ≠ 0 then .next s1
    else .next { s1 with husk := { s1.husk with st := 1, map := m, gen := if s1.husk.st = 3 then 0 else s1.husk.gen, fenced := false } }

/-- HuskInit g (R359). -/
def actHuskInit (s : State) (g : Nat) : Act :=
  s.huskAct (s.huskShut || s.parityGated || decide (s.husk.st ≠ 1)) (if g = 0 then 6 else 0)
    (let s1 := s.setHusk 2
     let s2 : State := { s1 with husk := { s1.husk with openGen := g } }
     s2.parStart 1 (s2.parityEntries.map Prod.fst))

def execHuskInitDone (s : State) : Host.Outcome State Fault Refusal :=
  if s.husk.st = 2 ∧ s.parDone 1 = true then
    let s1 := (s.parIdle 0).setHusk 3
    .next { s1 with husk := { s1.husk with gen := s1.husk.openGen } }
  else .next s

/-- HuskOpen g (R360). -/
def actHuskOpen (s : State) (g : Nat) : Act :=
  s.huskAct (s.huskShut || s.parityGated || decide (s.husk.st ≠ 3)) (if g ≠ s.husk.gen + 1 then 6 else 0)
    (let s1 := s.setHusk 4
     (({ s1 with husk := { s1.husk with openGen := g } }).parBegin 2 []).journalOld g)

def execHuskOpenDone (s : State) : Host.Outcome State Fault Refusal :=
  if s.parDone 2 = true ∧ (s.husk.st = 4 ∨ s.husk.st = 9) then
    let s1 := s.parIdle 0
    .next (if s1.husk.st = 4 then s1.setHusk 5 else s1)
  else .next s

/-- HuskFold g (R361). -/
def actHuskFold (s : State) (g : Nat) : Act :=
  s.huskAct (s.huskShut || s.parityGated || decide (s.husk.st ≠ 5)) (if g ≠ s.husk.openGen then 6 else 0)
    (let s1 := s.setHusk 6
     let s2 : State := { s1 with husk := { s1.husk with foldEpoch := s.sched.placeEpoch } }
     let s3 := (s2.parBegin 3 []).journalDelta g
     if (s3.par 0).fail || (s3.par 1).fail then s3 else s3.parStart 4 (s3.parityEntries.map Prod.fst))

/-- A trailer is read again (R361, R372). -/
def execHuskTrailerPoll (h : Fin 2) (s : State) : Host.Outcome State Fault Refusal :=
  let p := s.par h
  let w := s.curEntry h
  if p.wait.isEmpty ∨ p.cur = none ∨ s.clock.lost = true then .next s
  else if p.work = 4 then
    let s1 := (s.updPar h (fun q => { q with asked := p.wait, wait := [] })).forEach p.wait (fun s m =>
      s.pull h m (hRec w m).2.1 ((hRec w m).2.2 + hLen w) (hLen w) 64)
    .next (s1.parGo h)
  else .next ((s.updPar h (fun q => { q with wait := [] })).parGo h)

/-- Add 1 to the seal gate of the coordinator, as a remote add that carries PlaceEpoch (R361). -/
def State.sealSignal (s : State) : State :=
  if s.husk.coord = s.devNum then s.gateAdd s.husk.sealGate 1
  else
    let h := s.logHub
    let txn := s.fab.nextTxn
    let s1 := { s with fab := { s.fab with nextTxn := (txn + 1) % 65536 } }
    let r := s1.sendPkt { s1.ownPkt 0x12 s.husk.coord (hubStream h) with
      epchk := true, epoch := s.sched.placeEpoch, addr := s.husk.sealGate, txn := txn, arg := 1 }
    match r.2 with
    | some _ => r.1
    | none => r.1.parError h 3 0

/-- The fold completes: the coordinator's seal gate is signalled and the module is READY (R361). -/
def execHuskFoldDone (s : State) : Host.Outcome State Fault Refusal :=
  if s.husk.st = 6 ∧ s.parDone 4 = true then
    let s1 := (s.parIdle 0).sealSignal
    .next (if (s1.par 0).fail || (s1.par 1).fail then s1 else s1.setHusk 7)
  else .next s

/-- Steps 1 to 3 of R362 for SEAL g; the state is APPLYING, or stays FENCED (R369). -/
def State.sealApply (s : State) (g : Nat) : State :=
  let s1 : State := { s with husk := { s.husk with gen := g, st := if s.husk.st = 7 then 8 else s.husk.st } }
  (s1.parBegin 5 []).applyAll g

/-- A SEAL that has no effect is counted (R362, R368, R369). -/
def State.staleSeal (s : State) : State := { s with husk := { s.husk with staleSeals := s.husk.staleSeals + 1 } }

/-- SEAL g acts on this module (R362, R369). -/
def State.sealAct (s : State) (g : Nat) : State :=
  let k := s.husk
  if k.flushing || k.flushed || k.lost.contains s.devNum then s.staleSeal
  else if k.st = 7 ∧ g = k.openGen then s.sealApply g
  else if k.st = 9 ∧ k.fencedFrom = 7 ∧ g = k.openGen ∧ k.settleAt.isSome = true ∧ k.sealSeen = false then
    ({ s with husk := { k with sealSeen := true } }).sealApply g
  else if k.st = 9 ∧ k.settleAt.isSome = true ∧ (k.fencedFrom = 8 ∨ k.fencedFrom = 3 ∨ k.sealSeen = true) ∧ g = k.gen then s
  else s.staleSeal

/-- HuskSeal g on the coordinator (R362). -/
def actHuskSeal (s : State) (g : Nat) : Act :=
  let r := s.devRead s.husk.sealGate 8
  let n := ofLe (r.2.getD [])
  s.huskAct (s.parityGated || decide (s.husk.st ≠ 7))
    (if g ≠ s.husk.openGen then 6 else if n < s.husk.members then 7 else 0)
    (((r.1.devWrite s.husk.sealGate (leBytes 8 (n - s.husk.members))).floodNew 2 (fencePayload 2 0 0 g)).sealAct g)

/-- The applications complete: SEALED, or still FENCED (R362, R367, R369). -/
def execHuskApplyDone (s : State) : Host.Outcome State Fault Refusal :=
  if s.parDone 5 = true ∧ (s.husk.st = 8 ∨ s.husk.st = 9) then
    let s1 := s.parIdle 0
    .next (if s1.husk.st = 8 then s1.setHusk 3 else s1)
  else .next s

/-! The fence. -/

/-- Work on an entry that names a lost device: its pulls end without effect, and the device counts as erased (R367, R372). -/
def State.dropLostPulls (s : State) (h : Nat) : State :=
  let p := s.par h
  if p.work ≠ 7 ∨ p.cur = none then s
  else
    let w := s.curEntry h
    let gone := fun m => s.husk.lost.contains (hRec w m).2.1
    let mine := fun (t : Option Txn) => match t with
      | some { owner := .husk k j, .. } => decide (k = h) && gone (j / 2 ^ 24)
      | _ => false
    let n := (s.fab.txns.filter (fun t => mine t.2)).length
    let s1 : State := { s with fab := { s.fab with txns := s.fab.txns.filter (fun t => !mine t.2) } }
    (s1.updPar h (fun p => { p with outst := p.outst - n, wait := p.wait.filter (fun m => !gone m) })).parGo h

/-- FENCE LOSS on this module (R367, R368). -/
def State.fenceLoss (s : State) (d : Nat) : State :=
  let s1 := (s.stopImage 4).collStop
  let l := s1.husk.lost
  let s2 := ({ s1 with husk := { s1.husk with lost := if l.contains d ∨ 64 ≤ l.length then l else l ++ [d] } }).post 0x0A01 3
    (srcHub s1.logHub 0xFF) [d]
  let k := s2.husk
  if k.st = 11 then
    let s3 := s2.forEach [0, 1] (fun s h => s.updPar h (fun p => { p with halt := true }))
    let s4 := (s3.dropLostPulls 0).dropLostPulls 1
    if k.fenced then s4
    else { s4 with husk := { s4.husk with st := 9, fenced := true, fencedFrom := 11, decision := 3, settleAt := some s.tsc, sealSeen := false } }
  else if k.st = 0 ∨ k.st = 1 ∨ k.st = 12 ∨ k.fenced = true then s2
  else if k.st = 2 then (s2.parIdle 0).setHusk 12
  else
    let s3 := if k.st = 6 then s2.parIdle 0 else s2
    { s3 with husk := { s3.husk with st := 9, fenced := true, fencedFrom := k.st, decision := 3, settleAt := some s.tsc, sealSeen := false } }

/-- A loss is declared: the module floods FENCE LOSS and acts on it (R366, R370). -/
def State.declareLost (s : State) (d : Nat) : State := (s.floodNew 2 (fencePayload 1 0 d 0)).fenceLoss d

/-- HuskDeclareLost (R370). -/
def actHuskDeclareLost (s : State) : Act := s.huskAct false 0 (s.declareLost s.devNum)

/-- The final HuskDecision (R368): 0 NONE, 1 BACK, 2 FORWARD. -/
def huskDecide (k : HuskSt) : Nat :=
  if k.fencedFrom = 8 ∨ k.sealSeen = true then 2
  else if k.fencedFrom = 4 ∨ k.fencedFrom = 5 ∨ k.fencedFrom = 6 ∨ k.fencedFrom = 7 then 1
  else 0

/-- The settle timer expires (R368). -/
def execRecoverySettleExpire (s : State) : Host.Outcome State Fault Refusal :=
  match s.husk.settleAt with
  | none => .next s
  | some t =>
    if t + s.husk.settle * 400 ≤ s.tsc ∧ s.clock.lost = false then
      .next { s with husk := { s.husk with settleAt := none, decision := huskDecide s.husk } }
    else .next s

/-- HuskRestore (R371): decision BACK in FENCED. -/
def actHuskRestore (s : State) : Act :=
  s.huskAct (s.huskShut || s.parityGated || !(decide (s.husk.st = 9 ∧ s.husk.decision = 1))) 0
    (((s.setHusk 10).parBegin 6 []).restoreAll s.husk.openGen)

def execHuskRestoreDone (s : State) : Host.Outcome State Fault Refusal :=
  if s.husk.st = 10 ∧ s.parDone 6 = true then .next ((s.parIdle 0).setHusk 9) else .next s

/-- The rebuild list at a local offset (R372). -/
def State.rebuildList (s : State) (o : Nat) : List (List Word) :=
  s.entriesAt ((o + 4 + 127) / 128 * 128) (ofLe (s.peek o 4))

/-- The checks of a rebuild list, with the codes of R357 (R354). -/
def State.listCheck (s : State) (o : Nat) : Nat :=
  let l := s.rebuildList o
  if hbmTop < o + 4 ∨ hbmTop < (o + 4 + 127) / 128 * 128 + 128 * l.length ∨
     l.any (fun w => extentBad (hw64 w 2, hLen w + (if hRole w < 8 then 0 else 64))) = true then 2
  else if l.any hVersionBad then 3
  else if l.any (fun w => decide (hKind w ≠ 3) || hFormatBad w) then 4
  else if l.any s.placementBad then 5
  else 0

/-- HuskRebuild (R372): from MAPPED, or from FENCED after the settle. -/
def actHuskRebuild (s : State) (o : Nat) : Act :=
  s.huskAct (s.huskShut || s.parityGated || !(decide (s.husk.st = 1 ∨ (s.husk.st = 9 ∧ s.husk.decision ≠ 3)))) (s.listCheck o)
    (let l := (o + 4 + 127) / 128 * 128
     let s1 := ((s.devTouch o 4).devTouch l (128 * (s.rebuildList o).length)).setHusk 11
     let s2 : State := { s1 with husk := { s1.husk with from_ := s.husk.st, list := s.rebuildList o } }
     s2.parStart 7 (List.range s2.husk.list.length))

/-- The rebuild ends: back to the state it came from; with STATE when a further loss ended it (R370, R372); FAILED when three
members of one group are erased. -/
def execHuskRebuildDone (s : State) : Host.Outcome State Fault Refusal :=
  let ended := [0, 1].all (fun h => (s.hub h).fenced || (decide ((s.par h).work = 7) && (s.par h).todo.isEmpty && decide ((s.par h).cur = none)))
  if !ended || s.parStopped then .next s
  else
    let bad := (s.par 0).fail || (s.par 1).fail
    let halted := (s.par 0).halt || (s.par 1).halt
    let s1 := s.parIdle 0
    let st := if bad then 12 else if s1.husk.st = 11 then s1.husk.from_ else s1.husk.st
    .next { s1 with husk := { s1.husk with st := st, result := if halted then 1 else s1.husk.result } }

/-- RECOVER RESUME on this module (R375). -/
def State.resumeAct (s : State) (epoch g : Nat) : State :=
  if s.husk.st = 9 ∨ s.husk.st = 1 then
    ({ s with husk := { s.husk with gen := g, lost := [], decision := 0, st := 3, fenced := false, settleAt := none, sealSeen := false } }).post
      0x0A03 1 (srcHub s.logHub 0xFF) (epoch :: w64 g)
  else s

/-- HuskResume (R375): [63:48] EPOCH, [47:0] GEN. -/
def actHuskResume (s : State) (v : Nat) : Act :=
  s.huskAct (s.parityGated || !(decide (s.husk.st = 9 ∨ s.husk.st = 1))) 0
    ((s.floodNew 3 (fencePayload 1 (v / 2 ^ 48) 0 (v % 2 ^ 48))).resumeAct (v / 2 ^ 48) (v % 2 ^ 48))

/-! Flush and action log. -/

/-- The flush begins: no engine takes a new entry (R378, R396). -/
def State.flushBegin (s : State) : State :=
  if s.husk.flushing || s.husk.flushed then s
  else
    let s1 := s.forEach [0, 1] (fun s h => s.updPar h (fun p => { p with halt := true }))
    { s1 with husk := { s1.husk with flushing := true } }

/-- The chunk writes in progress are finished and the engines stop, showing FLUSHED (R378). -/
def execHuskFlushDone (s : State) : Host.Outcome State Fault Refusal :=
  if s.husk.flushing ∧ s.clock.lost = false then
    let s1 := s.parIdle 8
    .next { s1 with husk := { s1.husk with flushing := false, flushed := true } }
  else .next s

/-- Is a write to this object recorded in the action log (R376)? -/
def loggedObj (idx : Nat) (act : Bool) : Bool :=
  let a := idx / 256
  (act && decide (a = 5 ∨ a = 6 ∨ a = 7 ∨ a = 9 ∨ a = 10 ∨ a = 11)) || decide (idx = 0x0B04)

/-- Append one record to the action log (R376). -/
def State.appendLog (s : State) (idx sub : Nat) (v : List Byte) : State :=
  let k := s.husk
  if k.logLen = 0 then s
  else
    let val := if v.length ≤ 32 then v else digest v
    let rec_ := leBytes 4 (3 * 2 ^ 24) ++ leBytes 4 (idx * 2 ^ 16 + sub * 2 ^ 8 + val.length) ++ leBytes 8 s.tsc ++ leBytes 8 s.opt.step ++
      leBytes 4 k.logNext ++ leBytes 4 0 ++ slice val 0 32
    let at_ := k.logBase + 64 * (k.logNext % k.logLen)
    let s1 := if at_ + 64 ≤ hbmTop then s.devWrite at_ rec_ else s
    { s1 with husk := { s1.husk with logNext := (k.logNext + 1) % 2 ^ 32 } }

end Sys2Proof.Machine
end

