-- ==== Sys2Proof/Machine/Identity.lean ====
section
/-! DEFINITION. The device's identity (R439, R440), its entropy (R441), its measurements (R445), attestation reports (R446,
R448), ownership as the fuses show it (R449), and the alignment of the TSC (R404, R405). -/

namespace Sys2Proof.Machine

/-! Identity. -/

def idSeed : List Byte := kdf "KRN-ID" Config.uds 32
def idPublic : List Byte := Config.dsaPublic idSeed
def idDigest : List Byte := digest idPublic
def sealKey : List Byte := kdf "KRN-SEAL" Config.uds 32
def signId (bs : List Byte) : List Byte := Config.dsaSign idSeed bs
def zeros (n : Nat) : List Byte := List.replicate n 0

/-- SerialNumber padded with zeros to 32 bytes. -/
def serial32 : List Byte := slice Config.serial 0 32

/-- Lexicographic order of byte strings of one length. -/
def bytesLt (a b : List Byte) : Bool := decide (ofBe a < ofBe b)

/-- 32 random bytes from the entropy source of a hub, or none once its health test has failed (R441). -/
def State.draw (s : State) (h : Nat) : State × Option (List Byte) :=
  if s.sec.entropyBad.contains h then (s, none) else ({ s with rndCtr := s.rndCtr + 1 }, some (Config.random32 s.rndCtr))

/-! Ownership and measurements. -/

/-- OWNED: the highest burnt slot is not released (R449). -/
def State.owned (s : State) : Bool := !s.fuses.slots.isEmpty && !s.fuses.released.contains (s.fuses.slots.length - 1)
def State.ownerDigest (s : State) : List Byte := if s.owned then s.fuses.slots.getLast?.getD (zeros 32) else zeros 32

/-- Extend a measurement register (R445). -/
def extendMr (mr x : List Byte) : List Byte := Config.shake256 (mr ++ x) 32

/-- JobImageList as 512 bytes in sub-index order (R453). -/
def State.imageList (s : State) : List Byte := (List.range 16).flatMap (fun i => slice (s.jobImages.get (zeros 32) (i + 1)) 0 32)

/-- MR2's input (R445). -/
def State.mr2Input (s : State) : List Byte :=
  leBytes 1 (if s.owned then 1 else 0) ++ s.ownerDigest ++ leBytes 1 s.fuses.svnFloor ++ leBytes 1 (if s.sec.dbgOpen then 1 else 0) ++
    digest s.imageList
def State.extendMr2 (s : State) (x : List Byte) : State := { s with sec := { s.sec with mr2 := extendMr s.sec.mr2 x } }

/-! Attestation reports. -/

/-- The body of a report over a nonce (R446). -/
def State.reportBody (s : State) (nonce : List Byte) : List Byte :=
  let b := leBytes 4 (3 * 2 ^ 24 + 3 * 2 ^ 16 + s.life * 2 ^ 8 + (if s.owned then 16 else 0) + (if s.sec.dbgOpen then 1 else 0)) ++
    leBytes 4 s.devNum ++ leBytes 8 s.tsc ++ slice nonce 0 32 ++ slice idDigest 0 32 ++ slice s.ownerDigest 0 32 ++
    slice s.sec.mr0 0 32 ++ slice s.sec.mr1 0 32 ++ slice s.sec.mr2 0 32 ++ slice s.sec.mr3 0 32 ++ slice s.sec.fwDigest 0 32 ++
    slice s.sched.digest 0 32 ++ leBytes 4 (s.fuses.svnFloor * 256 + s.sec.runningSvn) ++ serial32
  slice b 0 512

/-- The report (R446). -/
def State.reportOver (s : State) (nonce : List Byte) : List Byte :=
  let b := s.reportBody nonce ++ slice idPublic 0 1952 ++ slice Config.deviceCert 0 3309
  slice (b ++ signId b) 0 9216

def rpVer (b : List Byte) : Nat := leAt b 3 1
def rpGen (b : List Byte) : Nat := leAt b 2 1
def rpDbg (b : List Byte) : Nat := leAt b 0 1 % 16
def rpOwn (b : List Byte) : Nat := leAt b 0 1 / 16
def rpDev (b : List Byte) : Nat := leAt b 4 4 % 2 ^ 17
def rpNonce (b : List Byte) : List Byte := slice b 16 32
def rpId (b : List Byte) : List Byte := slice b 48 32
def rpOwner (b : List Byte) : List Byte := slice b 80 32
def rpFw (b : List Byte) : List Byte := slice b 240 32
def rpSerial (b : List Byte) : List Byte := slice b 308 32
def rpKey (b : List Byte) : List Byte := slice b 512 1952
def rpCert (b : List Byte) : List Byte := slice b 2464 3309
def rpSig (b : List Byte) : List Byte := slice b 5773 3309

/-- R7 on a report: version, reserved fields, and the fields that its version lacks. -/
def reportShape (b : List Byte) : Bool :=
  decide (b.length = 9216) && decide (1 ≤ rpVer b ∧ rpVer b ≤ 3) && decide (leAt b 4 4 < 2 ^ 17) && decide (rpOwn b ≤ 1) && decide (rpDbg b ≤ 1) &&
  decide (leAt b 306 2 = 0) && allZero (slice b 340 172) && allZero (b.drop 9082) &&
  (decide (rpVer b = 3) || (allZero (slice b 208 32) && allZero (slice b 272 32)))

/-- R448: the checks of a peer's report over the nonce that this port sent. -/
def State.reportOk (s : State) (nonce b : List Byte) : Bool :=
  reportShape b && [1, 2, 3, 0x10].contains (rpGen b) && decide (rpNonce b = nonce) &&
  Config.dsaVerify Config.vendorCaKey (digest (rpSerial b ++ rpKey b)) (rpCert b) &&
  decide (rpId b = digest (rpKey b)) && Config.dsaVerify (rpKey b) (b.take 5773) (rpSig b) && decide (rpDbg b = 0) &&
  (decide (rpGen b = 0x10) || decide (rpOwner b = s.ownerDigest))

/-! Alignment. -/

/-- TscAligned becomes 0 (R405): cause 1 error, 2 parent port, 3 reference, 4 lock. -/
def State.unalign (s : State) (cause : Nat) : State :=
  let s1 : State := { s with align := { s.align with aligned := false, good := 0 } }
  if s.align.aligned then s1.post 0x0304 1 0x604 [cause] else s1

/-- The error of a KEEPALIVE on the parent port (R405). -/
def tscErr (remote delay loc : Nat) : Int := signed 64 ((remote + delay + 2 ^ 64 - loc % 2 ^ 64) % 2 ^ 64)

/-- The correction of R405 by one KEEPALIVE on the parent port, then TscAligned. -/
def State.alignBy (s : State) (err : Int) : State :=
  let a := s.align
  let s1 : State := { s with align := { a with err := err } }
  let s2 :=
    if a.aligned = false ∧ s.sched.st ≠ 3 ∧ 64 < err.natAbs then
      ({ s1 with tsc := ((s.tsc : Int) + err).toNat % 2 ^ 64, align := { s1.align with slew := 0 } }).post 0x0303 1 0x604 [unsigned 32 err]
    else { s1 with align := { s1.align with slew := if 1 < err then 1 else if err < -1 then -1 else 0 } }
  if 64 < err.natAbs then s2.unalign 1
  else if 4 < err.natAbs then { s2 with align := { s2.align with good := 0 } }
  else { s2 with align := { s2.align with good := a.good + 1, aligned := a.aligned || decide (16 ≤ a.good + 1) } }

end Sys2Proof.Machine
end

