-- ==== Sys2Proof/Machine/Links.lean ====
section
/-! DEFINITION. The link layer of the 40 ports (R264 to R279): frame words, credits, transmission, groups and their tags,
replay, keep-alives, the loss of a peer, and the detection of a lost neighbour (R365). Frames are kept in the plaintext that
R277 encrypts; the tag is computed over it (log 8). -/

namespace Sys2Proof.Machine

/-- Event source of a link port (R430). -/
def srcPort (p : Nat) : Nat := srcHub (portHub p) p

/-- Put something on the module's outputs. -/
def State.emit (s : State) (o : Out) : State := { s with out := o :: s.out }

/-! Leaving UP. -/

/-- A collective whose packet or write fails (R327): once, since its sequencer then runs no more. -/
def State.collFail (s : State) (h status : Nat) : State :=
  let k := (s.hub h).coll
  if k.st ≠ 1 ∧ k.st ≠ 2 then s else
  let s1 := s.updColl h (fun c => { c with
    err := if c.err = 0 then BitVec.ofNat 32 (status * 2 ^ 28 + c.index * 2 ^ 20) else c.err })
  let s2 : State := { s1 with fab := { s1.fab with collErrors := s1.fab.collErrors + 1 } }
  (((s2.post 0x0904 2 (srcHub h 0x52) [4 + h, k.index, status]).stopImage 4).collDo h collHalt).collForget h

/-- An outstanding request ends with a status. -/
def State.endTxn (s : State) (t : Txn) (status : Nat) : State :=
  match t.owner with
  | .stream c slot kinds => s.respond c slot kinds [] status
  | .gateAdd c => s.signalFree c
  | .coll h => s.collFail h status
  | .husk h job => s.pullErr h job status

/-- Every outstanding request that left on a port is answered with LINK (R279). -/
def State.failTxns (s : State) (p : Nat) : State :=
  let mine := s.fab.txns.filterMap (fun t => t.2.bind (fun x => if x.port = p then some x else none))
  let s1 : State := { s with fab := { s.fab with txns := s.fab.txns.filter (fun t => !(t.2.any (fun x => decide (x.port = p)))) } }
  s1.forEach mine (fun s t => s.endTxn t 7)

/-- A port's transmit queues and replay buffer are dropped (R279). -/
def PortSt.dropTx (q : PortSt) : PortSt :=
  { q with txFlood := [], txLink := [], txObj := [], txReq := [], txRsp := [], txBulk := [], buf := [], resend := [], resendFor := none,
           resendFrom := none, resent := [] }

/-- Credits of the control lane only: no other channel's outlive a port's time as UP (R271, R286). -/
def ctrlCredit (credit : List Nat) : List Nat := credit.mapIdx (fun j c => if j = 0 then c else 0)

/-- The link-down event and R279 for a port that leaves UP; cause 1 signal, 2 keep-alive, 3 replay, 4 control, 5 clock. -/
def State.leaveUp (s : State) (p cause : Nat) (keepControl : Bool) : State :=
  let s1 := s.updPort p (fun q => { q.dropTx with
    credit := ctrlCredit q.credit, credPend := ctrlCredit q.credPend, peerCred := ctrlCredit q.peerCred,
    credSent := q.credSent.filter (fun x => decide (x.2.1 = 1)),
    ingress := if keepControl then q.ingress.filter (fun x => decide (x.code = 1 ∨ x.code = 5)) else [] })
  let s2 : State := { s1 with fab := { s1.fab with reelHeld := s1.fab.reelHeld.filter (fun h => decide (h.1 ≠ p)) } }
  let drop := fun (k : CollSt) => { k with held := k.held.filter (fun h => decide (h.1 ≠ p)) }
  (((s2.updColl 0 drop).updColl 1 drop).failTxns p).post 0x0801 1 (srcPort p) [p, cause]

/-- The Waltz of a port starts from nothing: no keys, no messages, and the credits of R271. -/
def PortSt.fresh (q : PortSt) : PortSt :=
  { q.dropTx with
    hold := 0, ver := 0, ingress := [], credit := [32, 0, 0, 0, 0], credPend := [0, 0, 0, 0, 0],
    peerCred := [32, 0, 0, 0, 0], credSent := [], fseq := 0, begun := false, txGroup := [], txCtr := 0, txTag := [],
    rxNext := 0, rxGroup := [], rxHeld := [], rxBad := false, ack := 0, nak := false, rxCtr := 0, enc := false, keyTx := [], keyRx := [],
    fixTx := [], fixRx := [], nonce := [], ekSeed := [], mseqTx := 0, sent := [], rcvd := [], secretOut := [],
    ownVerdict := none, peerVerdict := none, rate := 0, peerFlags := 0 }

/-- R365: a torus port has left UP by R278. The first such port of a direction opens a window over the ports that are UP;
when the last of them leaves within LossWindow, the neighbour is lost. -/
def State.lossCheck (s : State) (p : Nat) : State :=
  let dir := p / 6
  let up := ((List.range 6).map (fun k => 6 * dir + k)).filter (fun x => decide ((s.port x).st = 8))
  let w := match s.fab.lossWin.get none dir with
    | some (t, need) => if s.tsc ≤ t + s.husk.lossWindow * 400 then (t, need.filter (fun x => decide (x ≠ p))) else (s.tsc, up)
    | none => (s.tsc, up)
  if w.2.isEmpty then
    let s1 : State := { s with fab := { s.fab with lossWin := s.fab.lossWin.set none dir none } }
    s1.declareLost (fld (s.port p).seenPeer 16 0)
  else { s with fab := { s.fab with lossWin := s.fab.lossWin.set none dir (some w) } }

/-- A port goes DOWN, by R279 when it was UP; a loss by R278 (causes 1 and 2) counts for R365. -/
def State.portDown (s : State) (p cause : Nat) : State :=
  let old := (s.port p).st
  let s1 := if old = 8 then s.leaveUp p cause false else s
  let s2 := s1.updPort p (fun q => { q.fresh with st := 1, downTick := s.tsc })
  let s3 := if s2.align.mode = 2 ∧ s2.align.parent = p ∧ (old = 7 ∨ old = 8) then s2.unalign 2 else s2
  let s4 := if old = 8 ∧ (cause = 1 ∨ cause = 2) ∧ p < 36 then s3.lossCheck p else s3
  s4.lifeRefresh

/-- A port enters HELD with a reason of R286, which posts the link-held event, from HELD too when step 6 has run again (R287). It keeps the
version that its Waltz chose (R281). -/
def State.portHold (s : State) (p reason : Nat) : State :=
  let old := (s.port p).st
  let s1 := if old = 8 then s.leaveUp p 4 true else s
  let s2 := s1.updPort p (fun q => { q with st := 7, hold := reason })
  (s2.post 0x0802 2 (srcPort p) [p, reason, (s2.port p).seenPeer.toNat]).lifeRefresh

/-- May ports train: the lifecycle is READY, JOINED or RUNNING, the hub works and its PORTS enable is set (R279, R289, R393)? -/
def State.mayTrain (s : State) (p : Nat) : Bool :=
  decide (2 ≤ s.life ∧ s.life ≤ 4) && !(s.hub (portHub p)).fenced && (s.hub (portHub p)).clken.getLsbD 3 && !s.clock.lost

/-- Lane training begins: step 1 of the Waltz (R280, R282). -/
def State.startTrain (s : State) (p : Nat) : State :=
  (s.updPort p (fun q => { q.fresh with st := 2, stepStart := s.tsc })).emit (.train p)

/-! Frame words. -/

/-- The 136-bit frame word of R268 as 17 bytes, TAGPART as given. -/
def frameWordBytes (w : FrameWord) (tag : Nat) : List Byte :=
  let sl := ((List.range 20).zip w.slotc).foldl (fun n p => n + (p.2 % 8) * 2 ^ (76 + 3 * p.1)) 0
  leBytes 17 (sl + w.fseq * 2 ^ 64 + w.ackseq * 2 ^ 52 + (if w.nak then 2 ^ 51 else 0) + w.crkind * 2 ^ 48 + w.crcnt * 2 ^ 37 +
    w.keyph * 2 ^ 36 + tag)

/-- The tag of a group of four frames (R277). -/
def groupTag (key fix : List Byte) (ctr : Nat) (fs : List Frame) : List Byte :=
  Config.gcmTag key (fix ++ leBytes 8 ctr) (fs.flatMap (fun f => frameWordBytes f.word 0)) (fs.flatMap (fun f => f.slots.flatten))

/-- The quarter of a tag that frame `i` of the next group carries: bits [127:96] in its first frame (R277). -/
def tagPart (tag : List Byte) (i : Nat) : Word := BitVec.ofNat 32 (ofLe (slice tag (12 - 4 * i) 4))

/-- The tag that the frames of a group carry for the group before. -/
def tagOfParts (fs : List Frame) : List Byte := (fs.reverse).flatMap (fun f => leBytes 4 f.word.tagpart.toNat)

/-! Credits. -/

/-- Does a port return credits of a kind and send slots of a code now: everything when UP, control only in shed stage 4 and
when HELD or in the Waltz (R271, R286, R396)? -/
def State.controlOnly (s : State) (p : Nat) : Bool := decide ((s.port p).st ≠ 8) || decide (4 ≤ s.power.stage)

/-- May a CTRL slot be carried: UP, or held with NEIGHBOUR, NOMAP or PEERHELD (R286)? -/
def PortSt.carriesCtrl (q : PortSt) : Bool := decide (q.st = 8) || (decide (q.st = 7) && decide (q.hold = 6 ∨ q.hold = 7 ∨ q.hold = 8))

/-- The credit return of the next frame: control first, then the others in turn (R272): kind and count. -/
def PortSt.pickCredit (q : PortSt) (ctrlOnly : Bool) : Nat × Nat :=
  if 0 < q.credPend.getD 0 0 then (1, min 2047 (q.credPend.getD 0 0))
  else if ctrlOnly then (0, 0)
  else
    match ((List.range 4).map (fun i => 1 + (q.rrCred + i) % 4)).find? (fun k => decide (0 < q.credPend.getD k 0)) with
    | some k => (k + 1, min 2047 (q.credPend.getD k 0))
    | none => (0, 0)

/-! Transmission. -/

/-- Take the first slot of the first packet of a queue. -/
def popSlot : List TxPk → Option (Nat × List Byte) × List TxPk
  | [] => (none, [])
  | t :: ts =>
    match t.slots with
    | [] => (none, ts)
    | [x] => (some (t.code, x), ts)
    | x :: xs => (some (t.code, x), { t with slots := xs, entry := false } :: ts)

/-- May the first packet of a queue send a slot: its channel holds credit for what remains of it, and 16 more when it enters a
ring here (R271, R298)? -/
def PortSt.headOk (q : PortSt) (ts : List TxPk) (code : Nat) : Bool :=
  match ts with
  | [] => false
  | t :: _ => decide (t.slots.length + (if t.entry then 16 else 0) ≤ portCredit q code)

/-- Spend a credit of a channel: its reserved credits first, shared ones second (R271). -/
def PortSt.spend (q : PortSt) (code : Nat) : PortSt := { q with credit := spendFrom (poolFor q.credit code) q.credit }

/-- The next slot of a frame (R273, R307): flooded packets, link messages, at most four object slots in a microsecond, then the
other channels in turn. A flooded packet is one slot and goes between the slots of an object packet (DEDUCED, log 81). -/
def PortSt.nextSlot (q : PortSt) (ctrlOnly : Bool) (us : Nat) : PortSt × Option (Nat × List Byte) :=
  let q := if q.objTick = us then q else { q with objTick := us, objSent := 0 }
  let flood := q.carriesCtrl && !q.txFlood.isEmpty && decide (0 < q.credit.getD 0 0)
  let obj := q.carriesCtrl && decide (q.objSent < 4) && q.headOk q.txObj 1
  if flood then
    let r := popSlot q.txFlood
    (({ q with txFlood := r.2 }).spend 1, r.1)
  else if !q.txLink.isEmpty && decide (0 < q.credit.getD 0 0) then
    let r := popSlot q.txLink
    (({ q with txLink := r.2 }).spend 5, r.1)
  else if obj then
    let r := popSlot q.txObj
    (({ q with txObj := r.2, objSent := q.objSent + 1 }).spend 1, r.1)
  else if ctrlOnly then (q, none)
  else
    let qs := fun k => if k = 0 then q.txReq else if k = 1 then q.txRsp else q.txBulk
    match ((List.range 3).map (fun i => (q.rrTx + i) % 3)).find? (fun k => q.headOk (qs k) (k + 2)) with
    | none => (q, none)
    | some k =>
      let r := popSlot (qs k)
      let q1 := if k = 0 then { q with txReq := r.2 } else if k = 1 then { q with txRsp := r.2 } else { q with txBulk := r.2 }
      (({ q1 with rrTx := (k + 1) % 3 }).spend (k + 2), r.1)

/-- Fill `n` slots of a frame. -/
def PortSt.fill (q : PortSt) (ctrlOnly : Bool) (us : Nat) : Nat → PortSt × List (Nat × List Byte)
  | 0 => (q, [])
  | n + 1 =>
    let r := q.nextSlot ctrlOnly us
    match r.2 with
    | none => (r.1, [])
    | some x =>
      let t := PortSt.fill r.1 ctrlOnly us n
      (t.1, x :: t.2)

/-- The key of a group counter: at each 2 ^ 30 groups the next phase's key (R456). -/
def phaseKey (key : List Byte) (ctr : Nat) : List Byte := if ctr ≠ 0 ∧ ctr % 2 ^ 30 = 0 then kdf "KRN-NEXT" key 32 else key

/-- A new frame (R268, R273, R276, R277). The first one after lane training is empty, with the frame word's reset values (R268). -/
def PortSt.newFrame (q : PortSt) (ctrlOnly : Bool) (us : Nat) : PortSt × Frame :=
  let r := if q.begun then q.fill ctrlOnly us 20 else (q, [])
  let q1 := r.1
  let i := q1.fseq % 4
  let cr := if q.begun then q1.pickCredit ctrlOnly else (0, 0)
  let w : FrameWord := {
    slotc := (List.range 20).map (fun j => (r.2.getD j (0, [])).1), fseq := q1.fseq, ackseq := if q.begun then q1.ack else 0, nak := q.begun && q1.nak, crkind := cr.1,
    crcnt := cr.2, keyph := if q1.enc then q1.txCtr / 2 ^ 30 % 2 else 0, tagpart := tagPart q1.txTag i }
  let f : Frame := { word := w, slots := (List.range 20).map (fun j => slice (r.2.getD j (0, [])).2 0 256) }
  let group := q1.txGroup ++ [f]
  let q2 := { q1 with
    begun := true, buf := (q1.buf ++ [f]).drop (q1.buf.length + 1 - 64), txGroup := if i = 3 then [] else group, fseq := (q1.fseq + 1) % 4096,
    credSent := if cr.1 = 0 then q1.credSent else q1.credSent ++ [(q1.fseq, cr.1, cr.2)],
    credPend := if cr.1 = 0 then q1.credPend else q1.credPend.mapIdx (fun j c => if j + 1 = cr.1 then c - cr.2 else c),
    rrCred := if 2 ≤ cr.1 then (cr.1 - 1) % 4 else q1.rrCred }
  if i = 3 then
    if q2.enc then
      let key := phaseKey q2.keyTx q2.txCtr
      ({ q2 with keyTx := key, txTag := groupTag key q2.fixTx q2.txCtr group, txCtr := q2.txCtr + 1 }, f)
    else ({ q2 with txTag := [] }, f)
  else (q2, f)

/-- The frames to resend after ACKSEQ `a` (R275). -/
def PortSt.after (q : PortSt) (a : Nat) : List Frame :=
  let start := (a + 1) % 4096 / 4 * 4
  q.buf.dropWhile (fun f => decide (f.word.fseq ≠ start))

/-- Frames flow on a port from the end of lane training on. -/
def PortSt.framing (q : PortSt) : Bool := decide (3 ≤ q.st ∧ q.st ≤ 8)

/-- The times that the group beginning at an FSEQ was resent in succession (R276). -/
def PortSt.resentOf (q : PortSt) (g : Nat) : Nat := ((q.resent.find? (fun x => decide (x.1 = g))).map Prod.snd).getD 0

/-- A resend begins, at a group boundary, when a NAK asks for one and the buffer still holds its frames (R275). -/
def PortSt.startResend (q : PortSt) : PortSt :=
  match q.resend, q.resendFrom with
  | [], some a => if q.fseq % 4 = 0 then { q with resend := q.after a, resendFor := some a, resendFrom := none } else q
  | _, _ => q

/-- A resent frame leaves; the first one of a group counts the group (R276). -/
def PortSt.countResent (q : PortSt) (f : Frame) : PortSt :=
  let g := f.word.fseq
  if g % 4 = 0 then { q with replays := q.replays + 1, resent := (g, q.resentOf g + 1) :: q.resent.filter (fun x => decide (x.1 ≠ g)) }
  else q

/-- The packets of a queue that have wholly left it. -/
def txGone (old new : List TxPk) : List TxPk := old.take (old.length - new.length)

/-- A port sends a new frame; the bytes of landings that leave with it count for them (R223). -/
def State.sendNew (s : State) (p : Nat) : State :=
  let q := s.port p
  let r := q.newFrame (s.controlOnly p) (s.tsc / 400)
  ((s.updPort p (fun _ => r.1)).emit (.frame p r.2)).forEach ((txGone q.txBulk r.1.txBulk).filterMap TxPk.land) State.landingLeft

/-- FRAME_TRANSMIT (R273, R275): a frame of a resend, or a new frame; the eighth resend in succession of one group fails the port
(R276). -/
def execFrameTransmit (p : Fin 40) (s : State) : Host.Outcome State Fault Refusal :=
  if !(s.port p).framing || s.clock.lost then .next s
  else
    let q := (s.port p).startResend
    match q.resend with
    | f :: rest =>
      let q1 := { q.countResent f with resend := rest }
      let s1 := s.updPort p (fun _ => q1)
      if f.word.fseq % 4 = 0 ∧ 8 ≤ q1.resentOf f.word.fseq then .next (s1.portDown p 3) else .next (s1.emit (.frame p f))
    | [] => .next ((s.updPort p (fun _ => q)).sendNew p)

/-! Reception. -/

/-- How many of the lowest `n` bits are set. -/
def popcount (n : Nat) : Nat → Nat
  | 0 => 0
  | k + 1 => (if n.testBit k then 1 else 0) + popcount n k

/-- A slot of an accepted frame: into the ingress buffer, or discarded and counted (R269, R286). Its pool is the one that the peer drew it
from, which the credits that the peer had by its ACKSEQ show (R271, R272). -/
def PortSt.takeSlot (q : PortSt) (code : Nat) (bs : List Byte) : PortSt :=
  let pool := poolFor q.peerCred code
  let q1 := { q with peerCred := spendFrom pool q.peerCred }
  let taken := { q1 with ingress := q1.ingress ++ [{ code := code, data := bs, pool := pool }] }
  if code = 0 then q
  else if 6 ≤ code then { q with heldDisc := q.heldDisc + 1 }
  else if code = 5 then taken
  else if code = 1 then
    if q.carriesCtrl then taken else { q1 with heldDisc := q.heldDisc + 1, credPend := bump 0 1 q.credPend }
  else if q.st = 8 then taken
  else { q1 with heldDisc := q.heldDisc + 1 }

/-- Is frame number `x` at or before frame number `a`, in the counting modulo 4,096? -/
def ackedBy (a x : Nat) : Bool := decide ((a + 4096 - x) % 4096 < 2048)

/-- The peer has accepted what this side sent up to an ACKSEQ: its credits among it, and groups that were resent (R272, R276). -/
def PortSt.peerAck (q : PortSt) (a : Nat) : PortSt :=
  let seen := q.credSent.filter (fun x => ackedBy a x.1)
  { q with peerCred := seen.foldl (fun c x => bump (x.2.1 - 1) x.2.2 c) q.peerCred,
           credSent := q.credSent.filter (fun x => !ackedBy a x.1), resent := q.resent.filter (fun x => !ackedBy a x.1) }

/-- One frame of an accepted group: its credits, ACKSEQ and NAK, then its slots (R272, R275, R276). A NAK that repeats the one whose resend
is under way has no effect. -/
def PortSt.takeFrame (q : PortSt) (f : Frame) : PortSt :=
  let w := f.word
  let busy := q.resendFor = some w.ackseq ∧ q.resend.isEmpty = false
  let q1 := { q.peerAck w.ackseq with
    ack := w.fseq,
    credit := if w.crkind = 0 ∨ 6 ≤ w.crkind then q.credit else bump (w.crkind - 1) w.crcnt q.credit,
    resendFrom := if w.nak ∧ ¬ busy then some w.ackseq else q.resendFrom }
  (w.slotc.zip f.slots).foldl (fun q x => q.takeSlot x.1 x.2) q1

/-- The group in hand fails: it and what follows is discarded until the resend, which begins with the group after ACKSEQ (R275). -/
def PortSt.failGroup (q : PortSt) : PortSt :=
  { q with rxGroup := [], rxHeld := [], rxBad := true, nak := true, rxNext := (q.ack + 1) % 4096 / 4 * 4 }

/-- A frame whose codewords all decoded and whose FSEQ is the next; the second part says that a tag failed (R275, R277). -/
def PortSt.goodFrame (q : PortSt) (f : Frame) : PortSt × Bool :=
  let q1 := { q with rxBad := false, nak := false, rxNext := (q.rxNext + 1) % 4096, rxGroup := q.rxGroup ++ [f] }
  if q1.rxGroup.length < 4 then (q1, false)
  else if !q1.enc then ({ (q1.rxGroup.foldl PortSt.takeFrame q1) with rxGroup := [] }, false)
  else if q1.rxHeld.isEmpty then ({ q1 with rxHeld := q1.rxGroup, rxGroup := [] }, false)
  else
    let key := phaseKey q1.keyRx q1.rxCtr
    if tagOfParts q1.rxGroup = groupTag key q1.fixRx q1.rxCtr q1.rxHeld then
      let q2 := q1.rxHeld.foldl PortSt.takeFrame { q1 with keyRx := key, rxCtr := q1.rxCtr + 1 }
      ({ q2 with rxHeld := q2.rxGroup, rxGroup := [] }, false)
    else (q1.failGroup, true)

/-- Is the codeword of a lane uncorrectable: more than 15 symbol errors, or a LANE not its own (R267, R268)? -/
def badLane (obs : FrameObs) (l : Nat) : Bool := decide (15 < obs.errors.getD l 0) || decide (obs.lane.getD l l ≠ l)
def badLanes (obs : FrameObs) : Nat := ((List.range 8).filter (badLane obs)).length
def correctedLanes (obs : FrameObs) : Nat := ((List.range 8).filter (fun l => !badLane obs l && decide (0 < obs.errors.getD l 0))).length

/-- Is a frame one that has come before: one of the 64 before the next? -/
def PortSt.seenFrame (q : PortSt) (f : Frame) : Bool := decide ((q.rxNext + 4095 - f.word.fseq) % 4096 < 64)

/-- FRAME_RECEIVE (R267, R268, R275 to R277). A frame resent after it was accepted is discarded without a NAK. A tag that fails during the
Waltz holds the port with KEYS (R286). -/
def execFrameReceive (p : Fin 40) (f : Frame) (obs : FrameObs) (s : State) : Host.Outcome State Fault Refusal :=
  let q := s.port p
  if !q.framing || s.clock.lost then .next s
  else
    let nb := badLanes obs
    let q1 := { q with fecC := q.fecC + correctedLanes obs, fecU := q.fecU + nb }
    if nb = 0 ∧ f.word.fseq = q1.rxNext then
      let r := q1.goodFrame f
      let s1 := s.updPort p (fun _ => r.1)
      .next (if r.2 = true ∧ (q.st = 5 ∨ q.st = 6) then s1.portHold p 3 else s1)
    else .next (s.updPort p (fun _ => if q1.rxBad || (decide (nb = 0) && q1.seenFrame f) then q1 else q1.failGroup))

/-! Link messages. -/

/-- The bytes of a link message (R281). -/
def linkBytes (ver typ mseq : Nat) (body : List Byte) : List Byte :=
  leBytes 4 (ver * 2 ^ 24 + typ * 2 ^ 16) ++ leBytes 4 body.length ++ leBytes 4 mseq ++ leBytes 4 0 ++ body

def slotsOf (bs : List Byte) : List (List Byte) := (List.range (cdiv bs.length 256)).map (fun i => slice bs (256 * i) 256)

/-- Queue a link message: version 1 before the verdict, the chosen version after it (R281). -/
def PortSt.say (q : PortSt) (typ : Nat) (body : List Byte) : PortSt :=
  let v := if q.ver = 0 then 1 else q.ver
  { q with mseqTx := q.mseqTx + 1, sent := if typ = 1 then q.sent else q.sent ++ [(typ, body)],
           txLink := q.txLink ++ [{ code := 5, slots := slotsOf (linkBytes v typ q.mseqTx body), entry := false }] }

/-- A link message leaves the ingress buffer (R272). -/
def State.linkTaken (s : State) (p : Nat) (m : LinkMsg) : State := s.freeIngress p 5 (cdiv (16 + m.body.length) 256)

/-- R7 on a link message: version and reserved fields. -/
def linkShape (m : LinkMsg) : Bool := decide (1 ≤ m.ver ∧ m.ver ≤ 3) && decide (m.rsvd = 0)

/-- KEEPALIVE_SEND (R278). -/
def execKeepaliveSend (p : Fin 40) (s : State) : Host.Outcome State Fault Refusal :=
  if (s.port p).framing && !s.clock.lost then
    .next (s.updPort p (fun q => q.say 1 (leBytes 8 s.tsc)))
  else .next s

/-- KEEPALIVE (R278, R404, R405); a malformed one is not accepted, and leaves the ingress buffer. A message of another TYPE is not this
event (log 42). -/
def execKeepalive (p : Fin 40) (m : LinkMsg) (s : State) : Host.Outcome State Fault Refusal :=
  let q := s.port p
  if !q.framing || s.clock.lost || decide (m.typ ≠ 1) then .next s
  else if !linkShape m || decide (m.body.length ≠ 8) then .next (s.linkTaken p m)
  else
    let r := ofLe m.body
    let s1 := (s.linkTaken p m).updPort p (fun q => { q with lastKa := s.tsc, kaRemote := r, kaLocal := s.tsc })
    .next (if s.align.mode = 2 ∧ s.align.parent = p.val then s1.alignBy (tscErr r q.linkDelay s.tsc) else s1)

/-- KEEPALIVE_TIMEOUT (R278): 2 µs without one. -/
def execKeepaliveTimeout (p : Fin 40) (s : State) : Host.Outcome State Fault Refusal :=
  if (s.port p).framing ∧ (s.port p).lastKa + 800 ≤ s.tsc ∧ s.clock.lost = false then .next (s.portDown p 2) else .next s

/-- Is a physical lane in use: not the lane that the spare replaces, nor an idle spare (R265, R289)? -/
def PortSt.laneUsed (q : PortSt) (l : Nat) : Bool :=
  if q.laneMap.testBit 4 then decide (l ≠ q.laneMap % 16) else decide (l < 8)

/-- LANE_SIGNAL_LOSS (R278). -/
def execLaneSignalLoss (p : Fin 40) (lanes : BitVec 9) (s : State) : Host.Outcome State Fault Refusal :=
  let q := s.port p
  let n := ((List.range 9).filter (fun l => lanes.getLsbD l && q.laneUsed l)).length
  if q.framing ∧ 2 ≤ n ∧ s.clock.lost = false then .next (s.portDown p 1) else .next s

/-! Port control (R289). -/

/-- PortControl DISABLE. -/
def State.portDisable (s : State) (p : Nat) : State :=
  (s.portDown p 4).updPort p (fun q => { q with st := 0 })

/-- PortControl ENABLE, DISABLE and RETRAIN by code; the owning hub's PORTS enable is part of the state (R289, R393). -/
def actPortControl (s : State) (p v : Nat) : Act :=
  let st := (s.port p).st
  if v = 2 then { eff := s.portDisable p }
  else if v = 1 then { bad := !s.mayTrain p || decide (st ≠ 0), eff := s.startTrain p }
  else if v = 3 then { bad := !s.mayTrain p || !(decide (st = 1 ∨ st = 7 ∨ st = 8)), eff := (if st = 1 then s else s.portDown p 4).startTrain p }
  else { inv := true, eff := s }

end Sys2Proof.Machine
end

