-- ==== Sys2Proof/Machine/Waltz.lean ====
section
/-! DEFINITION. The Waltz (R280 to R288): lane training, attestation, keys (R455), capability blocks (R284, R285), the choice of
a version, the neighbour check and the verdicts. -/

namespace Sys2Proof.Machine

/-- The next step of the Waltz begins at this tick. -/
def State.portStep (s : State) (p st : Nat) : State := s.updPort p (fun q => { q with st := st, stepStart := s.tsc })

/-- A DOWN port's WaltzRetryInterval expires (R279, R479). -/
def execWaltzRetry (p : Fin 40) (s : State) : Host.Outcome State Fault Refusal :=
  if (s.port p).st = 1 ∧ (s.port p).downTick + s.fab.waltzRetry * 400 ≤ s.tsc then
    .next (if s.mayTrain p then s.startTrain p else s.updPort p (fun q => { q with downTick := s.tsc }))
  else .next s

/-- The highest lane rate of a mask: 1, 2, 3 for 56, 112, 272 Gb/s; 0 for none (R266, R282). -/
def topRate (r : BitVec 3) : Nat := if r.getLsbD 2 then 3 else if r.getLsbD 1 then 2 else if r.getLsbD 0 then 1 else 0

/-- Lane training ends (R282): sparing, the marker's LinkDelay (R404), and the HELLO of step 2. -/
def execLaneTrainingDone (p : Fin 40) (rates : BitVec 3) (failed : BitVec 9) (delay : Nat) (s : State) :
    Host.Outcome State Fault Refusal :=
  let n := popcount failed.toNat 9
  if (s.port p).st ≠ 2 then .next s
  else if 2 ≤ n then .next ((s.portDown p 1).post 0x0803 2 (srcPort p) [p, failed.toNat])
  else if topRate rates = 0 then .next (s.portDown p 1)
  else
    let lane := ((List.range 8).find? (fun l => failed.getLsbD l)).map (fun l => 16 + l)
    let s1 := (s.portStep p 3).updPort p (fun q => { q with
      laneMap := lane.getD 0, rate := topRate rates, linkDelay := delay, lastKa := s.tsc })
    let r := s1.draw (portHub p)
    match r.2 with
    | none => .next (r.1.portHold p 3)
    | some nonce => .next (r.1.updPort p (fun q => ({ q with nonce := nonce }).say 2 (nonce ++ [1, 3])))

/-- A step exceeds its bound (R280). -/
def execWaltzStepTimeout (p : Fin 40) (s : State) : Host.Outcome State Fault Refusal :=
  let q := s.port p
  let ms := if q.st = 2 then 40 else if q.st = 3 then 5 else if q.st = 6 then 1 else 2
  if q.st < 2 ∨ 6 < q.st ∨ s.tsc < q.stepStart + ms * 400000 then .next s
  else if q.st = 2 then .next (s.portDown p 1)
  else .next (s.portHold p 9)

/-! Messages. -/

/-- The body of a message type that this side has sent or received. -/
def bodyOf (ms : List (Nat × List Byte)) (typ : Nat) : Option (List Byte) := (ms.find? (fun m => decide (m.1 = typ))).map Prod.snd

/-- A Waltz message of type `typ` arrives: discarded outside the frames' life; malformed, out of its step, or repeated, it holds
the port with CAPS in steps 2 to 6 (R281, R286); otherwise it is kept and has its effect. A message of another TYPE is not this event
(log 42). -/
def State.waltzMsg (s : State) (p typ step len : Nat) (m : LinkMsg) (eff : State → State) : State :=
  let q := s.port p
  if !q.framing || s.clock.lost || decide (m.typ ≠ typ) then s
  else
    let s1 := s.linkTaken p m
    if q.st < 3 ∨ 6 < q.st then s1
    else if !linkShape m || decide (q.st ≠ step) || decide (m.body.length ≠ len) || (bodyOf q.rcvd typ).isSome then s1.portHold p 4
    else eff (s1.updPort p (fun q => { q with rcvd := q.rcvd ++ [(typ, m.body)] }))

/-- HELLO (R282): the peer's nonce and version range; the report over its nonce goes back. -/
def execHello (p : Fin 40) (m : LinkMsg) (s : State) : Host.Outcome State Fault Refusal :=
  .next (s.waltzMsg p 2 3 34 m (fun s =>
    let rep := s.reportOver (m.body.take 32)
    s.updPort p (fun q => ({ q with peerMin := leAt m.body 32 1, peerMax := leAt m.body 33 1 }).say 3 rep)))

/-- What a report shows of the peer on a hold in steps 2 and 3 (R287); VALID stays 0 until a block has been read. -/
def PortSt.seeReport (q : PortSt) (b : List Byte) : PortSt :=
  { q with seenPeer := BitVec.ofNat 32 ((if rpGen b = 0x10 then 2 ^ 29 else 0) + rpDev b), seenKey := rpId b, seenFw := rpFw b,
           peerId := rpId b, peerFw := rpFw b }

/-- ATTEST (R282, R448). -/
def execAttest (p : Fin 40) (m : LinkMsg) (s : State) : Host.Outcome State Fault Refusal :=
  .next (s.waltzMsg p 3 3 9216 m (fun s =>
    let b := m.body
    let s1 := s.updPort p (fun q => q.seeReport b)
    if !s.reportOk (s.port p).nonce b then s1.portHold p 1
    else if !s.fab.fwAccept.isEmpty && !s.fab.fwAccept.contains (rpFw b) then s1.portHold p 2
    else
      let r := (s1.portStep p 4).draw (portHub p)
      match r.2 with
      | none => r.1.portHold p 3
      | some seed => r.1.updPort p (fun q => ({ q with ekSeed := seed }).say 4 (Config.kemPublic seed))))

/-- KEMEK (R282, R455): encapsulate to the peer's key. -/
def execKemek (p : Fin 40) (m : LinkMsg) (s : State) : Host.Outcome State Fault Refusal :=
  .next (s.waltzMsg p 4 4 1184 m (fun s =>
    let r := s.draw (portHub p)
    match r.2 with
    | none => r.1.portHold p 3
    | some x => r.1.updPort p (fun q => ({ q with secretOut := Config.kemShared m.body x }).say 5 (Config.kemCipher m.body x))))

/-- Is this side L, the one with the lower identity-key digest (R455)? -/
def PortSt.isLow (q : PortSt) : Bool := bytesLt idDigest q.peerId

/-- The transcript of R282: HELLO, ATTEST, KEMEK, KEMCT, of each the message of the side with the lower digest first. -/
def PortSt.transcript (q : PortSt) : List Byte :=
  digest ([2, 3, 4, 5].flatMap (fun t =>
    let a := (bodyOf q.sent t).getD []
    let b := (bodyOf q.rcvd t).getD []
    if q.isLow then a ++ b else b ++ a))

/-- KEMCT (R455): the direction keys; the decapsulation key and the secrets are erased; the capability block goes out (R284). -/
def State.capsBlock (s : State) (p : Nat) : List Byte :=
  let q := s.port p
  let ver := min 3 q.peerMax
  let w4 := if ver = 3 then 7 else 0
  let b := slice (leBytes 4 (ver * 2 ^ 24 + 3 * 2 ^ 16 + 3 * 2 ^ 8 + 1) ++ leBytes 4 (p * 2 ^ 26 + s.devNum) ++ leBytes 4 7 ++ leBytes 4 864 ++
    leBytes 4 w4 ++ slice q.transcript 0 32 ++ slice s.sec.fwDigest 0 32) 0 256
  slice (b ++ slice (signId b) 0 3309) 0 3584

def execKemct (p : Fin 40) (m : LinkMsg) (s : State) : Host.Outcome State Fault Refusal :=
  .next (s.waltzMsg p 5 4 1088 m (fun s =>
    let q := s.port p
    if q.secretOut.isEmpty then s.portHold p 4
    else
      let inn := Config.kemDecaps q.ekSeed m.body
      let low := q.isLow
      let t := q.transcript
      let k := kdf "KRN-LINK" ((if low then inn ++ q.secretOut else q.secretOut ++ inn) ++ t) 72
      let up := slice k 0 32
      let dn := slice k 32 32
      let fu := slice k 64 4
      let fd := slice k 68 4
      let s1 := (s.portStep p 5).updPort p (fun q => { q with
        enc := true, keyTx := if low then up else dn, keyRx := if low then dn else up, fixTx := if low then fu else fd,
        fixRx := if low then fd else fu, txCtr := 0, rxCtr := 0, ekSeed := [], secretOut := [] })
      s1.updPort p (fun q => q.say 6 (s1.capsBlock p))))

/-! Capability block of the peer. -/

def cbVer (b : List Byte) : Nat := leAt b 3 1
def cbGen (b : List Byte) : Nat := leAt b 2 1
def cbMax (b : List Byte) : Nat := leAt b 1 1
def cbMin (b : List Byte) : Nat := leAt b 0 1
def cbPort (b : List Byte) : Nat := leAt b 4 4 / 2 ^ 26
def cbDev (b : List Byte) : Nat := leAt b 4 4 % 2 ^ 17

/-- R7 on a capability block: version, generation code, port code (R264), reserved fields, and W4 in a version that lacks it. -/
def capsShape (b : List Byte) : Bool :=
  decide (1 ≤ cbVer b ∧ cbVer b ≤ 3) && [1, 2, 3, 0x10].contains (cbGen b) && decide (leAt b 4 4 / 2 ^ 17 % 2 ^ 9 = 0) && decide (cbPort b ≤ 39) &&
  decide (leAt b 8 4 < 8) && decide (leAt b 16 4 < 8) && (decide (cbVer b = 3) || decide (leAt b 16 4 = 0)) && allZero (slice b 84 172) &&
  allZero (b.drop 3565)

/-- R285: does this side accept the block? -/
def PortSt.capsOk (q : PortSt) (b : List Byte) : Bool :=
  capsShape b && Config.dsaVerify (rpKey ((bodyOf q.rcvd 3).getD [])) (b.take 256) (slice b 256 3309) &&
  decide (slice b 20 32 = q.transcript) && decide (slice b 52 32 = q.peerFw) && decide (cbMax b = q.peerMax ∧ cbMin b = q.peerMin) &&
  decide (cbVer b = min 3 q.peerMax)

/-- SeenPeer from a block, in the layout of ExpectedPeer (R289). -/
def seenOf (b : List Byte) : Word :=
  BitVec.ofNat 32 (2 ^ 31 + (if cbGen b = 0x10 then 2 ^ 29 else 0) + cbPort b * 2 ^ 23 + cbDev b)

/-- The neighbour check of step 6 (R282, R286): 0, or the reason NEIGHBOUR or NOMAP. The KIND of ExpectedPeer is compared too, with the
kind that the peer's GEN shows (DEDUCED from R286's "differs from ExpectedPeer", log 77). -/
def PortSt.neighbourCheck (q : PortSt) : Nat :=
  if !q.expPeer.getLsbD 31 then 7
  else if fld q.expPeer 30 29 ≠ fld q.seenPeer 30 29 ∨ fld q.expPeer 28 23 ≠ fld q.seenPeer 28 23 ∨ fld q.expPeer 16 0 ≠ fld q.seenPeer 16 0 then 6
  else if !allZero q.expKey && decide (q.expKey ≠ q.seenKey) then 6
  else 0

/-- A port enters UP (R283): the chosen version, and the credits of R271, which its next frames return. -/
def State.portUp (s : State) (p : Nat) : State :=
  (s.updPort p (fun q => { q with
    st := 8, hold := 0, ver := min 3 q.peerMax, credPend := [q.credPend.getD 0 0, 64, 64, 64, 800] })).lifeRefresh

/-- Step 6 (R282, R283, R287): the verdict goes to the peer, and what this side says after it carries the chosen version (R281); UP with
both accepts, a hold otherwise; without the peer's verdict the port waits in CHECK, not held. -/
def State.stepSix (s : State) (p : Nat) : State :=
  let v := (s.port p).neighbourCheck
  let s1 := s.updPort p (fun q => { ({ q with ownVerdict := some v }).say 7 [BitVec.ofNat 8 v] with ver := min 3 q.peerMax })
  if v ≠ 0 then s1.portHold p v
  else
    match (s1.port p).peerVerdict with
    | some 0 => s1.portUp p
    | some _ => s1.portHold p 8
    | none => if (s1.port p).st = 6 then s1 else (s1.portStep p 6).updPort p (fun q => { q with hold := 0 })

/-- The FLAGS of a peer's block: in version 3, W4; a peer of version 1 or 2 is neither reducer, converter nor parity holder (R284). -/
def cbFlags (b : List Byte) : Nat := if cbVer b = 3 then leAt b 16 4 % 8 else 0

/-- CAPS (R282 to R285). -/
def execCaps (p : Fin 40) (m : LinkMsg) (s : State) : Host.Outcome State Fault Refusal :=
  .next (s.waltzMsg p 6 5 3584 m (fun s =>
    let b := m.body
    let q := s.port p
    if !q.capsOk b then s.portHold p 4
    else
      let s1 := (s.portStep p 6).updPort p (fun q => { q with seenPeer := seenOf b, peerFlags := cbFlags b })
      let v := min 3 q.peerMax
      if v < max 1 q.peerMin ∨ q.rate ≠ v then s1.portHold p 5 else s1.stepSix p))

/-- VERDICT (R281, R283, R287): kept; in CHECK it decides; an accept re-runs step 6 of a port held with PEERHELD. A code that R286
reserves makes it malformed (R7). -/
def execVerdict (p : Fin 40) (m : LinkMsg) (s : State) : Host.Outcome State Fault Refusal :=
  let q := s.port p
  if !q.framing || s.clock.lost || decide (m.typ ≠ 7) then .next s
  else
    let s1 := s.linkTaken p m
    let v := leAt m.body 0 1
    if 3 ≤ q.st ∧ q.st ≤ 5 then .next (s1.portHold p 4)
    else if q.st = 8 then .next s1
    else if !linkShape m ∨ m.body.length ≠ 1 ∨ 10 ≤ v then .next (if q.st = 6 then s1.portHold p 4 else s1)
    else
      let s2 := s1.updPort p (fun q => { q with peerVerdict := some v })
      if q.st = 6 then .next (if v = 0 then s2.portUp p else s2.portHold p 8)
      else if q.hold = 8 ∧ v = 0 then .next (s2.stepSix p)
      else .next s2

/-- A link message of a reserved type (R281). -/
def execLinkmsgReserved (p : Fin 40) (m : LinkMsg) (s : State) : Host.Outcome State Fault Refusal :=
  let q := s.port p
  if !q.framing || s.clock.lost || (decide (1 ≤ m.typ) && decide (m.typ ≤ 7)) then .next s
  else
    let s1 := s.linkTaken p m
    .next (if 3 ≤ q.st ∧ q.st ≤ 6 then s1.portHold p 4 else s1)

/-! ExpectedPeer. -/

/-- A value of ExpectedPeer that R289 refuses. -/
def expPeerBad (v : Word) : Bool := decide (2 ≤ fld v 30 29) || decide (39 < fld v 28 23) || decide (fld v 22 17 ≠ 0)

/-- Write ExpectedPeer or ExpectedPeerKey (R287, R289): a port held with NEIGHBOUR or NOMAP, or in CHECK, runs step 6 again; an UP
port whose check fails leaves for HELD with NEIGHBOUR. -/
def actExpectedPeer (s : State) (p : Nat) (w : PeerWrite) : Act :=
  let s1 := s.updPort p (fun q =>
    match w with
    | .peer v => { q with expPeer := v }
    | .key b => { q with expKey := b })
  let q := s1.port p
  { inv := match w with
      | .peer v => expPeerBad v
      | .key _ => false,
    eff :=
      if (q.st = 7 ∧ (q.hold = 6 ∨ q.hold = 7)) ∨ q.st = 6 then s1.stepSix p
      else if q.st = 8 ∧ q.neighbourCheck ≠ 0 then s1.portHold p 6
      else s1.lifeRefresh }

end Sys2Proof.Machine
end

