-- ==== Sys2Proof/Machine/D2d.lean ====
section
/-! DEFINITION. Die-to-die adapters (R11 to R14), the routes between dies (R15), and the fence of a hub (R17, R156). Adapter
number = die code * 4 + port; a hub's port number is the compute die it leads to. -/

namespace Sys2Proof.Machine

/-- The die at the far end of an adapter. -/
def farDie (a : Nat) : Nat :=
  let d := a / 4
  let k := a % 4
  if d < 4 then (if k = 0 then (d + 1) % 4 else if k = 1 then (d + 3) % 4 else k + 2) else k

/-- The adapter at the far end. -/
def farEnd (a : Nat) : Nat :=
  let d := a / 4
  let k := a % 4
  if d < 4 then (if k = 0 then (d + 1) % 4 * 4 + 1 else if k = 1 then (d + 3) % 4 * 4 else (k + 2) * 4 + d) else k * 4 + (d - 2)

/-- The compute-die end of a port, which names it in events (R430). -/
def computeEnd (a : Nat) : Nat := if a / 4 < 4 then a else farEnd a

/-! Flits. -/

def flHdr (f : List Byte) : Nat := leAt f 0 2
def flSeq (f : List Byte) : Nat := flHdr f % 64
def flClass (f : List Byte) : Nat := flHdr f / 64 % 4
def flSrc (f : List Byte) : Nat := flHdr f / 256 % 8
def flDst (f : List Byte) : Nat := flHdr f / 2048 % 8
def flVer (f : List Byte) : Nat := flHdr f / 16384

/-- A flit with its CRC (R11). -/
def mkFlit (dst src cls seq : Nat) (payload : List Byte) : List Byte :=
  let b := leBytes 2 (3 * 16384 + dst * 2048 + src * 256 + cls * 64 + seq) ++ slice payload 0 250
  b ++ leBytes 4 (crc32c b).toNat

/-- R12: a CRC that holds, a version (R7), and die codes that exist. -/
def flitOk (f : List Byte) : Bool :=
  decide (f.length = 256) && decide (leAt f 252 4 = (crc32c (f.take 252)).toNat) && decide (flVer f ≠ 0) && decide (flDst f < 6) && decide (flSrc f < 6)

/-- Is a flit a replay request (R13)? -/
def isReplay (f : List Byte) : Bool := decide (flClass f = 0) && decide (leAt f 2 1 = 0xFF)

/-- An adapter sends a new flit: the next SEQ, kept among its last 64 (R12, R13). -/
def State.sendFlit (s : State) (a : Nat) (x : Flit) : State :=
  let f := mkFlit x.dst x.src x.cls ((s.adapter a).txCount % 64) x.payload
  (s.updAdapter a (fun x => { x with
    txCount := x.txCount + 1, replay := (x.replay ++ [f]).drop (x.replay.length + 1 - 64) })).emit (.flit a f)

/-- Control flits leave before all others; the others wait their turn (R11). That they keep the order in which they came, whatever
their class, is the model's choice (log 66). -/
def State.queueFlit (s : State) (a : Nat) (x : Flit) : State :=
  if x.cls = 0 then s.sendFlit a x else s.updAdapter a (fun k => { k with queue := k.queue ++ [x] })

/-- What an adapter sends in one 2.5 ns tick: at most 20 waiting flits, five in each of four core cycles (R11, log 66). -/
def State.pumpFlits (s : State) (a : Nat) : State :=
  if (s.adapter a).up then
    ((s.adapter a).queue.take 20).foldl (fun t x => t.sendFlit a x) (s.updAdapter a (fun k => { k with queue := k.queue.drop 20 }))
  else s

/-! Routes (R15). -/

def State.adapterUp (s : State) (a : Nat) : Bool := (s.adapter a).up

/-- Are the ring ports up that lead from die `d` over `n` dies forward, or back? -/
def State.ringUp (s : State) (fwd : Bool) (d n : Nat) : Bool :=
  (List.range n).all (fun i => s.adapterUp (if fwd then (d + i) % 4 * 4 else (d + 4 - i) % 4 * 4 + 1))

/-- The way round the ring from one compute die to another: the shorter one, forward between opposite dies, and the other one when a port
of it is down; none when both are broken. -/
def State.ringWay (s : State) (d e : Nat) : Option Bool :=
  let n := (e + 4 - d) % 4
  let short := decide (n ≤ 2)
  if s.ringUp short d (if short then n else 4 - n) then some short
  else if s.ringUp (!short) d (if short then 4 - n else n) then some (!short)
  else none

/-- The compute die over which die `d` reaches hub `h`: itself, its ring-forward neighbour, its ring-back neighbour. -/
def State.hubGate (s : State) (d h : Nat) : Option Nat :=
  [d, (d + 1) % 4, (d + 3) % 4].find? (fun e => s.adapterUp (e * 4 + 2 + h) && (s.ringWay d e).isSome)

/-- Can a compute die reach a hub? -/
def State.reaches (s : State) (d h : Nat) : Bool := (s.hubGate d h).isSome

/-- The adapter by which compute die `d` sends toward compute die `e`. -/
def State.ringPort (s : State) (d e : Nat) : Option Nat := (s.ringWay d e).map (fun fwd => if fwd then d * 4 else d * 4 + 1)

/-- The adapter by which traffic on die `d` goes on to die `e`. From a hub to a compute die it takes the way of the opposite direction
reversed (DEDUCED, log 66). -/
def State.nextAdapter (s : State) (d e : Nat) : Option Nat :=
  if d = e then none
  else if d < 4 ∧ e < 4 then s.ringPort d e
  else if d < 4 then (s.hubGate d (e - 4)).bind (fun g => if g = d then some (d * 4 + 2 + (e - 4)) else s.ringPort d g)
  else if e < 4 then (s.hubGate e (d - 4)).map (fun g => d * 4 + g)
  else ((List.range 4).find? (fun c => s.adapterUp (d * 4 + c) && s.adapterUp (e * 4 + c))).map (fun c => d * 4 + c)

/-! Failure. -/

/-- Is a descriptor or a command of the image one that works over the link ports: a remote source or destination, a landing on the
Reel, or a signal to a remote gate? -/
def State.linkDesc (s : State) (d : List Word) : Bool := decide (dType d = 5) || s.gaRemote (dSrc d) || s.gaRemote (dDst d)
def State.linkCmd (s : State) (w : Cmd) : Bool :=
  s.gaRemote (sqGaddr w) && ((decide (cmdEng w = 3) && stSig w) || (decide (cmdEng w = 4) && decide (cmdOp w = 4)))

/-- Does the image use the link ports from compute die `d` (R15, log 67)? Every torus direction has ports on both hubs (R16). -/
def State.usesLinks (s : State) (d : Nat) : Bool :=
  s.sched.secs.any (fun x => decide (x.core / 34 = d) &&
    ((decide (x.typ = 6) && (List.range (x.len / 64)).any (fun i =>
        s.linkDesc (wordsLe 16 (s.peek (s.sched.imgOff + x.off + 64 * i) 64)))) ||
     (decide (x.typ = 1) && (List.range (x.len / 16)).any (fun i =>
        s.linkCmd (cmdOf (s.peek (s.sched.imgOff + x.off + 16 * i) 16))))))

/-- A hub is fenced (R17, R156): its ports go idle and its blocks take no work; a running image stops with HUB, and the event is
posted. -/
def State.fenceHub (s : State) (h : Nat) : State :=
  if (s.hub h).fenced then s
  else
    let s1 := if s.sched.st = 3 then (s.stopImage 6).post 0x0606 3 (srcHub h 0xFF) [4 + h] else s
    let s2 := s1.forEach (allPorts.filter (fun p => decide (portHub p = h))) (fun s p => if (s.port p).st = 0 then s else s.portDown p 4)
    let s3 := (s2.updHub h (fun k => { k with fenced := true, clken := 0, cpuEn := 0 })).parHandOver h
    if h = 0 then { s3 with mgmt := { s3.mgmt with linkUp := false } } else s3

/-- A port fails: both adapters are down, the event names both dies (R14); then the routes of R15 and the fence of R17. -/
def State.d2dFail (s : State) (a : Nat) : State :=
  if (s.adapter a).failed then s
  else
    let c := computeEnd a
    let down := fun (x : AdapterSt) => { x with up := false, failed := true, discarding := false }
    let s1 := ((s.updAdapter a down).updAdapter (farEnd a) down).post 0x0101 2 (c / 4 * 256 + 0xF0 + c % 4) [c / 4, farDie c]
    let s2 := s1.forEach [0, 1] (fun t h =>
      if !(t.hub h).fenced && (List.range 4).all (fun d => !t.adapterUp ((4 + h) * 4 + d)) then t.fenceHub h else t)
    s2.forEach ((List.range 4).flatMap (fun d => [(d, 0), (d, 1)])) (fun t x =>
      if !(t.hub x.2).fenced && s.reaches x.1 x.2 && !t.reaches x.1 x.2 then
        let t1 := t.post 0x0102 2 (x.1 * 256 + 0xFF) [x.1, 4 + x.2]
        if t1.usesLinks x.1 then t1.stopImage 4 else t1
      else t)

/-! Replay. -/

/-- The receiver asks for the SEQ it expects; the eighth request in succession fails the port (R12 to R14). -/
def State.askReplay (s : State) (a : Nat) : State :=
  let x := s.adapter a
  let s1 := (s.updAdapter a (fun x => { x with discarding := true, reqCount := x.reqCount + 1 })).queueFlit a
    { cls := 0, src := a / 4, dst := farDie a, payload := 0xFF :: BitVec.ofNat 8 x.rxExp :: [] }
  if 8 ≤ x.reqCount + 1 then s1.d2dFail a else s1

/-- The position, counted in flits sent since training, of the flit of the replay buffer that carries a SEQ (R13). -/
def AdapterSt.flitPos (x : AdapterSt) (seq : Nat) : Nat :=
  x.txCount - x.replay.length + (x.replay.takeWhile (fun f => decide (flSeq f ≠ seq))).length

/-- The sender resends from the named flit (R12); the eighth request for one position in succession fails the port (R14). -/
def State.replayFrom (s : State) (a seq : Nat) : State :=
  let x := s.adapter a
  let n := if x.askPos = some (x.flitPos seq) then x.askCount + 1 else 1
  let s1 := s.updAdapter a (fun y => { y with askPos := some (x.flitPos seq), askCount := n })
  if 8 ≤ n then s1.d2dFail a
  else s1.forEach (x.replay.dropWhile (fun f => decide (flSeq f ≠ seq))) (fun s f => s.emit (.flit a f))

/-- A flit in order reaches the die: it is delivered to the die that it names, or goes on over the next adapter of its route (R12, R15).
One without a route is dropped (DESIGN CHOICE, log 66). -/
def State.takeFlit (s : State) (a : Nat) (f : List Byte) : State :=
  if flDst f = a / 4 then s.updAdapter a (fun x => { x with delivered := f :: x.delivered })
  else
    match s.nextAdapter (a / 4) (flDst f) with
    | none => s
    | some b => s.queueFlit b { cls := flClass f, src := flSrc f, dst := flDst f, payload := slice f 2 250 }

/-! Commands. -/

/-- D2D_TRAINED (R13): numbering starts at 0. -/
def execD2dTrained (a : Fin 24) (s : State) : Host.Outcome State Fault Refusal :=
  .next (if s.clock.lost then s else s.updAdapter a (fun _ => { up := true }))

/-- D2D_FLIT_RECEIVE (R12, R13): delivered in order; a bad flit starts a discard and a replay request. A flit that passes the checks
and carries another SEQ while nothing is being discarded, such as a second copy, is dropped without a request: the manual names no action
for it (DESIGN CHOICE, log 66). -/
def execD2dFlitReceive (a : Fin 24) (flit : List Byte) (s : State) : Host.Outcome State Fault Refusal :=
  let x := s.adapter a
  if !x.up || s.clock.lost then .next s
  else if flitOk flit ∧ flSeq flit = x.rxExp then
    let s1 := s.updAdapter a (fun x => { x with rxExp := (x.rxExp + 1) % 64, discarding := false, reqCount := 0 })
    if isReplay flit then .next (s1.replayFrom a (leAt flit 3 1 % 64))
    else .next (s1.takeFlit a flit)
  else if flitOk flit || x.discarding then .next s
  else .next (s.askReplay a)

/-- D2D_REPLAY_REQUEST (R12). -/
def execD2dReplayRequest (a : Fin 24) (seq : Fin 64) (s : State) : Host.Outcome State Fault Refusal :=
  .next (if (s.adapter a).up && !s.clock.lost then s.replayFrom a seq else s)

/-- D2D_REPLAY_TIMEOUT (R13): the request goes out again. -/
def execD2dReplayTimeout (a : Fin 24) (s : State) : Host.Outcome State Fault Refusal :=
  .next (if (s.adapter a).up && (s.adapter a).discarding && !s.clock.lost then s.askReplay a else s)

end Sys2Proof.Machine
end

