-- ==== Sys2Proof/Machine/Coll.lean ====
section
/-! DEFINITION. Collectives (R311 to R327): the checks of a table, the program that a descriptor is on this member, the reducer's
arithmetic (R318, R319), COLL packets (R320 to R322), and the sequencer's run. -/

namespace Sys2Proof.Machine

/-! Descriptor fields (R313). -/

def cw (d : List Word) (i : Nat) : Word := d.getD i 0
def c64 (d : List Word) (i : Nat) : Nat := (cw d i).toNat + 2 ^ 32 * (cw d (i + 1)).toNat
def cVer (d : List Word) : Nat := fld (cw d 0) 31 24
def cOp (d : List Word) : Nat := fld (cw d 0) 23 20
def cMfmt (d : List Word) : Nat := fld (cw d 0) 19 16
def cWfmt (d : List Word) : Nat := fld (cw d 0) 15 12
def cMode (d : List Word) : Bool := bit (cw d 0) 7
def cRev (d : List Word) : Bool := bit (cw d 0) 6
def cAxis (d : List Word) (a : Nat) : Bool := bit (cw d 0) (3 + a)
def cAxes (d : List Word) : List Nat := (List.range 3).filter (cAxis d)
def cFirst (d : List Word) (a : Nat) : Nat := if a = 0 then fld (cw d 1) 31 26 else if a = 1 then fld (cw d 1) 19 14 else fld (cw d 1) 7 2
def cLess (d : List Word) (a : Nat) : Nat := if a = 0 then fld (cw d 1) 25 20 else if a = 1 then fld (cw d 1) 13 8 else fld (cw d 2) 31 26
/-- Members on an axis; 1 outside AXES (R317). -/
def cN (d : List Word) (a : Nat) : Nat := if cAxis d a then cLess d a + 1 else 1
def cRoot (d : List Word) : Nat := fld (cw d 2) 25 9
def cCount (d : List Word) : Nat := (cw d 3).toNat
def cElems (d : List Word) : Nat := 128 * cCount d
def cSrc (d : List Word) : Nat := c64 d 4
def cDst (d : List Word) : Nat := c64 d 6
def cStartG (d : List Word) : Nat := c64 d 8
def cStartT (d : List Word) : Nat := (cw d 10).toNat
def cDoneG (d : List Word) : Nat := c64 d 11
def cDoneAdd (d : List Word) : Nat := (cw d 13).toNat
def cTag (d : List Word) : Nat := fld (cw d 14) 31 16
def cOld (d : List Word) : Nat := c64 d 16

/-- Is the collective a sum, with the group-scaled wire for INT8 (R314, R320)? -/
def cReduces (d : List Word) : Bool := decide (cOp d = 1 ∨ cOp d = 3)

/-- Chunks of the buffer (R317, R323, R324). -/
def cMembers (d : List Word) : Nat := cN d 0 * cN d 1 * cN d 2
def olderCount (d : List Word) : Nat := popcount (cOld d) 64
def cChunks (d : List Word) : Nat :=
  if cOp d = 4 ∨ cOp d = 5 then 1 else if cOp d = 3 ∧ cOld d ≠ 0 then cMembers d - olderCount d else cMembers d

/-! Logical order (R316). -/

/-- Does the group cover a whole spanned axis? -/
def State.wholeAxis (s : State) (d : List Word) (a : Nat) : Bool := s.spanned a && decide (cN d a = s.sysDim a)

/-- The logical index of a device on an axis. -/
def State.logIdx (s : State) (d : List Word) (a dev : Nat) : Nat :=
  let u := s.relPos dev a - cFirst d a
  if !cAxis d a then 0
  else if s.wholeAxis d a then u
  else if u % 2 = 0 then u / 2 else cN d a - 1 - (u - 1) / 2

/-- Is a device of the system (R329) in the group? -/
def State.inGroup (s : State) (d : List Word) (dev : Nat) : Bool :=
  (List.range 3).all (fun a => decide (coord dev a < s.sysDim a) &&
    if cAxis d a then decide (cFirst d a ≤ s.relPos dev a ∧ s.relPos dev a < cFirst d a + cN d a)
    else decide (coord dev a = coord s.devNum a))

/-- The device at a logical index of an axis, on the module's own line. -/
def State.devAt (s : State) (d : List Word) (a j : Nat) : Nat :=
  let u := if s.wholeAxis d a then j else if 2 * j < cN d a then 2 * j else 2 * (cN d a - 1 - j) + 1
  let c := ((s.sliceAxis a).1 + cFirst d a + u) % s.sysDim a
  let at_ := fun b => if b = a then c else coord s.devNum b
  at_ 2 * 2048 + at_ 1 * 32 + at_ 0

/-! Checks of a table (R311, R314, R315, R324, R325). -/

/-- The formats that R314 admits. -/
def cFormatsBad (d : List Word) : Bool :=
  let f := cMfmt d
  let g := cWfmt d
  if cReduces d then !(decide (f = cFP32 ∨ f = cBF16)) || !(decide (g = cINT8 ∨ g = cBF16 ∨ g = cFP32))
  else if cOp d = 5 then decide (f ≠ 0) || decide (g ≠ 0)
  else decide (7 < f) || decide (g ≠ f)

/-- Reserved fields of R313. -/
def cReservedBad (d : List Word) : Bool :=
  decide (fld (cw d 0) 2 0 ≠ 0) || decide (fld (cw d 1) 1 0 ≠ 0) || decide (fld (cw d 2) 8 0 ≠ 0) || decide (fld (cw d 14) 15 0 ≠ 0) ||
  decide (cw d 15 ≠ 0) || (d.drop 18).any (fun w => decide (w ≠ 0))

/-- The formats that ALL_GATHER and BROADCAST with older members admit: those that every member's generation knows (R26, R324). Which
older members are S1 is a free value (log 78). -/
def State.oldFormatBad (s : State) (d : List Word) : Bool :=
  let a := (cAxes d).headD 0
  let anyS1 := (List.range (cN d a)).any (fun j => (cOld d).testBit j && Config.memberS1 (s.devAt d a j))
  !([cINT8, cINT32, cBF16, cFP32].contains (cMfmt d)) && (anyS1 || !([cE4M3, cFP16].contains (cMfmt d)))

/-- One entry of a move list: DADDR, SOFF, LEN, GADDR (R325). -/
def State.moveAt (s : State) (d : List Word) (i : Nat) : List Word := wordsLe 8 (s.peek (cSrc d + 32 * i) 32)

/-- FORMAT (R7, R314, R315, R324, R325). -/
def State.cFormatBad (s : State) (d : List Word) : Bool :=
  let op := cOp d
  let one := (cAxes d).length = 1
  let n := cN d ((cAxes d).headD 0)
  decide (op = 0) || decide (5 < op) || cReservedBad d || cFormatsBad d || decide (cStartT d = 0) ||
  (decide (op = 5) && (!(cAxes d).isEmpty || (List.range 3).any (fun a => decide (cFirst d a ≠ 0 ∨ cLess d a ≠ 0)) || decide (cDst d ≠ 0))) ||
  (decide (op ≠ 5) && (cAxes d).isEmpty) ||
  (List.range 3).any (fun a =>
    if cAxis d a then decide ((s.sliceAxis a).2 < cFirst d a + cN d a) else decide (cFirst d a ≠ 0 ∨ cLess d a ≠ 0)) ||
  decide (cElems d % cChunks d ≠ 0) ||
  (if op = 4 then !s.inGroup d (cRoot d) else decide (cRoot d ≠ 0)) ||
  (decide (op = 5) && (List.range (cCount d)).any (fun i => decide (cw (s.moveAt d i) 5 ≠ 0))) ||
  (decide (cOld d ≠ 0) &&
    (!decide one || !(decide (op = 2 ∨ op = 3 ∨ op = 4)) || decide (olderCount d = n) || decide (2 ^ n ≤ cOld d) ||
      (decide (op = 2 ∨ op = 4) && s.oldFormatBad d)))

/-- Bytes at SRC and at DST. -/
def cBytes (d : List Word) : Nat × Nat :=
  let e := cElems d
  let k := cMembers d
  match cOp d with
  | 1 => (fmtBytes (cMfmt d) e, fmtBytes (cMfmt d) (e / k))
  | 2 => (fmtBytes (cMfmt d) (e / k), fmtBytes (cMfmt d) e)
  | 5 => (32 * cCount d, 0)
  | _ => (fmtBytes (cMfmt d) e, fmtBytes (cMfmt d) e)

/-- Two ranges meet, and neither contains the other. -/
def partly (a n b m : Nat) : Bool :=
  overlap a n b m && !(decide (b ≤ a ∧ a + n ≤ b + m)) && !(decide (a ≤ b ∧ b + m ≤ a + n))

def gateBad (g : Nat) : Bool := decide (g % 64 ≠ 0) || decide (hbmTop < g + 8)

/-- RANGE of an entry of a move list (R311, R325). -/
def State.moveBad (s : State) (w : List Word) : Bool :=
  let da := c64 w 0
  let so := c64 w 2
  let n := 64 * (cw w 4).toNat
  decide (da % 64 ≠ 0) || decide (so % 64 ≠ 0) || decide (hbmTop < so + n) || decide (cw w 4 = 0) ||
  !(s.gaLocal da || s.gaRemote da) || (s.gaLocal da && overlap (gaOff da) n so n) ||
  (decide (c64 w 6 ≠ 0) && (decide (gaOff (c64 w 6) % 64 ≠ 0) ||
    !((s.gaLocal (c64 w 6) && !gateBad (gaOff (c64 w 6))) || s.gaRemote (c64 w 6))))

/-- Do two ranges of a list meet partly? -/
def anyPartly : List (Nat × Nat) → Bool
  | [] => false
  | x :: xs => xs.any (fun y => partly x.1 x.2 y.1 y.2) || anyPartly xs

/-- The ranges that a descriptor names in local HBM: SRC or the move list, DST, and the gates (R311, R313). -/
def cRanges (d : List Word) : List (Nat × Nat) :=
  let b := cBytes d
  [(cSrc d, b.1), (cDst d, b.2), (cStartG d, 8)] ++ (if cDoneAdd d = 0 then [] else [(cDoneG d, 8)])

/-- RANGE of a descriptor of the table at `table` (R311): two ranges overlap partly when neither lies in the other (DEDUCED, log 78). -/
def State.cRangeBad (s : State) (table : Nat × Nat) (d : List Word) : Bool :=
  let b := cBytes d
  decide (cSrc d % 64 ≠ 0) || decide (hbmTop < cSrc d + b.1) || decide (cDst d % 64 ≠ 0) || decide (hbmTop < cDst d + b.2) ||
  gateBad (cStartG d) || (decide (cDoneAdd d ≠ 0) && gateBad (cDoneG d)) ||
  anyPartly (table :: cRanges d) ||
  (decide (cOp d = 5) && (List.range (cCount d)).any (fun i => s.moveBad (s.moveAt d i)))

/-- VERSION: outside 1 to 3, or OLDMASK or the INT8 wire in a version that lacks them (R311, R313). -/
def cVersionBad (d : List Word) : Bool :=
  decide (cVer d = 0) || decide (3 < cVer d) ||
  (decide (cVer d < 3) && (decide (cOld d ≠ 0) || (cReduces d && decide (cWfmt d = cINT8))))

/-- The result of a COLL_LOAD (R311). -/
def State.collCheck (s : State) (h : Nat) : Nat :=
  let k := (s.hub h).coll
  let n := k.tcount.toNat
  let base := k.tbaseLo.toNat + fld k.tbaseHi 7 0 * 2 ^ 32
  let t := s.entriesAt base n
  if !schedIdle s.sched.st then 1
  else if n = 0 ∨ 256 < n then 5
  else if hbmTop < base + 128 * n ∨ base % 128 ≠ 0 ∨ t.any (s.cRangeBad (base, 128 * n)) = true then 2
  else if t.any cVersionBad then 3
  else if t.any s.cFormatBad then 4
  else 0

/-- A store to COLL_LOAD: writing 1 to LOAD checks the table and copies it (R311). -/
def State.storeCollLoad (s : State) (h : Nat) (v : Word) : State :=
  if !bit v 0 then s
  else
    let k := (s.hub h).coll
    let r := s.collCheck h
    let base := k.tbaseLo.toNat + fld k.tbaseHi 7 0 * 2 ^ 32
    let t := s.entriesAt base (fld k.tcount 8 0)
    (if r = 1 ∨ r = 5 then s else s.devTouch base (128 * fld k.tcount 8 0)).updColl h (fun k => { k with result := r, err := 0, table := if r = 0 then t else k.table })

/-- COLL_LOAD (R311); a gated sequencer takes no store (R393). -/
def execCollLoad (h : Fin 2) (v : Word) (s : State) : Host.Outcome State Fault Refusal :=
  .next (if (s.hub h).clken.getLsbD 2 && !s.clock.lost then s.storeCollLoad h v else s)

/-! Programs. -/

/-- The chunk that member `j` of `n` handles at time step `t` of a chain (R317). -/
def chunkAt (rev : Bool) (n j t : Nat) : Nat := if rev then (j + 1 + t) % n else (j + n * (t + 2) - 1 - t) % n

/-- The next and previous member of a chain. -/
def after_ (rev : Bool) (n j : Nat) : Nat := if rev then (j + n - 1) % n else (j + 1) % n
def before_ (rev : Bool) (n j : Nat) : Nat := after_ (!rev) n j

/-- A member's contributions to a chunk (R318, R323): the older members attached to it in order, then itself. -/
def contribOps (step : Nat) (older : List Nat) (lo m : Nat) (first : Bool) : List CollOp :=
  let olds := (List.range older.length).zip older
  olds.map (fun o => CollOp.recv step o.2 lo m (if first ∧ o.1 = 0 then 0 else 1)) ++ [.own lo m (!(first && older.isEmpty))]

/-- One axis of a REDUCE_SCATTER: `n` members, own place `j`, devices by place, on the range of `n` chunks of `m` at `lo`. -/
def scatterOps (rev : Bool) (n j : Nat) (dev : Nat → Nat) (older : List Nat) (step lo m : Nat) : List CollOp :=
  (List.range n).flatMap (fun t =>
    let at_ := lo + chunkAt rev n j t * m
    (if t = 0 then [] else [CollOp.recv (step + t - 1) (dev (before_ rev n j)) at_ m 0]) ++
    contribOps (step + t) older at_ m (decide (t = 0)) ++
    (if t + 1 < n then [CollOp.send (step + t) (dev (after_ rev n j)) at_ m 0] else []))

/-- One axis of an ALL_GATHER: at step `t` the block that arrived before goes on, and the next arrives; `back` are the older
members that receive each block as it comes. -/
def gatherOps (rev : Bool) (n j : Nat) (dev : Nat → Nat) (back : List Nat) (step lo m : Nat) : List CollOp :=
  let blk := fun t => lo + (if rev then (j + t) % n else (j + n * (t + 1) - t) % n) * m
  back.map (fun o => CollOp.send step o (blk 0) m 2) ++
  (List.range (n - 1)).flatMap (fun t =>
    [CollOp.send (step + t) (dev (after_ rev n j)) (blk t) m 1, .recv (step + t) (dev (before_ rev n j)) (blk (t + 1)) m 2] ++
    back.map (fun o => CollOp.send (step + t + 1) o (blk (t + 1)) m 2))

/-- The ranges of the scatter axes in order: axis, own index, range, chunk (R317). -/
def State.axisPlan (s : State) (d : List Word) : List Nat → Nat → Nat → List (Nat × Nat × Nat × Nat)
  | [], _, _ => []
  | a :: as, lo, e =>
    let m := e / cN d a
    let j := s.logIdx d a s.devNum
    (a, j, lo, m) :: s.axisPlan d as (lo + j * m) m

/-- The steps that axes before one in the plan take. -/
def stepsOf (d : List Word) (as : List Nat) : Nat := (as.map (fun a => cN d a)).foldl (· + ·) 0

/-- REDUCE_SCATTER, or the first half of ALL_REDUCE, over the axes of a descriptor. -/
def State.scatterProg (s : State) (d : List Word) : List CollOp :=
  let plan := s.axisPlan d (cAxes d) 0 (cElems d)
  CollOp.load 0 (cElems d) false :: ((List.range plan.length).zip plan).flatMap (fun q =>
    let x := q.2
    (if q.1 = 0 then [] else [CollOp.next]) ++
    scatterOps (cRev d) (cN d x.1) x.2.1 (s.devAt d x.1) [] (stepsOf d ((cAxes d).take q.1)) x.2.2.1 x.2.2.2)

/-- ALL_GATHER, or the second half of ALL_REDUCE: Z, then Y, then X (R317). -/
def State.gatherProg (s : State) (d : List Word) (step : Nat) : List CollOp :=
  let plan := (s.axisPlan d (cAxes d) 0 (cElems d)).reverse
  ((List.range plan.length).zip plan).flatMap (fun q =>
    let x := q.2
    gatherOps (cRev d) (cN d x.1) x.2.1 (s.devAt d x.1) [] (step + stepsOf d ((cAxes d).reverse.take q.1)) x.2.2.1 x.2.2.2)

/-- The own final chunk: its range (R317). -/
def State.ownChunk (s : State) (d : List Word) : Nat × Nat :=
  match (s.axisPlan d (cAxes d) 0 (cElems d)).getLast? with
  | some x => (x.2.2.1 + x.2.1 * x.2.2.2, x.2.2.2)
  | none => (0, cElems d)

/-- BROADCAST along X, then Y, then Z, from the root (R317). -/
def State.broadcastProg (s : State) (d : List Word) : List CollOp :=
  let as := cAxes d
  let e := cElems d
  let pos := fun a => let n := cN d a
    (if cRev d then s.logIdx d a (cRoot d) + n - s.logIdx d a s.devNum else s.logIdx d a s.devNum + n - s.logIdx d a (cRoot d)) % n
  (if as.all (fun a => decide (pos a = 0)) then [CollOp.load 0 e true] else []) ++
  ((List.range as.length).zip as).flatMap (fun q =>
    let a := q.2
    let j := s.logIdx d a s.devNum
    if (as.drop (q.1 + 1)).all (fun b => decide (pos b = 0)) then
      (if pos a = 0 then [] else [CollOp.recv q.1 (s.devAt d a (before_ (cRev d) (cN d a) j)) 0 e 2]) ++
      (if pos a + 1 < cN d a then [CollOp.send q.1 (s.devAt d a (after_ (cRev d) (cN d a) j)) 0 e 1] else [])
    else []) ++ [.write 0 e 0 2]

/-! Mixed generations (R323, R324): one axis, Korene members by Korene index. -/

def isOlder (d : List Word) (j : Nat) : Bool := (cOld d).testBit j
def korenes (d : List Word) (a : Nat) : List Nat := (List.range (cN d a)).filter (fun j => !isOlder d j)

/-- The reducer of an older member: the first Korene member after it in logical order. -/
def reducerOf (d : List Word) (a j : Nat) : Option Nat :=
  ((List.range (cN d a)).map (fun i => (j + 1 + i) % cN d a)).find? (fun k => !isOlder d k)

/-- The older members attached to a Korene member, in logical order. -/
def attached (d : List Word) (a k : Nat) : List Nat :=
  (List.range (cN d a)).filter (fun j => isOlder d j && decide (reducerOf d a j = some k))

/-- A descriptor with older members (R323, R324). In an ALL_GATHER a step of the ring moves several chunks, so chunk `c` of step `t` has the
step number N * t + c (DESIGN CHOICE, log 78). -/
def State.mixedProg (s : State) (d : List Word) : List CollOp :=
  let a := (cAxes d).headD 0
  let ks := korenes d a
  let n := ks.length
  let me := s.logIdx d a s.devNum
  let k := ks.idxOf me
  let dev := fun i => s.devAt d a (ks.getD i 0)
  let olds := (attached d a me).map (s.devAt d a)
  let e := cElems d
  if cOp d = 3 then
    let m := e / n
    CollOp.load 0 e false :: scatterOps (cRev d) n k dev olds 0 0 m ++ [.quant (k * m) m] ++ gatherOps (cRev d) n k dev olds n 0 m ++ [.write 0 e 0 1]
  else if cOp d = 2 then
    let m := e / cN d a
    let list := fun i => attached d a (ks.getD i 0) ++ [ks.getD i 0]
    let from_ := fun t => if cRev d then (k + t) % n else (k + n * (t + 1) - t) % n
    let nth := fun t c => cN d a * t + c
    CollOp.load (me * m) m true :: (attached d a me).map (fun o => CollOp.recv 0 (s.devAt d a o) (o * m) m 2) ++
    (List.range (n - 1)).flatMap (fun t =>
      (list (from_ t)).map (fun c => CollOp.send (nth t c) (dev (after_ (cRev d) n k)) (c * m) m 1) ++
      (list (from_ (t + 1))).map (fun c => CollOp.recv (nth t c) (dev (before_ (cRev d) n k)) (c * m) m 2)) ++
    olds.flatMap (fun o => (List.range (cN d a)).map (fun c => CollOp.send (nth n c) o (c * m) m 1)) ++ [.write 0 e 0 2]
  else
    let r := s.logIdx d a (cRoot d)
    let start := ks.idxOf (if isOlder d r then (reducerOf d a r).getD 0 else r)
    let pos := (k + n - start) % n
    (if pos ≠ 0 then [CollOp.recv 0 (dev ((k + n - 1) % n)) 0 e 2]
      else if isOlder d r then [CollOp.recv 0 (cRoot d) 0 e 2] else [CollOp.load 0 e true]) ++
    (if pos + 1 < n then [CollOp.send 0 (dev ((k + 1) % n)) 0 e 1] else []) ++
    olds.map (fun o => CollOp.send 1 o 0 e 1) ++ [.write 0 e 0 2]

/-- The program of a descriptor on this member; a module outside the group has nothing to do. -/
def State.collProg (s : State) (d : List Word) : List CollOp :=
  let e := cElems d
  let own := s.ownChunk d
  if cOp d = 5 then
    (List.range (cCount d)).map (fun i =>
      let w := s.moveAt d i
      CollOp.move (c64 w 0) (c64 w 2) (cw w 4).toNat (c64 w 6))
  else if !s.inGroup d s.devNum then []
  else if cOld d ≠ 0 then s.mixedProg d
  else
    match cOp d with
    | 1 => s.scatterProg d ++ [.write own.1 own.2 0 0]
    | 2 => CollOp.load own.1 own.2 true :: s.gatherProg d 0 ++ [.write 0 e 0 2]
    | 3 => s.scatterProg d ++ [.quant own.1 own.2] ++ s.gatherProg d (stepsOf d (cAxes d)) ++ [.write 0 e 0 1]
    | _ => s.broadcastProg d

/-! Elements on the wire. -/

/-- An INT8 wire element: its 8 bits and its group's BF16 scale (R320). -/
def wireElem (q sc : Nat) : Nat := 2 ^ 32 + q % 256 + 256 * sc
def isWire (x : Nat) : Bool := decide (2 ^ 32 ≤ x)

/-- The FP32 value of a wire element and the flags of its de-quantisation (R38, R42, R318). -/
def wireFp (strict : Bool) (x : Nat) : Nat × Flags :=
  if isWire x then dequant strict cINT8 (x % 256) (x / 256 % 65536) else (x, 0)

/-- The FP32 value of a wire element, where no flag is raised (R322). -/
def wireVal (strict : Bool) (x : Nat) : Nat := (wireFp strict x).1

/-- An element in format `f`, or on the INT8 wire, widened to FP32 (R38, R318). -/
def widenTo32 (strict : Bool) (f x : Nat) : Nat × Flags :=
  if isWire x then wireFp strict x else if f = cFP32 then (x, 0) else cvt strict f cFP32 x

/-- A wire element rounded once to a format; its de-quantisation first (R38, R319, R323). -/
def wireTo (strict : Bool) (f x : Nat) : Nat × Flags :=
  let v := wireFp strict x
  if f = cFP32 then v
  else
    let r := cvt strict cFP32 f v.1
    (r.1, v.2 ||| r.2)

/-- Convert a list of elements; the flags of all of them. -/
def convAll (f : Nat → Nat × Flags) (xs : List Nat) : List Nat × Flags :=
  let rs := xs.map f
  (rs.map Prod.fst, orFlags (rs.map Prod.snd))

/-- A group of 128 FP32 values quantised for the INT8 wire (R43, R44). -/
def wireGroup (strict : Bool) (xs : List Nat) : List Nat × Flags :=
  let r := quantGroup strict cINT8 xs
  (r.2.1.map (fun q => wireElem q r.1), r.2.2)

/-- FP32 values as they go on the wire: INT8 groups, values rounded once to BF16, or unchanged (R318). -/
def toWire (strict : Bool) (f : Nat) (xs : List Nat) : List Nat × Flags :=
  if f = cINT8 then
    let rs := (chunks 128 (xs.length + 1) xs).map (wireGroup strict)
    (rs.flatMap Prod.fst, orFlags (rs.map Prod.snd))
  else convAll (wireTo strict f) xs

/-- The payload format of R322 for a port's version: `scaled` marks the INT8 wire. -/
def portFmt (ver f : Nat) (scaled : Bool) : Nat :=
  if 3 ≤ ver then f
  else if scaled then cFP32
  else if f = cINT4 then cINT8
  else if f = cE5M2 then cBF16
  else if ver = 1 ∧ f = cE4M3 then cBF16
  else if ver = 1 ∧ f = cFP16 then cFP32
  else f

/-- The exact conversion of R322 between element formats, either way. -/
def exactCvt (f g x : Nat) : Nat :=
  if f = g then x
  else if f = cINT4 then unsigned 8 (signed 4 x)
  else if g = cINT4 then x % 16
  else (cvt true f g x).1

/-- The payload of the INT8 wire (R320). -/
def wirePayload (xs : List Nat) : List Byte :=
  let gs := chunks 128 (xs.length + 1) xs
  slice (gs.flatMap (fun g => leBytes 2 ((g.headD 0) / 256 % 65536))) 0 64 ++ xs.map (fun x => BitVec.ofNat 8 (x % 256))

/-- Elements per full packet (R320). -/
def perPacket (f : Nat) (scaled : Bool) : Nat := if scaled then 31 * 128 else 4032 * 8 / fmtBits f

/-- The elements of a packet's payload; `scaled` when the INT8 wire is expected and the packet carries it. -/
def unpackColl (f : Nat) (scaled : Bool) (bs : List Byte) : List Nat :=
  if scaled && decide (f = cINT8) then
    ((List.range (bs.length - 64)).zip (bs.drop 64)).map (fun p => wireElem p.2.toNat (leAt bs (2 * (p.1 / 128)) 2))
  else unpackElems f bs

/-! Run. -/

def State.collDesc (s : State) (h : Nat) : List Word := (s.hub h).coll.table.getD (s.hub h).coll.index []

/-- The reducer's flags (R318). -/
def State.redFlags (s : State) (h : Nat) (fl : Flags) : State := s.raiseFlags (.hub (if h = 0 then 0 else 1)) fl

/-- The port of a hub toward a device: its three ports of the first direction, by credit (R296, R297, R311). -/
def State.collPort (s : State) (h dst : Nat) : Option Nat :=
  match s.nextDir dst with
  | none => none
  | some dir =>
    bestBy (fun p => portCredit (s.port p) 4) (((List.range 6).map (fun k => 6 * dir + k)).filter (fun p => s.usable p && decide (portHub p = h)))

/-- Send the elements of a range to a device: `xs` in format `f`, or INT8 wire elements when `scaled` (R320, R322). -/
def State.collSend (s : State) (h step dst f : Nat) (scaled : Bool) (xs : List Nat) : State :=
  let d := s.collDesc h
  match s.collPort h dst with
  | none => s.collFail h 7
  | some port =>
    let g := portFmt (s.port port).ver f scaled
    let sc := scaled && decide (g = cINT8)
    let ys := if sc then xs else if scaled then xs.map (wireVal true) else xs.map (exactCvt f g)
    let per := perPacket g sc
    let bs := (List.range (cdiv ys.length per)).map (fun i => (i * per, (ys.drop (i * per)).take per))
    s.forEach bs (fun s b =>
      let pl := if sc then wirePayload b.2 else packElems g b.2
      s.queueAt port { s.ownPkt 0x31 dst (hubStream h) with addr := b.1, tag := cTag d, txn := step % 65536, arg := g, payload := pl } true)

/-- Elements of memory from SRC, none when a sector is poisoned. -/
def State.collRead (s : State) (h o f n : Nat) : State × Option (List Nat) :=
  let r := s.localRead (hubStream h) o (fmtBytes f n) 0 []
  (r.1, if r.2.2 = 0 then some ((unpackElems f r.2.1).take n) else none)

/-- Store a packet's elements at its place in the running step. -/
def CollSt.accs (k : CollSt) (lo n : Nat) : List Nat := k.acc.gets 0 lo n

/-- Add values to the running values: round(acc + value) (R318). -/
def State.collAdd (s : State) (h lo : Nat) (vs : List Nat) : State :=
  let strict := cMode (s.collDesc h)
  let rs := ((s.hub h).coll.accs lo vs.length).zip vs |>.map (fun p => addF strict cFP32 p.1 p.2)
  (s.updColl h (fun k => { k with acc := k.acc.sets 0 lo (rs.map Prod.fst) })).redFlags h (orFlags (rs.map Prod.snd))

/-- One packet of the step in hand (R318, R321). -/
def State.collTake (s : State) (h lo mode : Nat) (p : Packet) : State :=
  let d := s.collDesc h
  let strict := cMode d
  let xs := unpackColl p.arg (cReduces d && decide (cWfmt d = cINT8)) p.payload
  let s1 := s.updColl h (fun k => { k with got := k.got + xs.length, oldFmt := k.oldFmt.set 0 p.srcdev (p.arg + 1) })
  if mode = 2 then
    let ys := if cReduces d then convAll (fun x => if isWire x then (x, 0) else widenTo32 strict p.arg x) xs
      else (xs.map (exactCvt p.arg (cMfmt d)), 0)
    (s1.updColl h (fun k => { k with acc := k.acc.sets 0 (lo + p.addr) ys.1 })).redFlags h ys.2
  else
    let vs := convAll (widenTo32 strict p.arg) xs
    let s2 := s1.redFlags h vs.2
    if mode = 0 then s2.updColl h (fun k => { k with acc := k.acc.sets 0 (lo + p.addr) vs.1 })
    else s2.collAdd h (lo + p.addr) vs.1

/-- Does a packet belong to a step from a source? -/
def forStep (d : List Word) (step src : Nat) (p : Packet) : Bool :=
  decide (p.tag = cTag d) && decide (p.txn = step % 65536) && decide (p.srcdev = src)

/-- Send one packet of a move: a remote WRITE with EPCHK = 1 (R325). -/
def State.moveWrite (s : State) (h dst off : Nat) (bs : List Byte) : State :=
  let txn := s.fab.nextTxn
  let s1 := { s with fab := { s.fab with nextTxn := (txn + 1) % 65536 } }
  let r := s1.sendPkt { s1.ownPkt 0x11 dst (hubStream h) with
    epchk := true, epoch := s.sched.placeEpoch, addr := off, txn := txn, payload := bs }
  match r.2 with
  | some port => (r.1.newTxn (.coll h) port txn).updColl h (fun k => { k with acks := k.acks + 1 })
  | none => r.1.collFail h 7

/-- One entry of a move list (R325): a local copy, or remote writes. -/
def State.collMove (s : State) (h dst src units : Nat) : State :=
  let r := s.localRead (hubStream h) src (64 * units) 0 []
  if r.2.2 ≠ 0 then r.1.collFail h r.2.2
  else if s.gaLocal dst then
    let q := r.1.localWrite (hubStream h) (gaOff dst) r.2.1 0
    if q.2 = 0 then q.1 else q.1.collFail h q.2
  else
    r.1.forEach (List.range (cdiv units 63)) (fun s i =>
      if (s.hub h).coll.st = 2 then s.moveWrite h (gaDev dst) (gaOff dst + 4032 * i) ((r.2.1.drop (4032 * i)).take 4032) else s)

/-- Add 1 to a gate: local in its slice, remote as an ADD packet of the hub (R325). -/
def State.collGate (s : State) (h g : Nat) : State :=
  if s.gaLocal g then s.gateAdd (gaOff g) 1
  else
    let txn := s.fab.nextTxn
    let s1 := { s with fab := { s.fab with nextTxn := (txn + 1) % 65536 } }
    let r := s1.sendPkt { s1.ownPkt 0x12 (gaDev g) (hubStream h) with
      epchk := true, epoch := s.sched.placeEpoch, addr := gaOff g, txn := txn, arg := 1 }
    match r.2 with
    | some port => (r.1.newTxn (.coll h) port txn).updColl h (fun k => { k with acks := k.acks + 1 })
    | none => r.1.collFail h 7

def State.collPop (s : State) (h : Nat) : State := s.updColl h (fun k => { k with prog := k.prog.drop 1, got := 0 })

/-- Elements in format MFMT at DST + `off`. -/
def State.collWrite (s : State) (h off : Nat) (xs : List Nat) : State :=
  let d := s.collDesc h
  let r := s.localWrite (hubStream h) (cDst d + fmtBytes (cMfmt d) off) (packElems (cMfmt d) xs) 0
  if r.2 = 0 then r.1 else r.1.collFail h r.2

/-- Does the next operation of a program meet a slice that does not serve it yet: a band change in progress, a full queue, a request for the
same line ahead of it (R183, R197, R200)? The sequencer is one requester stream (R312). -/
def State.collWaits (s : State) (h : Nat) (d : List Word) : CollOp → Bool
  | .load .. => s.sliceWaits (hubStream h) (cSrc d)
  | .write _ _ off _ => s.sliceWaits (hubStream h) (cDst d + fmtBytes (cMfmt d) off)
  | .move dst src _ _ =>
    s.sliceWaits (hubStream h) src || (s.gaLocal dst && s.sliceWaits (hubStream h) (gaOff dst))
  | _ => false

/-- One step of the program; the second part says whether the sequencer moved. -/
def State.collMoveOn (s : State) (h : Nat) : State × Bool :=
  let k := (s.hub h).coll
  let d := s.collDesc h
  let strict := cMode d
  if k.st ≠ 2 || (s.hub h).fenced || s.clock.lost || k.prog.head?.any (s.collWaits h d) then (s, false)
  else
    match k.prog with
    | [] => (s, false)
    | .load lo n raw :: _ =>
      let r := s.collRead h (cSrc d) (cMfmt d) n
      (match r.2 with
        | none => (r.1.collFail h 3, false)
        | some xs =>
          if raw then ((r.1.updColl h (fun k => { k with acc := k.acc.sets 0 lo xs })).collPop h, true)
          else
            let vs := convAll (widenTo32 strict (cMfmt d)) xs
            (((r.1.updColl h (fun k => { k with own := SMap.sets 0 [] lo vs.1 })).redFlags h vs.2).collPop h, true))
    | .own lo n add :: _ =>
      let vs := k.own.gets 0 lo n
      ((if add then s.collAdd h lo vs else s.updColl h (fun k => { k with acc := k.acc.sets 0 lo vs })).collPop h, true)
    | .recv step src lo n mode :: _ =>
      if n ≤ k.got then (s.collPop h, true)
      else
        (match k.held.find? (fun x => forStep d step src x.2) with
          | none => (s, false)
          | some x => ((s.collDo h (fun k => { k with held := k.held.erase x })).collTake h lo mode x.2, true))
    | .send step dst lo n mode :: _ =>
      let xs := k.accs lo n
      let s1 := if mode = 0 then
          let r := toWire strict (cWfmt d) xs
          (s.redFlags h r.2).collSend h step dst (cWfmt d) (decide (cWfmt d = cINT8)) r.1
        else if mode = 1 then
          if !cReduces d then s.collSend h step dst (cMfmt d) false xs
          else if xs.all isWire then s.collSend h step dst cINT8 true xs
          else if cWfmt d = cBF16 then s.collSend h step dst cBF16 false (xs.map (fun x => (cvt true cFP32 cBF16 x).1))
          else s.collSend h step dst cFP32 false (xs.map (wireVal true))
        else
          let f := k.oldFmt.get 0 dst - 1
          let r := convAll (wireTo strict f) xs
          (s.redFlags h r.2).collSend h step dst f false r.1
      (if (s1.hub h).coll.st = 2 then (s1.collPop h, true) else (s1, false))
    | .next :: _ => ((s.updColl h (fun k => { k with own := k.acc })).collPop h, true)
    | .quant lo n :: _ =>
      let r := toWire strict (cWfmt d) (k.accs lo n)
      let v := convAll (fun x => if isWire x then (x, 0) else widenTo32 strict (cWfmt d) x) r.1
      (((s.updColl h (fun k => { k with acc := k.acc.sets 0 lo v.1 })).redFlags h (r.2 ||| v.2)).collPop h, true)
    | .write lo n off mode :: _ =>
      let xs := k.accs lo n
      let s1 := if mode = 2 then s.collWrite h off xs
        else
          let r := convAll (wireTo strict (cMfmt d)) xs
          (s.redFlags h r.2).collWrite h off r.1
      (if (s1.hub h).coll.st = 2 then (s1.collPop h, true) else (s1, false))
    | .move dst src units g :: _ =>
      if k.acks ≠ 0 then (s, false)
      else if k.gates.contains g then ((s.updColl h (fun k => { k with gates := [] })).collGate h g |>.collPop h, true)
      else
        let s1 := s.collMove h dst src units
        if (s1.hub h).coll.st ≠ 2 then (s1, false)
        else if g = 0 then (s1.collPop h, true)
        else (s1.updColl h (fun k => { k with gates := [g] }), true)

/-- The sequencer runs until it waits. -/
def State.collRun (s : State) (h : Nat) : Nat → State
  | 0 => s
  | n + 1 =>
    let r := s.collMoveOn h
    if r.2 then State.collRun r.1 h n else r.1

def State.collGo (s : State) (h : Nat) : State :=
  let k := (s.hub h).coll
  if (s.hub h).clken.getLsbD 2 && (s.hub h).clken.getLsbD 0 then s.collRun h (3 * (k.prog.length + k.held.length) + 4) else s

/-- The sequencers go on, as they do in every tick. -/
def State.collTick (s : State) : State := (s.collGo 0).collGo 1

/-- COLL_START_GATE (R312): the consuming test of STARTG passes and the descriptor runs. -/
def execCollStartGate (h : Fin 2) (s : State) : Host.Outcome State Fault Refusal :=
  let k := (s.hub h).coll
  if k.st ≠ 1 ∨ s.sched.st ≠ 3 ∨ (s.hub h).clken.getLsbD 2 = false ∨ s.clock.lost = true then .next s
  else
    let d := s.collDesc h
    let r := s.gateTest (cStartG d) (cStartT d) true
    let s1 := if cOp d = 5 then r.1.devTouch (cSrc d) (32 * cCount d) else r.1
    if r.2 then .next ((s1.updColl h (fun k => { k with st := 2, prog := s.collProg d, queue := k.queue.drop 1 })).collGo h)
    else .next r.1

/-- COLL_DESCRIPTOR_DONE (R312): every write is visible; DONEG takes DONEADD and the next descriptor follows. -/
def execCollDescriptorDone (h : Fin 2) (s : State) : Host.Outcome State Fault Refusal :=
  let k := (s.hub h).coll
  if k.st = 2 ∧ k.prog = [] ∧ k.acks = 0 ∧ s.sched.st = 3 ∧ s.clock.lost = false then
    let d := s.collDesc h
    let s1 := if cDoneAdd d = 0 then s else s.gateAdd (cDoneG d) (cDoneAdd d)
    .next (s1.updColl h collNext)
  else .next s

/-- A COLL packet for this module by a port: discarded by R174 without an answer (R295), taken when its descriptor and step run, held
otherwise (R321). -/
def State.collArrive (s0 : State) (port : Nat) (p : Packet) : State :=
  let e := if p.epchk then s0.epochCheck p.epoch else (s0, true)
  let s := e.1
  if !e.2 then s.freePackets 4 [(port, p)] else
  let h := portHub port
  let k := (s.hub h).coll
  let d := s.collDesc h
  let now := match k.prog with
    | .recv step src _ _ _ :: _ => decide (k.st = 2) && forStep d step src p
    | _ => false
  (s.updColl h (fun k => { k with held := k.held ++ [(port, p)], heldCount := if now then k.heldCount else k.heldCount + 1 })).collGo h

end Sys2Proof.Machine
end

