-- ==== Sys2Proof/Machine/Packets.lean ====
section
/-! DEFINITION. Packets that arrive: their checks on the torus (R302) and from the tree (R305, R306, R458), the authenticator of
fabric-manager control (R457), forwarding (R292, R297, R299), the service of requests (R295), responses, floods (R308, R309), and
the slice actions (R300, R309). A PKT row whose packet is of another type leaves the module as it is (log 42). -/

namespace Sys2Proof.Machine

/-! Counters. -/

def State.headerDrop (s : State) : State := { s with fab := { s.fab with headerDrops := s.fab.headerDrops + 1 } }
def State.sliceDrop (s : State) : State := { s with fab := { s.fab with sliceDrops := s.fab.sliceDrops + 1 } }
def State.treeDrop (s : State) : State := { s with fab := { s.fab with treeDrops := s.fab.treeDrops + 1 } }

/-! Shape. -/

/-- R7 and R293 on a packet: version, type, the agreement of the type with the slot code that carried it, reserved fields and codes (that
of R251's KIND among them), payload length, and the fields that version 1 lacks. -/
def pktShape (p : Packet) : Bool :=
  let n := p.payload.length
  let auth := if p.fm then 32 else 0
  decide (1 ≤ p.ver ∧ p.ver ≤ 3) && pktTypeOk p.ptype && decide (p.code = pktCode p.ptype) && decide (p.rsvd = 0) && decide (n ≤ 4032) &&
  (decide (p.ver ≠ 1) || (!p.epchk && decide (p.epoch = 0))) &&
  (match p.ptype with
    | 0x01 => decide (n = auth)
    | 0x02 => decide (n = 32 + auth)
    | 0x03 => decide (n = 32 + auth)
    | 0x10 => decide (n = 0 ∧ 1 ≤ p.arg ∧ p.arg ≤ 63 ∧ p.addr < 2 ^ 40)
    | 0x11 => decide (n ≠ 0 ∧ n % 64 = 0 ∧ p.addr < 2 ^ 40)
    | 0x12 => decide (n = 0 ∧ p.addr < 2 ^ 40)
    | 0x20 => decide (n ≠ 0 ∧ n % 64 = 0 ∧ p.addr < 2 ^ 40)
    | 0x21 => decide (n = 0 ∧ p.addr < 2 ^ 40)
    | 0x22 => decide (n = 0 ∧ 1 ≤ p.arg ∧ p.arg ≤ 7 ∧ p.addr < 2 ^ 40)
    | 0x30 => decide (p.tag / 2 ^ 14 ≠ 3)
    | 0x31 => decide (p.arg ≤ 7)
    | _ => true)

/-! Fabric-manager control. -/

/-- FMSEQ, and the payload without the authenticator (R457). -/
def fmSeq (p : Packet) : Nat := leAt p.payload (p.payload.length - 32) 8
def fmBody (p : Packet) : List Byte := p.payload.take (p.payload.length - 32)

/-- The tag of R457. -/
def fmTag (key : List Byte) (p : Packet) (n : Nat) : List Byte :=
  Config.gcmTag key (leBytes 4 (if p.ptype = 5 then 0x464D5253 else 0x464D5251) ++ leBytes 8 n) (pktHeader p 0 ++ fmBody p ++ leBytes 8 n) []

/-- Is the authenticator valid (R457)? -/
def State.fmOk (s : State) (p : Packet) : Bool :=
  decide (p.ptype < 0x10) && decide (32 ≤ p.payload.length) && !allZero s.sec.fmKey &&
  decide (leAt p.payload (p.payload.length - 24) 8 = 0) && decide (p.payload.drop (p.payload.length - 16) = fmTag s.sec.fmKey p (fmSeq p))

/-- A packet with FM = 1 is discarded (R302, R457): counted, and the event at most once a second (R462). -/
def State.fmFail (s : State) : State :=
  let s1 := s.headerDrop
  let n := s1.sec.fmFails + 1
  let due := match s1.sec.fmFailAt with
    | none => true
    | some t => decide (t + 400000000 ≤ s.tsc)
  if due then ({ s1 with sec := { s1.sec with fmFails := 0, fmFailAt := some s.tsc } }).post 0x0C04 1 (srcHub s.logHub 0xFF) [n]
  else { s1 with sec := { s1.sec with fmFails := n } }

/-- Does a sequence number pass a window of 1,024 below the highest accepted (R457, R458)? -/
def SeqWin.ok (w : SeqWin) (n : Nat) : Bool :=
  match w.hi with
  | none => true
  | some h => decide (h ≤ n + 1024) && !w.seen.contains n

/-- Accept a sequence number. -/
def SeqWin.take (w : SeqWin) (n : Nat) : SeqWin :=
  let h := match w.hi with
    | none => n
    | some h => max h n
  { hi := some h, seen := (n :: w.seen).filter (fun x => decide (h ≤ x + 1024)) }

/-- The destination's window of FMSEQ (R457); a packet without FM passes. -/
def State.fmAccept (s : State) (p : Packet) (act : State → State) : State :=
  if !p.fm then act s
  else if s.fab.fmWin.ok (fmSeq p) then act { s with fab := { s.fab with fmWin := s.fab.fmWin.take (fmSeq p) } }
  else s.fmFail

/-! Answers and forwarding. -/

/-- Is a packet a request, object requests included (R307)? -/
def isRequest (p : Packet) : Bool := decide (p.ptype / 16 = 1) || decide (p.ptype = 4)

/-- A COLL packet in the form that a port of a version carries (R322): converted exactly and divided as the growing payload needs, with the
new format in ARG. ARG does not tell the INT8 wire from plain INT8 elements; the hubs' tables, which every member shares, do by the TAG
(DESIGN CHOICE, log 78). -/
def State.collForms (s : State) (ver : Nat) (p : Packet) : List Packet :=
  let sums := ((s.hub 0).coll.table ++ (s.hub 1).coll.table).any (fun d => decide (cTag d = p.tag) && cReduces d && decide (cWfmt d = cINT8))
  let scaled := sums && decide (p.arg = cINT8)
  let g := portFmt ver p.arg scaled
  if p.ptype ≠ 0x31 ∨ g = p.arg then [p]
  else
    let xs := (unpackColl p.arg scaled p.payload).map (fun x => if scaled then wireVal true x else exactCvt p.arg g x)
    let per := perPacket g false
    (List.range (cdiv xs.length per)).map (fun i =>
      { p with addr := p.addr + i * per, arg := g, payload := packElems g ((xs.drop (i * per)).take per) })

/-- A packet for another module of the block goes on (R296, R297, R299): along its axis on the same port index, or into the next
axis, where it enters a ring (R298), in the form of the port's version (R292, R322). -/
def State.forwardPkt (s : State) (port : Nat) (p : Packet) : State :=
  let lost := fun (s : State) => if isRequest p then s.reply p 0x22 7 [] else s.noPathDrop
  let moving := if port / 6 % 2 = 0 then port / 6 + 1 else port / 6 - 1
  match (if s.inBlock p.dstdev then s.nextDir p.dstdev else none) with
  | none => lost s
  | some d =>
    match s.pickPort d (pktCode p.ptype) (some (port % 6)) with
    | none => lost s
    | some out =>
      if p.epchk && decide ((s.port out).ver = 1) then (if isRequest p then s.reply p 0x22 7 [] else s)
      else s.forEach (s.collForms (s.port out).ver p) (fun s q => s.queueAt out q (decide (d ≠ moving)))

/-! Checks. -/

/-- The checks of R302: the state after a discard, or none when the packet passes. -/
def State.torusCheck (s : State) (port : Nat) (p : Packet) : Option State :=
  if !pktShape p then some s.headerDrop
  else if p.fm then (if s.fmOk p then none else some s.fmFail)
  else if p.slice ≠ s.sliceId ∨ s.boundary port = true ∨ s.inBlock p.dstdev = false then some s.sliceDrop
  else none

/-- TSEQ of a tree packet, and the plaintext packet. -/
def treeSeqOf (p : Packet) : Nat := leAt p.e2eTag 0 8
def State.treeOpen (s : State) (p : Packet) : Packet :=
  { p with payload := gcmCrypt (s.treeKey (treeSeqOf p)) (treeIv p.srcdev (treeSeqOf p)) p.payload }

/-- Does a packet from the tree pass R305, R306 and R458? REEL never comes by the tree (R304). -/
def State.treeCheck (s : State) (p : Packet) : Bool :=
  let n := treeSeqOf p
  let q := s.treeOpen p
  let w := s.fab.wins.get {} p.srcdev
  p.e2e && decide (p.e2eTag.length = 16) && !s.jobKey.isEmpty &&
  decide (p.e2eTag.drop 8 = (Config.gcmTag (s.treeKey n) (treeIv p.srcdev n) (treeAad p n) q.payload).take 8) &&
  w.ok n && (w.hi.isSome || decide (s.fab.wins.length < 8192)) &&
  (decide (p.slice = s.sliceId) || s.fab.treeAccept.contains p.slice) && decide (p.dstdev = s.devNum) && decide (p.ptype ≠ 0x30)

/-- Does a hub take a packet from the ingress buffer of a port now? From one that is UP; on the control lane from one that carries it while
HELD (R286); in shed stage 4 on the control lane alone, the other slots staying in the buffer (R396). -/
def State.portTakes (s : State) (port : Nat) (p : Packet) : Bool :=
  !s.clock.lost && (if p.code = 1 then (s.port port).carriesCtrl else decide ((s.port port).st = 8) && decide (s.power.stage < 4))

/-- A packet arrives. Of a reserved type (R293) or discarded by the checks of its port (R302, R305), it leaves the ingress buffer; otherwise
`serve` has it, with its slots still in the buffer and a tree packet in plaintext. -/
def State.pktArrive (s : State) (port : Nat) (p : Packet) (types : List Nat) (serve : Packet → State → State) : State :=
  let free := fun (s : State) => s.freePackets p.code [(port, p)]
  if !s.portTakes port p || (pktTypeOk p.ptype && !types.contains p.ptype) then s
  else if port < 36 then
    match s.torusCheck port p with
    | some t => free t
    | none => serve p s
  else if !s.treeCheck p then free s.treeDrop
  else
    let n := treeSeqOf p
    let s1 : State := { s with fab := { s.fab with wins := s.fab.wins.set {} p.srcdev ((s.fab.wins.get {} p.srcdev).take n) } }
    let q := s.treeOpen p
    if !pktShape p then free s1.headerDrop
    else if q.fm && !s.fmOk { q with e2e := false } then free s1.fmFail else serve q s1

/-- A packet with EPCHK = 1 is put to R174 (R292); a request that it discards is answered with STALE, no other packet (R295). -/
def State.epochThen (s : State) (p : Packet) (act : State → State) : State :=
  if p.epchk then
    let r := s.epochCheck p.epoch
    if r.2 then act r.1 else if p.ptype / 16 = 1 then r.1.reply p 0x22 5 [] else r.1
  else act s

/-- A packet that never waits in the buffer: it is for this module, or it is forwarded. -/
def State.pktServe (s : State) (port : Nat) (p : Packet) (types : List Nat) (serve : Packet → State → State) : State :=
  s.pktArrive port p types (fun q s =>
    let s1 := s.freePackets p.code [(port, p)]
    if q.dstdev = s.devNum then s1.epochThen q (serve q) else s1.forwardPkt port q)

/-! Requests (R295). -/

/-- Does a range begin at a sector of device memory and lie in it? Its sectors are then requests of its slices (R200, R294). -/
def inSectors (o n : Nat) : Bool :=
  match placeOf o with
  | .hbm a => decide (a % 64 = 0) && decide (a + n ≤ hbmTop)
  | _ => false

/-- READ: the sectors of device memory are asked of their slices, and DATA leaves when all have answered; anything else is answered at once.
`ecc` is what the words of a scratchpad show. -/
def State.serveRead (s : State) (p : Packet) (ecc : List (Nat × Ecc)) : State :=
  if inSectors p.addr (64 * p.arg) then s.jobStart p (List.replicate p.arg .read)
  else
    let d := s.localRead (remoteStream p.srcdev p.stream) p.addr (64 * p.arg) p.hint ecc
    if d.2.2 = 0 then d.1.reply p 0x20 0 d.2.1 else d.1.reply p 0x22 d.2.2 []

/-- WRITE, likewise, with one ACK for all sectors (R294). -/
def State.serveWrite (s : State) (p : Packet) : State :=
  if inSectors p.addr p.payload.length then s.jobStart p ((chunks 64 64 p.payload).map .write)
  else
    let d := s.localWrite (remoteStream p.srcdev p.stream) p.addr p.payload p.hint
    if d.2 = 0 then d.1.reply p 0x21 (p.payload.length / 64) [] else d.1.reply p 0x22 d.2 []

/-- ADD: the gate at ADDR, in local HBM and 64-byte aligned (R150), in its slice. -/
def State.serveAdd (s : State) (p : Packet) : State :=
  if p.addr % 64 ≠ 0 ∨ hbmTop < p.addr + 8 then s.reply p 0x22 4 [] else s.jobStart p [.add p.arg]

/-! Responses. -/

/-- The outstanding request that a response answers is closed. -/
def State.closeTxn (s : State) (txn : Nat) : State := { s with fab := { s.fab with txns := s.fab.txns.set none txn none } }

/-- DATA: the sectors of the request, in order; any other length is discarded (R293). -/
def State.serveData (s : State) (p : Packet) : State :=
  match s.fab.txns.get none p.txn with
  | none => s
  | some t =>
    match t.owner with
    | .stream c slot kinds =>
      if p.payload.length = 64 * kinds.length then (s.closeTxn p.txn).respond c slot kinds (chunks 64 64 p.payload) 0 else s
    | .husk h job => (s.closeTxn p.txn).pullData h job p.payload
    | _ => s

/-- ACK: written sectors free their entries (R215, R294); a signal entry is free (R153); a collective's write is visible. -/
def State.serveAck (s : State) (p : Packet) : State :=
  match s.fab.txns.get none p.txn with
  | none => s
  | some t =>
    match t.owner with
    | .stream c slot kinds => (s.closeTxn p.txn).respond c slot kinds [] 0
    | .gateAdd c => (s.closeTxn p.txn).signalFree c
    | .coll h => ((s.closeTxn p.txn).updColl h (fun k => { k with acks := k.acks - 1 })).collGo h
    | .husk _ _ => s

/-- ERR: the requester ends with the status (R235, R327, R361). -/
def State.serveErr (s : State) (p : Packet) : State :=
  match s.fab.txns.get none p.txn with
  | none => s
  | some t => (s.closeTxn p.txn).endTxn t p.arg

/-! Floods (R308, R309, R366). -/

/-- A flooded packet whose payload `ok` admits: discarded when its pair is known; otherwise recorded, acted on and, when it came by
the torus, passed on: nothing goes from the tree to the torus (R306). -/
def State.flooded (s : State) (port : Nat) (p : Packet) (types : List Nat) (ok : Packet → Bool) (act : Packet → State → State) : State :=
  s.pktArrive port p types (fun q s =>
    let s1 := s.freePackets 1 [(port, p)]
    if !ok q then s1.headerDrop
    else if s1.fab.flood.contains (q.srcdev, q.arg) then s1
    else s1.fmAccept q (fun s =>
      let t := act q (s.floodNote q.srcdev q.arg)
      if port < 36 then t.floodCopies q (some (port / 6)) else t))

/-- The payload of a FENCE or RECOVER packet (R366): version, kind, and the fields that its kind leaves zero. -/
def fenceKind (p : Packet) : Nat := leAt p.payload 2 1
def fencePlOk (p : Packet) : Bool :=
  let b := p.payload
  let k := fenceKind p
  let sealOrLoss := decide (p.ptype = 2)
  decide (1 ≤ leAt b 3 1 ∧ leAt b 3 1 ≤ 3) && (decide (k = 1) || (sealOrLoss && decide (k = 2))) && allZero (slice b 16 16) &&
  decide (leAt b 4 4 < 2 ^ 17) && (!sealOrLoss || decide (leAt b 0 2 = 0)) && ((sealOrLoss && decide (k = 1)) || decide (leAt b 4 4 = 0)) &&
  (!(sealOrLoss && decide (k = 1)) || decide (leAt b 8 8 = 0))

/-- A FENCE or RECOVER packet of the row's kind; one whose payload fails R7 is discarded and counted. One of `other`, the other kind of its
type, is the business of the other row (log 42). -/
def State.fenced_ (s : State) (port : Nat) (p : Packet) (typ other : Nat) (act : Packet → State → State) : State :=
  if p.ptype = typ ∧ fenceKind (if port < 36 then p else s.treeOpen p) = other then s else s.flooded port p [typ] fencePlOk act

/-- PKT_STOP (R309). -/
def execPktStop (p : Fin 40) (pk : Packet) (s : State) : Host.Outcome State Fault Refusal :=
  .next (s.flooded p pk [0x01] (fun _ => true) (fun _ s => s.stopImage 4))

/-- FENCE_LOSS (R367). -/
def execFenceLoss (p : Fin 40) (pk : Packet) (s : State) : Host.Outcome State Fault Refusal :=
  .next (s.fenced_ p pk 2 2 (fun q s => s.fenceLoss (leAt q.payload 4 4)))

/-- FENCE_SEAL (R362, R369). -/
def execFenceSeal (p : Fin 40) (pk : Packet) (s : State) : Host.Outcome State Fault Refusal :=
  .next (s.fenced_ p pk 2 1 (fun q s => s.sealAct (leAt q.payload 8 8)))

/-- RECOVER_RESUME (R375). -/
def execRecoverResume (p : Fin 40) (pk : Packet) (s : State) : Host.Outcome State Fault Refusal :=
  .next (s.fenced_ p pk 3 0x100 (fun q s => s.resumeAct (leAt q.payload 0 2) (leAt q.payload 8 8)))

/-! Commands. -/

/-- PKT_READ (R293, R295); `ecc` is what the words of a scratchpad show (R187). -/
def execPktRead (p : Fin 40) (x : Met Packet) (s : State) : Host.Outcome State Fault Refusal :=
  .next (s.pktServe p x.on [0x10] (fun q s => s.serveRead q x.ecc))

/-- PKT_WRITE (R293 to R295). -/
def execPktWrite (p : Fin 40) (pk : Packet) (s : State) : Host.Outcome State Fault Refusal :=
  .next (s.pktServe p pk [0x11] (fun q s => s.serveWrite q))

/-- PKT_ADD (R150, R153, R173, R293). -/
def execPktAdd (p : Fin 40) (pk : Packet) (s : State) : Host.Outcome State Fault Refusal :=
  .next (s.pktServe p pk [0x12] (fun q s => s.serveAdd q))

/-- PKT_DATA (R293). -/
def execPktData (p : Fin 40) (pk : Packet) (s : State) : Host.Outcome State Fault Refusal :=
  .next (s.pktServe p pk [0x20] (fun q s => s.serveData q))

/-- PKT_ACK (R293, R294). -/
def execPktAck (p : Fin 40) (pk : Packet) (s : State) : Host.Outcome State Fault Refusal :=
  .next (s.pktServe p pk [0x21] (fun q s => s.serveAck q))

/-- PKT_ERR (R293, R235). -/
def execPktErr (p : Fin 40) (pk : Packet) (s : State) : Host.Outcome State Fault Refusal :=
  .next (s.pktServe p pk [0x22] (fun q s => s.serveErr q))

/-- PKT_REEL (R223, R253, R254): it keeps its slots while it is held. -/
def execPktReel (p : Fin 40) (pk : Packet) (s : State) : Host.Outcome State Fault Refusal :=
  .next (s.pktArrive p pk [0x30] (fun q s =>
    let t := s.reelArrive p q
    if t.fab.reelHeld.length = s.fab.reelHeld.length then t.freePackets 4 [(p.val, pk)] else t))

/-- PKT_COLL (R321): taken or held at the port's hub, or forwarded. -/
def execPktColl (p : Fin 40) (pk : Packet) (s : State) : Host.Outcome State Fault Refusal :=
  .next (s.pktArrive p pk [0x31] (fun q s =>
    if q.dstdev = s.devNum then s.collArrive p q else (s.freePackets 4 [(p.val, pk)]).forwardPkt p q))

/-- 32 hub cycles after its first sector an open merged packet closes (R294). -/
def execPacketCloseTimer (stream : Nat) (s : State) : Host.Outcome State Fault Refusal := .next (if s.clock.lost then s else s.closeOpen stream)

/-! Slice actions. -/

/-- SliceSet (R300): "exceeds SysDims" is judged on every origin and extent. -/
def actSliceSet (s : State) (v : BitVec 64) : Act :=
  let t : State := { s with fab := { s.fab with sliceW := v } }
  let badAxis := fun a => decide (s.sysDim a ≤ (t.sliceAxis a).1) || decide (s.sysDim a < (t.sliceAxis a).2)
  { inv := decide (fld v 63 50 ≠ 0) || decide (fld v 49 34 = 0) || (List.range 3).any badAxis || !t.inBlock s.devNum,
    bad := s.schedBusy,
    eff := t.post 0x0901 1 (srcHub s.logHub 0xFF) (w64 v.toNat) }

/-- SliceStop (R309). -/
def actSliceStop (s : State) : Act := { eff := (s.floodNew 1 []).stopImage 4 }

end Sys2Proof.Machine
end

