-- ==== Sys2Proof/Machine/Training.lean ====
section
/-! DEFINITION. Training support: the checks of a group record and its curve table (R333 to R336), curve values (R337), the
coefficient record (R338), and the three training actions (R339 to R341). Coefficient records are written when the preparation
starts, from the GSCALE it finds; the gate and OptPrepared follow at its completion (log 43). -/

namespace Sys2Proof.Machine

def one32 : Nat := 0x3F800000

/-! Group records (R333). -/

def gVer (w : List Word) : Nat := fld (w.getD 0 0) 31 24
def gRule (w : List Word) : Nat := fld (w.getD 0 0) 23 20
def gWfmt (w : List Word) : Nat := fld (w.getD 0 0) 19 16
def gGfmt (w : List Word) : Nat := fld (w.getD 0 0) 15 12
def gMfmt (w : List Word) : Nat := fld (w.getD 0 0) 11 8
def gVfmt (w : List Word) : Nat := fld (w.getD 0 0) 7 4
def gBc (w : List Word) : Bool := bit (w.getD 0 0) 3
def gMode (w : List Word) : Bool := bit (w.getD 0 0) 2
def gNsit (w : List Word) : Nat := fld (w.getD 1 0) 15 12
def gRows (w : List Word) : Nat := hw w 2
def gCols (w : List Word) : Nat := hw w 3
def gRband (w : List Word) : Nat := hw w 5
def gState (w : List Word) : Nat := hw64 w 6
def gGrad (w : List Word) : Nat := hw64 w 8
def gCurve (w : List Word) : Nat := hw64 w 10
def gCoef (w : List Word) : Nat := hw64 w 12
def gEps2 (w : List Word) : Nat := hw w 14
def gP1 (w : List Word) : Nat := hw w 19
def gP2 (w : List Word) : Nat := hw w 20

/-- Is an FP32 encoding finite; finite with a clear sign; at least the smallest normal number and finite? -/
def fin32 (x : Nat) : Bool := decide (x % 2 ^ 31 < 0x7F800000)
def nonneg32 (x : Nat) : Bool := decide (x < 0x7F800000)
def normal32 (x : Nat) : Bool := decide (0x00800000 ≤ x ∧ x < 0x7F800000)
def unit32 (x : Nat) : Bool := decide (x ≤ one32)

def State.groupOff (s : State) (i : Nat) : Nat := s.opt.base + 128 * i
def State.groupAt (s : State) (i : Nat) : List Word := wordsLe 32 (s.peek (s.groupOff i) 128)

def up64 (n : Nat) : Nat := (n + 63) / 64 * 64

/-- Bytes of an array of `e` elements; INT8 is followed by the scales of its groups (R335). -/
def arrBytes (f e : Nat) : Nat :=
  if f = cINT8 then up64 (cdiv e 128 * 128) + 2 * cdiv e 128 else fmtBytes f e

/-- Bytes of the state area (R335). -/
def stateBytes (w : List Word) : Nat :=
  let e := gRows w * gCols w
  let m := up64 (arrBytes (gWfmt w) e) + arrBytes (gMfmt w) e
  if gRule w = 1 then up64 m + arrBytes (gVfmt w) e
  else if gRule w = 3 then up64 (up64 m + 4 * gRows w) + 4 * gCols w
  else m

/-- Formats and fields of a record by R7, R333 and R334. -/
def groupBad (w : List Word) : Bool :=
  let r := gRule w
  let g := fun f => decide (f = cFP32 ∨ f = cBF16 ∨ f = cINT8)
  decide (gVer w = 0) || decide (3 < gVer w) || decide (r = 0) || decide (4 < r) ||
  (decide (gVer w < 3) && (decide (2 < r) || decide (gMfmt w = cINT8))) ||
  decide (fld (w.getD 0 0) 1 0 ≠ 0) || decide (fld (w.getD 1 0) 11 0 ≠ 0) || !hZero w 21 31 ||
  !(decide (gWfmt w = cFP32 ∨ gWfmt w = cBF16)) || !g (gGfmt w) || !g (gMfmt w) ||
  !(if r = 1 then decide (gVfmt w = cFP32 ∨ gVfmt w = cBF16) else if r = 3 then decide (gVfmt w = cFP32) else decide (gVfmt w = 0)) ||
  (gBc w && decide (r ≠ 1)) || decide (gRows w = 0) || decide (gCols w = 0) || decide (hw w 4 = 0) ||
  (decide (3 ≤ r) && (decide (gRows w < 2) || decide (gCols w < 2))) ||
  (if r = 3 then decide (gRband w = 0) || decide (gRows w < gRband w) else decide (gRband w ≠ 0)) ||
  (if r = 4 then decide (gNsit w = 0) || [15, 16, 17, 18].any (fun i => !fin32 (hw w i)) else decide (gNsit w ≠ 0) || !hZero w 15 18) ||
  (if r = 2 then decide (gEps2 w ≠ 0) else !normal32 (gEps2 w))

/-- An offset that is misaligned or reaches beyond local HBM. -/
def offBad (o n : Nat) : Bool := decide (o % 64 ≠ 0) || decide (hbmTop < o + n)

def offsetsBad (w : List Word) : Bool :=
  offBad (gState w) (stateBytes w) || offBad (gGrad w) (arrBytes (gGfmt w) (gRows w * gCols w)) || offBad (gCurve w) 32 || offBad (gCoef w) 64

/-! Curve tables (R336, R337). -/

def State.curveNb (s : State) (o : Nat) : Nat := leAt (s.peek o 32) 2 1
def State.curve (s : State) (o : Nat) : List (List Word) :=
  (List.range (s.curveNb o)).map (fun i => wordsLe 8 (s.peek (o + 32 + 32 * i) 32))

/-- Steps rise strictly. -/
def risingSteps : List (List Word) → Bool
  | [] => true
  | [_] => true
  | a :: b :: r => decide (hw64 a 0 < hw64 b 0) && risingSteps (b :: r)

def State.curveBad (s : State) (o : Nat) : Bool :=
  let h := s.peek o 32
  let nb := s.curveNb o
  let c := s.curve o
  decide (leAt h 3 1 = 0) || decide (3 < leAt h 3 1) || decide (leAt h 0 2 ≠ 0) || !allZero (h.drop 4) || decide (nb < 2) || decide (32 < nb) ||
  decide (hbmTop < o + 32 + 32 * nb) || !risingSteps c ||
  c.any (fun e => !nonneg32 (hw e 2) || !nonneg32 (hw e 3) || !unit32 (hw e 4) || !unit32 (hw e 5) || !hZero e 6 7)

/-- The value of curve word `k` at step `n` (R337). -/
def curveVal (strict : Bool) (c : List (List Word)) (k n : Nat) : Nat :=
  match c with
  | [] => 0
  | e0 :: _ =>
    let last := c.getLastD e0
    if n ≤ hw64 e0 0 then hw e0 k
    else if hw64 last 0 ≤ n then hw last k
    else
      let i := (c.filter (fun e => decide (hw64 e 0 ≤ n))).length - 1
      let a := c.getD i e0
      let b := c.getD (i + 1) e0
      let f := (roundF strict cFP32 false (n - hw64 a 0) (hw64 b 0 - hw64 a 0) 0).1
      let d := (subF strict cFP32 (hw b k) (hw a k)).1
      (fmaV strict cFP32 (decodeF cFP32 d) (decodeF cFP32 f) (decodeF cFP32 (hw a k))).1

/-! Coefficient records (R338). -/

/-- round(1 / x) for a nonzero x. -/
def recip32 (strict : Bool) (x : Nat) : Nat :=
  match nanOf strict cFP32 [decodeF cFP32 x] with
  | some r => r.1
  | none =>
    match decodeF cFP32 x with
    | .fin neg mag e => (roundF strict cFP32 neg 1 mag (-e)).1
    | .inf neg => signBit cFP32 neg
    | .nan _ _ _ _ => x

/-- The words that depend on the step: LR, WD, B1, B2, P1N, P2N. -/
structure Coef where
  lr : Nat
  wd : Nat
  b1 : Nat
  b2 : Nat
  p1 : Nat
  p2 : Nat
deriving DecidableEq, Repr

def State.coefOf (s : State) (w : List Word) (n : Nat) : Coef :=
  let st := gMode w
  let c := s.curve (gCurve w)
  let b1 := curveVal st c 4 n
  let b2 := curveVal st c 5 n
  { lr := curveVal st c 2 n, wd := curveVal st c 3 n, b1 := b1, b2 := b2,
    p1 := (mulF st cFP32 (gP1 w) b1).1, p2 := (mulF st cFP32 (gP2 w) b2).1 }

/-- round(1 − x). -/
def oneMinus (strict : Bool) (x : Nat) : Nat := (subF strict cFP32 one32 x).1

/-- The record of step `n`. -/
def coefBytes (w : List Word) (k : Coef) (n gscale : Nat) : List Byte :=
  let st := gMode w
  let bc := fun p => if gBc w then recip32 st (oneMinus st p) else one32
  leBytes 4 (3 * 2 ^ 24) ++ leBytes 8 n ++
    ([negBits cFP32 k.lr, k.wd, k.b1, oneMinus st k.b1, k.b2, oneMinus st k.b2, bc k.p1, bc k.p2, gEps2 w, gscale, k.p1, k.p2, 0]).flatMap (leBytes 4)

/-- Does a group fail the checks of R339? -/
def State.groupFails (s : State) (n i : Nat) : Bool :=
  let w := s.groupAt i
  let k := s.coefOf w n
  decide (hbmTop < s.groupOff i + 128) || groupBad w || offsetsBad w || s.curveBad (gCurve w) ||
  (gBc w && (decide (oneMinus (gMode w) k.p1 % 2 ^ 31 = 0) || decide (oneMinus (gMode w) k.p2 % 2 ^ 31 = 0)))

/-! Actions. -/

/-- Write every group's coefficient record, in ascending index. -/
def State.writeCoefs (s : State) (n : Nat) : State :=
  s.forEach (List.range s.opt.count) (fun t i =>
    let w := s.groupAt i
    ((t.devTouch (s.groupOff i) 128).devTouch (gCurve w) (32 + 32 * s.curveNb (gCurve w))).devWrite (gCoef w) (coefBytes w (s.coefOf w n) n s.opt.gscale.toNat))

/-- OptPrepare (R339). A gate outside local HBM is refused as a group offset would be. -/
def actOptPrepare (s : State) (n : Nat) : Act :=
  let next := decide (n = (s.opt.step + 1) % 2 ^ 64)
  let bad := (List.range s.opt.count).find? (fun i => s.groupFails n i)
  { inv := !next || bad.isSome || decide (hbmTop < s.opt.gate + 8),
    bad := decide (s.sched.st = 0 ∨ s.sched.st = 1 ∨ s.sched.st = 5) || s.opt.running.isSome,
    rej := match (if next then bad else none) with
      | some i => some { s with opt := { s.opt with failGroup := i } }
      | none => none,
    eff :=
      let s1 := s.writeCoefs n
      { s1 with opt := { s1.opt with failGroup := 0xFFFF, running := some n } } }

/-- The preparation completes (R339 steps 3 and 4). -/
def execOptPrepareDone (s : State) : Host.Outcome State Fault Refusal :=
  match (if s.clock.lost then none else s.opt.running) with
  | none => .next s
  | some n =>
    let s1 := s.gateAdd s.opt.gate 1
    .next { s1 with opt := { s1.opt with running := none, prepared := n } }

/-- OptCommit (R340). -/
def actOptCommit (s : State) (n : Nat) : Act :=
  { inv := decide (n ≠ (s.opt.step + 1) % 2 ^ 64),
    bad := decide (s.opt.prepared ≠ n) || decide (s.sched.st = 1 ∨ s.sched.st = 5) || s.opt.running.isSome,
    eff :=
      let s1 := s.forEach (List.range s.opt.count) (fun s i =>
        let o := gCoef (s.groupAt i) + 52
        ((s.devTouch (s.groupOff i) 128).devTouch o 8).devWrite (s.groupOff i + 76) (s.peek o 8))
      { s1 with opt := { s1.opt with step := n, prepared := 0 } } }

/-- TrainStepSet (R341). -/
def actTrainStepSet (s : State) (n : Nat) : Act :=
  { bad := s.schedBusy, eff := { s with opt := { s.opt with step := n, prepared := 0 } } }

end Sys2Proof.Machine
end

