-- ==== Sys2Proof/Machine/Clocks.lean ====
section
/-! DEFINITION. Clock sources and their qualification (R381 to R384), the monitors (R386, R387), lock (R388, R403), levels (R389,
R390), block enables (R392 to R394) and the clock output (R402). -/

namespace Sys2Proof.Machine

/-- The code of a source in ClockRefActive. -/
def srcCode : ClockSrc → Nat
  | .iosc => 0
  | .xtal => 1
  | .rack => 2

/-- Are the rails on and the device out of reset? -/
def State.powered (s : State) : Bool := decide (s.boot.phase = .on ∨ s.boot.phase = .waitExt)

/-- Do the domain clocks run: the rails are on and lock is not lost (R385, R388)? -/
def State.busUp (s : State) : Bool := s.powered && !s.clock.lost

def State.updClock (s : State) (f : ClockSt → ClockSt) : State := { s with clock := f s.clock }

/-! Sources. -/

/-- The reference changes in holdover (R384, R405). -/
def State.changeRef (s : State) (r : Nat) : State := (s.updClock (fun k => { k with active := r, holdover := true })).unalign 3

/-- The highest good source not above ClockRefMax; the internal oscillator when there is none. -/
def State.bestRef (s : State) : Nat :=
  if s.clock.good.getLsbD 2 ∧ 2 ≤ s.clock.refMax then 2 else if s.clock.good.getLsbD 1 ∧ 1 ≤ s.clock.refMax then 1 else 0

/-- Below Ready the PLL moves up by itself (R384). -/
def State.moveUp (s : State) : State :=
  if s.life < 2 ∧ s.clock.locked = true ∧ s.clock.active < s.bestRef then s.changeRef s.bestRef else s

/-- IOSC_TRIM (R381). -/
def execIoscTrim (s : State) : Host.Outcome State Fault Refusal :=
  .next (if s.powered && !s.clock.trimmed then s.updClock (fun k => { k with trimmed := true, good := k.good ||| 1 }) else s)

/-- PLL_FIRST_LOCK (R384, R385, R403). -/
def execPllFirstLock (s : State) : Host.Outcome State Fault Refusal :=
  .next (if s.powered && !s.clock.locked && !s.clock.lost then
      (({ s with tsc := 0 }).updClock (fun k => { k with locked := true, active := 0 })).moveUp
    else s)

/-- XTAL_QUALIFY (R382, R384): after 65,536 crystal cycles, of which those since the last completed window are at most the 1,055 of a good
one (log 79). -/
def execXtalQualify (s : State) : Host.Outcome State Fault Refusal :=
  .next (if s.powered && !s.clock.good.getLsbD 1 && decide (65536 ≤ s.clock.xtalRun + 1055) then
      (s.updClock (fun k => { k with good := k.good ||| 2 })).moveUp
    else s)

/-- RACKREF_QUALIFY (R383, R384): with the input detector's signal, after four good long windows, and never while the crystal is
unqualified. -/
def execRackrefQualify (s : State) : Host.Outcome State Fault Refusal :=
  .next (if s.powered && s.clock.good.getLsbD 1 && !s.clock.good.getLsbD 2 && s.clock.rackSeen && decide (4 ≤ s.clock.rackLong) then
      (s.updClock (fun k => { k with good := k.good ||| 4 })).moveUp
    else s)

/-- The non-maskable interrupt of every enabled control core (R387). -/
def State.nmiAll (s : State) : State :=
  s.forEach (List.range 16) (fun s c =>
    if (s.hub (c / 8)).cpuEn.getLsbD (c % 8) then { s with cpus := s.cpus.upd {} c (fun k => { k with nmi := true }) } else s)

/-- The windows of the rack reference begin anew (R383, R386). -/
def ClockSt.rackAnew (k : ClockSt) : ClockSt := { k with rackN := 0, rackSum := 0, rackLong := 0 }

/-- A source qualifies again only from the start (R386). What is counted against the crystal starts again when the crystal fails. -/
def ClockSt.anew (k : ClockSt) (r : Nat) : ClockSt :=
  if r = 0 then { k with ioscRun := 0 } else if r = 1 then { k.rackAnew with xtalRun := 0, ioscRun := 0 } else k.rackAnew

/-- A source fails (R386, R387): the active reference falls to the internal oscillator. -/
def State.sourceFails (s : State) (r : Nat) : State :=
  let was := s.clock.active
  let s1 := s.updClock (fun k =>
    { k.anew r with good := k.good &&& ~~~(BitVec.ofNat 3 (2 ^ r)), failCount := (k.failCount + 1) % 2 ^ 32 })
  let s2 := if r = was then ((if was = 0 then s1.updClock (fun k => { k with holdover := true }) else s1.changeRef 0)).nmiAll else s1
  s2.post 0x0301 2 0x600 [r, s2.clock.active]

/-- Does a count lie within a window? -/
def within (count mid tol : Nat) : Bool := decide (mid ≤ count + tol ∧ count ≤ mid + tol)

/-- The crystal and the internal oscillator disagree (R386): with a qualified rack reference, each that is outside 3 % of it
fails; otherwise the crystal. -/
def State.disagree (s : State) (xtalIn3 ioscIn3 : Bool) : State :=
  if s.clock.good.getLsbD 2 then
    let s1 := if !xtalIn3 && s.clock.good.getLsbD 1 then s.sourceFails 1 else s
    if !ioscIn3 && s.clock.good.getLsbD 0 then s1.sourceFails 0 else s1
  else s.sourceFails 1

/-- A window of a crystal that is not qualified (R382). -/
def ClockSt.xtalWindow (k : ClockSt) (count : Nat) : ClockSt :=
  { k with xtalRun := if within count 1024 31 then min 65536 (k.xtalRun + count) else 0 }

/-- A window of a rack reference that is not qualified, against the crystal: 64 of them are a long window (R383). -/
def ClockSt.rackWindow (k : ClockSt) (count : Nat) (detect : Bool) : ClockSt :=
  if !detect then { k.rackAnew with rackSeen := false }
  else if k.rackN < 63 then { k with rackSeen := true, rackN := k.rackN + 1, rackSum := k.rackSum + count }
  else { k with rackSeen := true, rackN := 0, rackSum := 0,
                rackLong := if within (k.rackSum + count) 204800 41 then min 4 (k.rackLong + 1) else 0 }

/-- CLOCK_WINDOW (R382, R383, R386): a window of `src` against `ref` ends. A failed internal oscillator is good again after 65,536 cycles
of good windows against a qualified crystal. -/
def execClockWindow (src ref : ClockSrc) (count : Nat) (detect xtalIn3 ioscIn3 : Bool) (s : State) : Host.Outcome State Fault Refusal :=
  let g := fun i => s.clock.good.getLsbD i
  if !s.powered then .next s
  else
    match src, ref with
    | .xtal, .iosc =>
      if g 1 then .next (if within count 1024 31 then s else s.disagree xtalIn3 ioscIn3)
      else .next (s.updClock (fun k => k.xtalWindow count))
    | .iosc, .xtal =>
      if !g 1 || !s.clock.trimmed then .next s
      else if g 0 then .next (if within count 1024 31 then s else s.disagree xtalIn3 ioscIn3)
      else if !within count 1024 31 then .next (s.updClock (fun k => { k with ioscRun := 0 }))
      else if 65536 ≤ s.clock.ioscRun + count then .next (s.updClock (fun k => { k with ioscRun := 0, good := k.good ||| 1 }))
      else .next (s.updClock (fun k => { k with ioscRun := k.ioscRun + count }))
    | .rack, .xtal =>
      if !g 1 then .next s
      else if g 2 then .next (if within count 3200 32 && detect then s else s.sourceFails 2)
      else .next (s.updClock (fun k => k.rackWindow count detect))
    | .rack, .iosc => .next (if g 2 && !g 1 && !(within count 3200 32 && detect) then s.sourceFails 2 else s)
    | _, _ => .next s

/-- ClockReselect (R384): ports in TRAIN abandon it before the reference changes. -/
def actClockReselect (s : State) : Act :=
  { bad := decide (s.sched.st = 3) || allPorts.any (fun p => decide (2 < (s.port p).st)),
    eff :=
      let s1 := s.forEach (allPorts.filter (fun p => decide ((s.port p).st = 2))) (fun s p => s.portDown p 4)
      if s1.bestRef = s1.clock.active then s1 else s1.changeRef s1.bestRef }

/-- REF_EDGES_MISSING (R384). -/
def execRefEdgesMissing (s : State) : Host.Outcome State Fault Refusal :=
  .next (if s.clock.locked then s.updClock (fun k => { k with holdover := true }) else s)

/-- PLL_RELOCK (R384): only on a source that is good. -/
def execPllRelock (s : State) : Host.Outcome State Fault Refusal :=
  .next (if s.clock.locked && s.clock.good.getLsbD s.clock.active then s.updClock (fun k => { k with holdover := false }) else s)

/-! Lock. -/

/-- PLL_UNLOCK (R388): the domain clocks and the TSC stop, the transmitters and the clock output are quiet. -/
def execPllUnlock (s : State) : Host.Outcome State Fault Refusal :=
  .next (if s.clock.locked then s.updClock (fun k => { k with locked := false, lost := true, outLow := true }) else s)

/-- PLL_LOCK_RETURN after a wait of `us` microseconds (R388). -/
def execPllLockReturn (us : Nat) (s : State) : Host.Outcome State Fault Refusal :=
  if !s.clock.lost then .next s
  else
    let s1 := s.updClock (fun k => { k with locked := true, lost := false, holdover := false, outLow := decide (s.life = 5) })
    let s2 := s1.stopImage 4
    let s3 := s2.forEach (allPorts.filter (fun p => decide (2 ≤ (s2.port p).st))) (fun s p => s.portDown p 5)
    let s4 := (s3.unalign 4).updClock (fun k => { k with unlockCount := (k.unlockCount + 1) % 2 ^ 32 })
    .next (s4.post 0x0302 3 0x601 [us])

/-! Levels. -/

def State.die (s : State) (d : Nat) : DieSt := s.power.dies.get {} d
def State.updDie (s : State) (d : Nat) (f : DieSt → DieSt) : State := { s with power := { s.power with dies := s.power.dies.upd {} d f } }

/-- Rail set point of a level in mV (R389). -/
def setPoint (l : Nat) : Nat := if l = 0 then 850 else if l = 1 then 780 else if l = 2 then 740 else 700

/-- The largest level requested for a die (R389). -/
def State.wantLevel (s : State) (d : Nat) : Nat :=
  let k := s.die d
  max (max k.floor k.therm) (max s.power.capLevel (if 1 ≤ s.power.stage ∨ k.railReq = true then 3 else 0))

/-- LEVEL_REQUEST (R390): a level at or above the one in force switches the divider at once and the rail ramps toward it; a lower
one waits for the rail, and moves the divider level by level when it comes during a ramp. -/
def execLevelRequest (d : Fin 4) (s : State) : Host.Outcome State Fault Refusal :=
  let r := s.wantLevel d
  let k := s.die d
  if !s.powered || s.clock.lost || decide (r = k.target) then .next s
  else if k.level ≤ r then .next (s.updDie d (fun k => { k with level := r, target := r, ramping := true, byLevel := false }))
  else .next (s.updDie d (fun k => { k with target := r, ramping := true, byLevel := k.ramping }))

/-- RAIL_SETPOINT_REACHED (R390): a step up switches the divider once, after the ramp, the regulator's power-good signal and 2 µs, which
is when the event comes (log 79); with a request that came during a ramp it comes at each set point and the divider follows level by level. -/
def execRailSetpointReached (d : Fin 4) (s : State) : Host.Outcome State Fault Refusal :=
  let k := s.die d
  if !k.ramping || s.clock.lost then .next s
  else if k.byLevel = true ∧ k.target < k.level then
    .next (s.updDie d (fun k => { k with level := k.level - 1, ramping := decide (k.target + 1 < k.level) }))
  else if k.target < k.level then .next (s.updDie d (fun k => { k with level := k.target, ramping := false }))
  else .next (s.updDie d (fun k => { k with ramping := false }))

/-! Block enables (R392 to R394). -/

/-- A write of RegionClkEn. -/
def actRegionClkEn (s : State) (r v : Nat) : Act :=
  let old := (s.region r).clken.toNat
  { inv := decide (3 < v) || decide (v = 2),
    bad := decide (2 ≤ s.life ∧ s.life ≤ 4) && decide (old &&& (v ^^^ 3) ≠ 0),
    eff := s.updRegion r (fun g => { g with clken := BitVec.ofNat 2 v }) }

/-- Does a write of `v` over `old` clear bit `i`? -/
def clears (old v i : Nat) : Bool := old.testBit i && !v.testBit i

/-- A write of HubClkEn; the bits of a fenced hub stay 0 (R475). -/
def actHubClkEn (s : State) (h v : Nat) : Act :=
  let old := (s.hub h).clken.toNat
  { inv := decide (0xFF < v) || (decide (h = 1) && decide (0x1F < v)),
    bad := ((clears old v 0 || clears old v 2) && s.schedBusy) ||
      (clears old v 1 && !(decide (s.husk.st = 0 ∨ s.husk.st = 1 ∨ s.husk.st = 3 ∨ s.husk.st = 12))) ||
      (clears old v 3 && allPorts.any (fun p => decide (portHub p = h) && decide (2 ≤ (s.port p).st))) || clears old v 4 || clears old v 5,
    eff :=
      if (s.hub h).fenced then s
      else
        let s1 := s.updHub h (fun k => { k with clken := BitVec.ofNat 16 v })
        let s2 := if v.testBit 0 && !old.testBit 0 then s1.flagEnable (.hub (if h = 0 then 0 else 1)) else s1
        let s3 := if h = 0 ∧ v.testBit 5 = false then { s2 with mgmt := { s2.mgmt with linkUp := false } } else s2
        s3.collGo h }

/-- A write of CtlCoreEnable by control core `cpu`, or by another path. -/
def actCtlCoreEnable (s : State) (cpu : Option Nat) (h v : Nat) : Act :=
  let k := s.hub h
  let old := k.cpuEn.toNat
  { bad := (clears old v 0 && !k.fenced) || (match cpu with | some c => decide (c / 8 = h) && clears old v (c % 8) | none => false),
    eff := if k.fenced then s else s.updHub h (fun k => { k with cpuEn := BitVec.ofNat 8 v }) }

/-- Ten times the frequency in MHz of a source of the clock output at level 0 (R402). -/
def outFreq : Nat → Nat
  | 1 => 500
  | 2 => 500
  | 3 => 1563
  | 4 => 48000
  | 5 => 16000
  | 6 => 24000
  | 7 => 12000
  | 8 => 4000
  | 9 => 1000
  | _ => 0

/-- A write of ClockOutSel (R402). -/
def actClockOutSel (s : State) (v : Word) : Act :=
  { inv := decide (fld v 31 20 ≠ 0) || decide (fld v 7 6 ≠ 0) || decide (9 < fld v 3 0) || (decide (fld v 5 4 ≠ 0) && decide (fld v 3 0 ≠ 5)) ||
      decide (2000 * (fld v 19 8 + 1) < outFreq (fld v 3 0)),
    bad := !(s.hub 0).clken.getLsbD 7,
    eff := s.updClock (fun k => { k with outSel := v }) }

/-! The time stamp counter (R403, R405). -/

/-- What the counter advances by at a tick: the slew in force takes or drops one tick in every 1,024, the last of them (log 61). -/
def tickStep (a : AlignSt) : Nat := if a.tick = 1023 then (1 + a.slew).toNat else 1

/-- What the clocks drive in a tick: a fault's halt reaches the other SEQs (R163), every SEQ reads one sector ahead (R140), the adapters
send the flits that wait (R11), and the collective sequencers go on (R312). -/
def State.clocked (s : State) : State :=
  let s1 := s.faultHalt
  let s2 := s1.forEach (s1.cores.map Prod.fst) State.fetchAhead
  (s2.forEach (s2.adapters.map Prod.fst) State.pumpFlits).collTick

/-- One 400 MHz cycle of the time base: the TSC advances unless the PLL has not locked or has lost lock (R388, R403). -/
def State.timeTick (s0 : State) : State :=
  if s0.powered && s0.clock.locked && !s0.clock.lost then
    let s := s0.clocked
    { s with tsc := (s.tsc + tickStep s.align) % 2 ^ 64, align := { s.align with tick := (s.align.tick + 1) % 1024 } }
  else s0

end Sys2Proof.Machine
end

