-- ==== Sys2Proof/Machine/Events.lean ====
section
/-! DEFINITION. The event log: delivery, order and commit (R431, R432), the record (R433), and EventPost (R436). -/

namespace Sys2Proof.Machine

/-- The words of a record (R433). -/
def Ev.words (e : Ev) : List Nat :=
  [3 * 2 ^ 24 + e.sev % 4 * 2 ^ 22 + (if e.late then 2 ^ 21 else 0) + e.code % 2 ^ 16, e.src % 2 ^ 16 * 2 ^ 16] ++ w64 e.tsc ++ w64 e.evseq ++
    (List.range 10).map (fun i => (e.args.getD i 0).toNat)

/-- The 64-byte record, little-endian in the window and big-endian on the wire, field by field (R3). -/
def Ev.le (e : Ev) : List Byte := e.words.flatMap (leBytes 4)
def Ev.be (e : Ev) : List Byte :=
  (e.words.take 2).flatMap (beBytes 4) ++ beBytes 8 e.tsc ++ beBytes 8 e.evseq ++ (e.words.drop 6).flatMap (beBytes 4)

/-- The key of R431, as one number. -/
def Ev.key (e : Ev) : Nat := e.tsc * 2 ^ 32 + e.src % 2 ^ 16 * 2 ^ 16 + e.code % 2 ^ 16

/-- The first event of a list with the smallest key. -/
def firstEv : List Ev → Option Ev
  | [] => none
  | e :: es =>
    match firstEv es with
    | none => some e
    | some x => if x.key < e.key then some x else some e

/-- Does a subscribed session lose an overwritten record (R432)? -/
def State.evLost (s : State) (e : Ev) : Bool :=
  s.mgmt.sessions.any (fun x => x.subscribed && decide (x.minSev ≤ e.sev) && decide (x.acked ≤ e.evseq))

/-- Commit one event (R431, R432). -/
def State.commitEv (s : State) (e : Ev) : State :=
  let k := s.log
  let old := k.recs.get {} (k.next % 8192)
  let full := decide (8192 ≤ k.next - k.oldest)
  let lost := full && s.evLost old
  let n := if lost then k.lost + 1 else k.lost
  let s1 : State := { s with log := { k with
    recs := k.recs.set {} (k.next % 8192) { e with evseq := k.next }, next := k.next + 1, oldest := if full then k.oldest + 1 else k.oldest,
    lost := n } }
  if lost ∧ n % 1024 = 0 then s1.post 0x0D01 1 0x611 (w64 n) else s1

/-- EVENT_RAISE (R431): the oldest raised event reaches the log; one that comes more than 4 µs late is committed at once. -/
def execEventRaise (s : State) : Host.Outcome State Fault Refusal :=
  match (if s.clock.lost then [] else s.log.raised) with
  | [] => .next s
  | e :: rest =>
    let s1 : State := { s with log := { s.log with raised := rest } }
    if e.tsc + 1600 < s.tsc then .next (s1.commitEv { e with late := true })
    else .next { s1 with log := { s1.log with held := s1.log.held ++ [e] } }

/-- EVENT_COMMIT (R431): the event with the smallest key, once it has been held for 4 µs. -/
def execEventCommit (s : State) : Host.Outcome State Fault Refusal :=
  match firstEv s.log.held with
  | none => .next s
  | some e =>
    if e.tsc + 1600 ≤ s.tsc ∧ s.clock.lost = false then
      .next (({ s with log := { s.log with held := s.log.held.erase e } }).commitEv e)
    else .next s

/-- EventPost (R436). -/
def actEventPost (s : State) (b : List Byte) : Act :=
  { inv := decide (leAt b 0 2 < 0xF000) || decide (3 < leAt b 2 1) || decide (leAt b 3 1 ≠ 0),
    eff := s.post (leAt b 0 2) (leAt b 2 1) 0x610 ((List.range 10).map (fun i => leAt b (4 + 4 * i) 4)) }

/-- The record at position `i` of the log; all zero before it is written (R432, R437). -/
def State.evAt (s : State) (i : Nat) : List Byte :=
  if i < s.log.next then (s.log.recs.get {} i).le else zeros 64

end Sys2Proof.Machine
end

