-- ==== Sys2Proof/Machine/BlackBox.lean ====
section
/-! DEFINITION. Flash bytes (R467) and the black-box record: its layout (R481), its tag (R482), when it is written (R483, R484),
the scan of the ring (R485) and its presentation (R486). A page that fails to program leaves free bytes (log 44). -/

namespace Sys2Proof.Machine

/-! Flash. -/

def flashKey (dev off : Nat) : Nat := dev * 2 ^ 26 + off
def State.flashRead (s : State) (dev off n : Nat) : List Byte := s.flash.bytes.gets 0xFF (flashKey dev off) n
def State.flashWrite (s : State) (dev off : Nat) (bs : List Byte) : State :=
  { s with flash := { s.flash with bytes := s.flash.bytes.sets 0xFF (flashKey dev off) bs } }
/-- Erase a range of a device: its bytes read 0xFF. -/
def State.flashErase (s : State) (dev off n : Nat) : State :=
  { s with flash := { s.flash with bytes := s.flash.bytes.drop (fun k => decide (flashKey dev off ≤ k ∧ k < flashKey dev off + n)) } }
def State.flashErased (s : State) (dev off n : Nat) : Bool :=
  !s.flash.bytes.any (fun p => decide (flashKey dev off ≤ p.1 ∧ p.1 < flashKey dev off + n))

/-- Bytes that no rule gives: `n` free values. -/
def State.freeBytes (s : State) (n : Nat) : State × List Byte :=
  ({ s with freeCtr := s.freeCtr + n }, (List.range n).map (fun i => Config.freeByte (s.freeCtr + i)))

/-! The record. -/

def boxMagic : Nat := 0x4B424258
def boxOff (slot : Nat) : Nat := 0x2000000 + slot * 4096
def boxKey : List Byte := kdf "KRN-BBOX" Config.uds 32
def boxTag (rseq : Nat) (b : List Byte) : List Byte := Config.gcmTag boxKey (leBytes 4 boxMagic ++ leBytes 8 rseq) b []

/-- SeqStateMap of a die (R177). -/
def State.seqMap (s : State) (d : Nat) : List Byte :=
  (List.range 34).map (fun n => let q := (s.core (34 * d + n)).seq
    BitVec.ofNat 8 (q.st % 16 + q.fcode % 16 * 16))

/-- LinkUpMask and LinkHeldMask (R289). -/
def State.portMask (s : State) (st : Nat) : Nat := allPorts.foldl (fun m p => if (s.port p).st = st then m + 2 ^ p else m) 0

/-- ClockSourceStatus (R406). -/
def State.sourceStatus (s : State) : Nat := s.clock.good.toNat + (if s.clock.locked then 8 else 0)

def i32 (v : Int) : List Byte := leBytes 4 (unsigned 32 v)

/-- InputPower: the average of the last 100 samples (R395, R401). -/
def State.inputPower (s : State) : Nat := (s.power.watts.take 100).sum / 100

/-- FaultCommand is valid with the record of a fault (R166, R177). -/
def State.boxSnapshot (s : State) : List Byte :=
  (List.range 6).flatMap (fun d => i32 (s.power.temps.get 0 d)) ++ allRegions.flatMap (fun r => i32 (s.region r).temp) ++
  (List.range 4).flatMap (fun d => leBytes 4 (s.die d).rail) ++ (List.range 4).flatMap (fun d => leBytes 1 (s.die d).level) ++
  leBytes 1 s.sched.st ++ leBytes 1 s.husk.st ++ leBytes 1 s.husk.decision ++ [0] ++ leBytes 8 s.husk.gen ++ leBytes 2 s.sched.placeEpoch ++ [0, 0] ++
  leBytes 1 s.sourceStatus ++ leBytes 1 s.clock.active ++ leBytes 1 s.power.capLevel ++ [0] ++ leBytes 8 (s.portMask 8) ++ leBytes 8 (s.portMask 7) ++
  (List.range 4).flatMap s.seqMap ++ leBytes 1 s.sched.recDie ++ leBytes 1 s.sched.recCore ++ leBytes 1 s.sched.recCode ++ [0] ++
  leBytes 2 s.sched.recCmd ++ [0, 0] ++ leBytes 4 s.sched.recOff ++ leBytes 8 s.sched.recTime ++ zeros 4 ++
  (List.range 9).flatMap (fun i => leBytes 1 (s.boot.results.get 0 (i + 1)))

/-- The newest committed events, at most 45 (R481). -/
def State.boxEvents (s : State) : Nat × List Byte :=
  let n := min 45 (s.log.next - s.log.oldest)
  (n, (List.range n).flatMap (fun i => (s.log.recs.get {} ((s.log.next - n + i) % 8192)).le))

/-- A record (R481, R482). -/
def State.boxBytes (s : State) (cause rseq : Nat) : List Byte :=
  let ev := s.boxEvents
  let hdr := leBytes 4 boxMagic ++ leBytes 4 (3 * 2 ^ 24 + cause * 2 ^ 16 + s.life * 2 ^ 8 + s.power.stage) ++ leBytes 8 rseq ++ leBytes 8 s.tsc ++
    leBytes 4 s.power.vin ++ leBytes 4 s.inputPower ++ slice idDigest 0 32 ++ slice s.sec.fwDigest 0 32 ++ leBytes 8 s.sec.jobId ++
    leBytes 4 s.devNum ++ leBytes 4 ev.1 ++ leBytes 4 (s.boot.resetCause * 2 ^ 24 + s.boot.shellCause * 2 ^ 16 + s.boot.failItem * 2 ^ 8) ++ zeros 12
  let b := slice (slice hdr 0 128 ++ slice s.boxSnapshot 0 1024 ++ ev.2) 0 4080
  b ++ slice (boxTag rseq b) 0 16

/-- A record begins (R484). -/
def State.boxBegin (s : State) (cause : Nat) : State :=
  { s with box := { s.box with writing := some (cause, s.boxBytes cause s.box.next) } }

/-- A cause arises (R483, R485): its record begins, waits, or replaces one that waits; none while the north hub is fenced. -/
def State.boxRecord (s : State) (cause : Nat) : State :=
  if (s.hub 0).fenced then s
  else
    match s.box.writing with
    | none => s.boxBegin cause
    | some _ =>
      match s.box.waiting with
      | some c => if c = 1 ∨ c = 2 ∨ c = 3 then s else { s with box := { s.box with waiting := some cause } }
      | none => { s with box := { s.box with waiting := some cause } }

/-- One device's copy: the record, or free bytes where its programming failed. -/
def State.boxProgram (s : State) (dev slot : Nat) (b : List Byte) (fail : Bool) : State :=
  if fail then
    let r := s.freeBytes 4096
    r.1.flashWrite dev (boxOff slot) r.2
  else s.flashWrite dev (boxOff slot) b

/-- The record in progress is written (R484): its events and counts, the background erases, and the record that waits. -/
def State.boxDone (s : State) (cause : Nat) (b : List Byte) (fail0 fail1 : Bool) : State :=
  let r := s.box.next
  let slot := r % 8192
  let src := srcHub 0 0x55
  let s1 := (s.boxProgram 0 slot b fail0).boxProgram 1 slot b fail1
  let ok := !(fail0 && fail1)
  let bad := fun (s : State) (d : Nat) => ({ s with box := { s.box with failures := s.box.failures + 1 } }).post 0x0E02 2 src (d :: w64 r)
  let s2 := if fail0 then bad s1 0 else s1
  let s3 := if fail1 then bad s2 1 else s2
  let next := ((List.range 4).map (fun i => (slot + 1 + i) % 8192)).filter (fun k =>
    !(s3.flashErased 0 (boxOff k) 4096 && s3.flashErased 1 (boxOff k) 4096) && !s3.box.erasing.contains k)
  let s4 : State := { s3 with box := { s3.box with
    next := r + 1, newest := if ok then r else s3.box.newest, writing := none, erasing := s3.box.erasing ++ next } }
  let s5 := if ok then s4.post 0x0E01 0 src (w64 r ++ [cause]) else s4
  match s5.box.waiting with
  | some c => ({ s5 with box := { s5.box with waiting := none } }).boxBegin c
  | none => s5

/-- A reset or a loss of power tears the record in progress: a number of its pages, at least one and not the last, is programmed
(R466, R501). -/
def State.boxTear (s : State) : State :=
  match s.box.writing with
  | none => s
  | some (_, b) =>
    let n := 1 + (Config.freeWord s.freeCtr).toNat % 15
    let t : State := { s with freeCtr := s.freeCtr + 1 }
    (t.flashWrite 0 (boxOff (s.box.next % 8192)) (b.take (256 * n))).flashWrite 1 (boxOff (s.box.next % 8192)) (b.take (256 * n))

/-! Reading. -/

def State.boxCopy (s : State) (dev slot : Nat) : List Byte := s.flashRead dev (boxOff slot) 4096
def boxRseq (b : List Byte) : Nat := leAt b 8 8
def boxIs (b : List Byte) (r : Nat) : Bool := decide (leAt b 0 4 = boxMagic) && decide (boxRseq b = r)
def boxTagOk (b : List Byte) : Bool := decide (b.drop 4080 = boxTag (boxRseq b) (b.take 4080))

/-- The newest record of R485: among the slots with a byte in the ring, the candidate with the largest RSEQ whose tag holds. -/
def State.boxScan (s : State) : Nat :=
  let starts := s.flash.bytes.filter (fun p => decide (p.1 % 2 ^ 26 % 4096 = 0 ∧ 0x2000000 ≤ p.1 % 2 ^ 26))
  starts.foldl (fun best p =>
    let dev := p.1 / 2 ^ 26
    let slot := (p.1 % 2 ^ 26 - 0x2000000) / 4096
    let b := s.boxCopy dev slot
    if leAt b 0 4 = boxMagic ∧ boxRseq b % 8192 = slot ∧ best < boxRseq b ∧ boxTagOk b = true then boxRseq b else best) 0

/-- BlackBoxSelect (R486, R489). While the north hub is fenced the flash is lost (R17), and it answers STATE, as BlackBoxWrite does (DESIGN
CHOICE, log 80). -/
def actBlackBoxSelect (s : State) (r : Nat) : Act :=
  let b0 := s.boxCopy 0 (r % 8192)
  let b1 := s.boxCopy 1 (r % 8192)
  let h0 := boxIs b0 r
  let h1 := boxIs b1 r
  let out := if h0 && boxTagOk b0 then (0, b0) else if h1 && boxTagOk b1 then (1, b1) else if h0 || h1 then (2, b0) else (3, zeros 4096)
  { inv := decide (r = 0) || decide (s.box.newest < r) || decide (r + 8192 ≤ s.box.newest),
    bad := (s.hub 0).fenced,
    eff := { s with box := { s.box with select := r, status := out.1, data := out.2 } } }

/-- BlackBoxWrite (R485, R489). -/
def actBlackBoxWrite (s : State) : Act := { bad := (s.hub 0).fenced, eff := s.boxRecord 6 }

/-- A background erase ends (R484); with the north hub fenced it erases nothing (R17). -/
def execBackgroundEraseDone (slot : Fin 8192) (ok0 ok1 : Bool) (s : State) : Host.Outcome State Fault Refusal :=
  if s.clock.lost then .next s
  else if s.box.erasing.contains slot.val then
    let ok0 := ok0 && !(s.hub 0).fenced
    let ok1 := ok1 && !(s.hub 0).fenced
    let s1 := if ok0 then s.flashErase 0 (boxOff slot) 4096 else s
    let s2 := if ok1 then s1.flashErase 1 (boxOff slot) 4096 else s1
    .next { s2 with box := { s2.box with erasing := s2.box.erasing.erase slot.val } }
  else .next s

end Sys2Proof.Machine
end

