-- ==== Sys2Proof/Machine/Power.lean ====
section
/-! DEFINITION. Supply, shed stages and the safe state (R395 to R398), temperatures (R399, R400, R505), and the power cap (R401).
Times that the manual counts in samples are counted in samples (log 51). The sensors and monitors belong to the peripheral domain, so their
rows do nothing while lock is lost (R385, R388). -/

namespace Sys2Proof.Machine

def State.updPower (s : State) (f : PowerSt → PowerSt) : State := { s with power := f s.power }

/-- Every register and object returns to its reset value (R4, R465); fuses, flash, pins and what waits outside the module stay. -/
def State.cold (s : State) (ph : Phase) (cause : Nat) : State :=
  { pending := s.pending, out := s.out, freeCtr := s.freeCtr, rndCtr := s.rndCtr,
    flash := { bytes := s.flash.bytes },
    fuses := s.fuses,
    boot := { phase := ph, pinLow := s.boot.pinLow, extLow := s.boot.extLow, resetCause := cause } }

/-! Shed stages. -/

/-- The pauses of one core follow the stage and its die's rail (R396, R397); an engine that resumes goes on. -/
def State.pauseCore (s : State) (c : Nat) : State :=
  let mp := decide (2 ≤ s.power.stage) || (s.die (dieOf c)).railPause
  let vp := decide (3 ≤ s.power.stage)
  let k := s.core c
  let s1 := s.updCore c (fun k => { k with mxePaused := mp, vxePaused := vp })
  let s2 := if k.mxePaused && !mp then s1.mxeRun c else s1
  if k.vxePaused && !vp then s2.vxRun vxFuel c else s2
def State.pauseRefresh (s : State) : State := s.forEach allCores State.pauseCore

/-- The device enters one stage (R396): 1 to 5; a record of stage 5 has the cause of R483. -/
def State.enterStage (s : State) (cause k : Nat) : State :=
  let s1 := (s.updPower (fun p => { p with stage := k, shedCount := if k = 1 then (p.shedCount + 1) % 2 ^ 32 else p.shedCount })).post
    0x0401 3 0x602 [k, s.power.vin]
  let s2 := if k = 2 ∨ k = 3 then s1.pauseRefresh else s1
  let s3 := if k = 3 then s2.flushBegin else s2
  if k = 5 then s3.boxRecord cause else s3

/-- The device enters stage `k` and every lower stage not in force (R396); nothing more once stage 5 has begun (R398). -/
def State.enterTo (s : State) (k cause : Nat) : State :=
  if 5 ≤ s.power.stage then s
  else s.forEach ((List.range 5).filter (fun i => decide (s.power.stage ≤ i ∧ i < k))) (fun s i => s.enterStage cause (i + 1))

/-- The stage that the input voltage asks for by its threshold alone (R396). -/
def vinStage (mv : Nat) : Nat := if mv < 32000 then 4 else if mv < 34000 then 3 else if mv < 36000 then 2 else if mv < 38000 then 1 else 0

/-- The voltage at or above which a stage may be left (R396). -/
def leaveMv (k : Nat) : Nat := 41500 - 2000 * k

/-- VIN_SAMPLE (R395, R396, R398). -/
def execVinSample (mv : Nat) (s : State) : Host.Outcome State Fault Refusal :=
  if !s.busUp then .next s
  else
    let s1 := s.updPower (fun p => { p with
      vin := mv, low := if mv < 30000 then p.low + 1 else 0, high := if 63000 < mv then p.high + 1 else 0,
      good := (List.range 4).map (fun i => if leaveMv (i + 1) ≤ mv then p.good.getD i 0 + 1 else 0), sinceLeave := p.sinceLeave + 1 })
    .next (
      if 11 ≤ s1.power.high then s1.enterTo 5 2
      else if 11 ≤ s1.power.low then s1.enterTo 5 1
      else s1.enterTo (vinStage mv) 1)

/-- SHED_STAGE_LEAVE (R396, R398). -/
def execShedStageLeave (s : State) : Host.Outcome State Fault Refusal :=
  let k := s.power.stage
  if 1 ≤ k ∧ k ≤ 4 ∧ s.busUp = true ∧ 1001 ≤ s.power.good.getD (k - 1) 0 ∧ 100 ≤ s.power.sinceLeave then
    .next (s.updPower (fun p => { p with stage := k - 1, sinceLeave := 0 })).pauseRefresh
  else .next s

/-- SAFE_STATE_ENTRY (R396, R398): the record is written, or cannot be, and the flush has ended. -/
def execSafeStateEntry (s : State) : Host.Outcome State Fault Refusal :=
  if 5 ≤ s.power.stage ∧ s.busUp = true ∧ ((s.hub 0).fenced = true ∨ (s.box.writing.isNone ∧ s.box.waiting.isNone)) ∧ s.husk.flushing = false then .next (s.cold .safe s.boot.resetCause)
  else .next s

/-! Rails. -/

/-- RAIL_SAMPLE (R397). -/
def execRailSample (d : Fin 4) (mv : Nat) (s : State) : Host.Outcome State Fault Refusal :=
  if !s.busUp then .next s
  else
    let sp := setPoint (s.die d).level
    let s1 := s.updDie d (fun k =>
      let good := if 97 * sp ≤ 100 * mv then k.railGood + 1 else 0
      let done := decide (1001 ≤ good)
      { k with rail := mv, railGood := good, railReq := decide (100 * mv < 95 * sp) || (k.railReq && !done),
               railPause := decide (100 * mv < 90 * sp) || (k.railPause && !done) })
    .next s1.pauseRefresh

/-! Input power. -/

/-- POWER_SAMPLE (R395, R401): the averages of the last 100 and the last 1,000 samples. -/
def execPowerSample (mw : Nat) (s : State) : Host.Outcome State Fault Refusal :=
  if !s.busUp then .next s
  else
    .next (s.updPower (fun p =>
      let w := (mw :: p.watts).take 1000
      let rise := decide (300000000 < (w.take 100).sum) && decide (100 ≤ p.sinceRise + 1) && decide (p.capLevel < 3)
      let fall := !rise && decide (w.sum / 1000 < 2850000) && decide (1000 ≤ p.sinceFall + 1) && decide (0 < p.capLevel)
      { p with watts := w, capLevel := if rise then p.capLevel + 1 else if fall then p.capLevel - 1 else p.capLevel,
               sinceRise := if rise then 0 else p.sinceRise + 1, sinceFall := if fall then 0 else p.sinceFall + 1 }))

/-! Temperatures. -/

/-- The largest of a list of samples. -/
def maxTemp : List Int → Int
  | [] => 0
  | [x] => x
  | x :: xs => max x (maxTemp xs)

/-- A critical temperature of a die or a stack (R400): the event, and the stages with the record's cause THERMAL. -/
def State.critical (s : State) (src code : Nat) (t : Int) : State := (s.post 0x0402 3 src [code, unsigned 32 t]).enterTo 5 3

/-- The samples of one die's sensors (R399, R400). -/
def State.dieSample (s : State) (d : Nat) (ts : List Int) : State :=
  let hotNow := ((List.range ts.length).filter (fun i => decide (110000 ≤ ts.getD i 0))).map (fun i => d * 16 + i)
  let crit := hotNow.any (fun k => s.power.hot.contains k)
  let t := maxTemp ts
  let s1 := s.updPower (fun p => { p with
    temps := p.temps.set 0 d t, hot := p.hot.filter (fun k => decide (128 ≤ k ∨ k / 16 ≠ d)) ++ hotNow })
  let s2 := if d < 4 then s1.updDie d (fun k => { k with therm := throttleNext k.therm t }) else s1
  if crit && decide (s.power.stage < 5) then s2.critical (d * 256 + 0xFF) d t else s2

/-- DIE_TEMP_SAMPLE (R399, R400): one list of sensors for each die code. -/
def execDieTempSample (sensors : List (List Int)) (s : State) : Host.Outcome State Fault Refusal :=
  if !s.busUp then .next s
  else .next (s.forEach ((List.range 6).filter (fun d => !(sensors.getD d []).isEmpty)) (fun s d => s.dieSample d (sensors.getD d [])))

/-- STACK_TEMP_SAMPLE (R210, R400). -/
def execStackTempSample (r : Fin 24) (mdeg : Int) (s : State) : Host.Outcome State Fault Refusal :=
  if !s.busUp then .next s
  else
    let hot := decide (110000 ≤ mdeg)
    let key := 0x80 + r.val
    let crit := hot && s.power.hot.contains key
    let s1 := s.updRegion r (fun g => { g with temp := mdeg, throttle := throttleNext g.throttle mdeg })
    let s2 := s1.updPower (fun p => { p with hot := p.hot.filter (fun k => decide (k ≠ key)) ++ (if hot then [key] else []) })
    .next (if crit && decide (s.power.stage < 5) then s2.critical (srcRegion r) key mdeg else s2)

/-- COOLANT_SAMPLE (R505). -/
def execCoolantSample (inlet outlet : Int) (s : State) : Host.Outcome State Fault Refusal :=
  .next (if s.busUp then s.updPower (fun p => { p with coolantIn := inlet, coolantOut := outlet }) else s)

end Sys2Proof.Machine
end

