-- ==== Sys2Proof/Machine/Windows.lean ====
section
/-! DEFINITION. What a control core reaches outside the object dictionary window: memory and its bus errors (R179, R185, R393), the
control windows of cores and hubs (R188 to R190, R238, R311, R379) and of MSC slices (R198). Control-core accesses move no time. -/

namespace Sys2Proof.Machine

def State.cpu (s : State) (c : Nat) : CpuSt := s.cpus.get {} c
def State.updCpu (s : State) (c : Nat) (f : CpuSt → CpuSt) : State := { s with cpus := s.cpus.upd {} c f }

/-- Does a control core execute: rails on, clock running, its enable set, its hub not fenced (R17, R388, R392)? -/
def State.cpuRuns (s : State) (c : Nat) : Bool :=
  s.powered && !s.clock.lost && (s.hub (c / 8)).cpuEn.getLsbD (c % 8) && !(s.hub (c / 8)).fenced

/-- The outcome of an access: a bus error, or the value a load returned. -/
def State.cpuOut (s : State) (c : Nat) (bus : Bool) (v : Nat) : State := s.updCpu c (fun k => { k with bus := bus, value := v })

/-! Control windows of cores. -/

/-- The clock enable that a register of a core's window needs (R169); reserved offsets and CORE_CLKEN need none. -/
def ctlBlock (off : Nat) : Option Nat :=
  if off = 0x04 ∨ off = 0x08 ∨ off = 0x0C then some 0
  else if off = 0x10 ∨ off = 0x14 ∨ off = 0x18 then some 1
  else if off = 0x20 ∨ off = 0x24 ∨ off = 0x28 ∨ off = 0x2C ∨ off = 0x30 ∨ off = 0x34 ∨ (0x2000 ≤ off ∧ off < 0x4040) then some 2
  else if off = 0x100 ∨ off = 0x104 then some 3
  else if off = 0x40 then some 4
  else none

def mxeStat (m : MxeSt) : Nat := (List.range 16).foldl (fun n i => n + (m.slots.get {} i).st % 4 * 4 ^ i) 0
/-- VXE_STAT (R107): entries of the hand-off queues, and a BUSY bit for each pipe that holds an instruction. -/
def vxeStat (k : CoreSt) : Nat :=
  k.mxe.hq.length * 16 + (List.range 4).foldl (fun n p => if k.vxe.pipes.any (fun i => decide (vxPipe i.w = p)) then n + 2 ^ p else n) 0
def seqStat (q : SeqSt) : Nat := q.entry * 2 ^ 20 + q.fcode * 2 ^ 16 + q.waitk * 2 ^ 8 + q.st
def fnStat (u : SfuSt) : Nat := u.valid.toNat * 2 ^ 16 + (if u.checking.isSome then 256 else 0) + u.lastSlot % 16 * 16 + u.result
def steStat (t : SteSt) : Nat := (List.range 16).foldl (fun n i => if (t.slots.get {} i).busy then n + 2 ^ (16 + i) else n) (t.q.length * 256)

/-- A 4-byte load from a core's control window (R188, R189). -/
def ctlRead (k : CoreSt) (off : Nat) : Nat :=
  if off = 0x00 then k.clken.toNat
  else if off = 0x04 then seqStat k.seq
  else if off = 0x08 then k.seq.pc
  else if off = 0x0C then k.seq.fault.toNat
  else if off = 0x10 then k.mxe.cfg.toNat
  else if off = 0x14 then mxeStat k.mxe
  else if off = 0x18 then k.mxe.flags.v.toNat
  else if off = 0x20 then k.vxe.vl * 2 ^ 12 + k.vxe.rlen
  else if off = 0x24 then vxeStat k
  else if off = 0x28 then k.vxe.flags.v.toNat
  else if off = 0x2C then k.sfu.flags.v.toNat
  else if off = 0x34 then fnStat k.sfu
  else if off = 0x40 then k.ceCnt * 2 ^ 16 + (if k.ue then 1 else 0)
  else if off = 0x100 then steStat k.ste
  else if off = 0x104 then k.ste.err.toNat
  else if 0x2000 ≤ off ∧ off < 0x4040 then ofLe (k.sfu.stage.gets 0 (off - 0x2000) 4)
  else 0

/-- A store to MXE_CFG (R69). -/
def State.storeMxeCfg (s : State) (c : Nat) (v : Word) : State :=
  let p := fld v 7 4
  if (s.core c).mxe.slots.any (fun t => decide (t.2.st ≠ 0)) ∨ 3 < p ∨ (p ≠ 0 ∧ isWide c = false) then s
  else s.updCore c (fun k => { k with mxe := { k.mxe with cfg := BitVec.ofNat 32 (p * 16 + fld v 0 0) } })

/-- A store to CORE_CLKEN (R169). -/
def State.storeClken (s : State) (c : Nat) (v : Word) : State :=
  let q := (s.core c).seq.st
  if q = 1 ∨ q = 2 ∨ (bit v 4 = false ∧ fld v 3 1 ≠ 0) then s else s.setClken c (BitVec.ofNat 5 (fld v 4 0))

/-- A store to FN_LOAD (R120, R121). RESULT keeps its value until the check that an accepted one begins has ended (DESIGN CHOICE, log 68). -/
def State.storeFnLoad (s : State) (c : Nat) (v : Word) : State :=
  let k := s.core c
  let f := fld v 3 0
  let refuse := fun r => s.updSfu c (fun u => { u with lastSlot := f, result := r })
  if k.sfu.checking.isSome ∨ k.seq.st = 1 ∨ k.seq.st = 2 then refuse 1
  else if f < 8 then refuse 2
  else s.updSfu c (fun u => { u with checking := some f, lastSlot := f })

/-- A store to FN_STAGE, ignored while a check runs (R121). -/
def State.storeStage (s : State) (c off : Nat) (bs : List Byte) : State :=
  if (s.core c).sfu.checking.isSome then s else s.updSfu c (fun u => { u with stage := u.stage.sets 0 off bs })

/-- The NUMFLAGS register at an offset of a core's window. -/
def flagUnitAt (c : Fin 136) (off : Nat) : Option FlagUnit :=
  if off = 0x18 then some (.mxe c) else if off = 0x28 then some (.vxe c) else if off = 0x2C then some (.sfu c) else none

/-- A store of `width` bytes to a core's control window; a store to any other register has no effect. -/
def State.ctlWrite (s : State) (c : Fin 136) (off width : Nat) (v : BitVec 64) : State :=
  let w := BitVec.ofNat 32 v.toNat
  match flagUnitAt c off with
  | some u => s.flagCycle u (BitVec.ofNat 4 v.toNat) 0
  | none =>
    if off = 0x00 then s.storeClken c w
    else if off = 0x10 then s.storeMxeCfg c w
    else if off = 0x30 then s.storeFnLoad c w
    else if off = 0x40 then s.updCore c (fun k => { k with ue := k.ue && !bit w 0 })
    else if 0x2000 ≤ off ∧ off < 0x4040 then s.storeStage c (off - 0x2000) (leBytes width v.toNat)
    else s

/-! Control windows of hubs. -/

/-- The enable of HubClkEn that a register of a hub's window needs (R393). -/
def hubBlock (off : Nat) : Option Nat :=
  if 0x100 ≤ off ∧ off < 0x118 then some 2 else if 0x1000 ≤ off ∧ off < 0x1008 then some 1 else none

def collStat (k : CollSt) : Nat := k.index * 2 ^ 16 + k.st * 2 ^ 8 + k.result

/-- A 4-byte load from a hub's control window (R190, R311, R379). -/
def hubRead (k : HubSt) (off : Nat) : Nat :=
  if off = 0x18 then k.flags.v.toNat
  else if off = 0x100 then k.coll.tbaseLo.toNat
  else if off = 0x104 then k.coll.tbaseHi.toNat
  else if off = 0x108 then k.coll.tcount.toNat
  else if off = 0x110 then collStat k.coll
  else if off = 0x114 then k.coll.err.toNat
  else if off = 0x1000 then k.par.work * 2 ^ 28 + k.par.done % 2 ^ 28
  else if off = 0x1004 then k.par.err.toNat
  else 0

/-- A 4-byte store to a hub's control window; reserved bits are ignored (R7), and a misaligned base is refused at COLL_LOAD. -/
def State.hubWrite (s : State) (h : Fin 2) (off : Nat) (v : Word) : State :=
  if off = 0x18 then s.flagCycle (.hub h) (BitVec.ofNat 4 v.toNat) 0
  else if off = 0x100 then s.updColl h (fun k => { k with tbaseLo := v })
  else if off = 0x104 then s.updColl h (fun k => { k with tbaseHi := v &&& 0xFF })
  else if off = 0x108 then s.updColl h (fun k => { k with tcount := v &&& 0x1FF })
  else if off = 0x10C then s.storeCollLoad h v
  else s

/-! Control windows of MSC slices. -/

/-- A 4-byte load from an MSC control window (R198). -/
def mscRd (g : RegionSt) (off : Nat) : Nat :=
  if off = 0x08 then g.baseLo.toNat
  else if off = 0x0C then fld g.baseHi 7 0
  else if off = 0x10 then g.len.toNat
  else if off = 0x18 then (if g.op.isSome then 256 else 0) + g.result
  else 0

/-- A 4-byte store to an MSC control window (R198); the range holds while an operation runs. -/
def State.mscWr (s : State) (r off : Nat) (v : Word) : State :=
  let free := (s.region r).op.isNone
  if off = 0x00 then s.mscOp r (fld v 3 0)
  else if off = 0x08 then if free then s.updRegion r (fun g => { g with baseLo := v &&& 0xFFFFFFC0 }) else s
  else if off = 0x0C then if free then s.updRegion r (fun g => { g with baseHi := v }) else s
  else if off = 0x10 then if free then s.updRegion r (fun g => { g with len := v }) else s
  else s

/-! Window accesses. -/

/-- Is the block behind a window offset gated (R169, R393)? -/
def State.gatedAt (s : State) : Place → Bool
  | .coreCtl c off => (ctlBlock off).any (fun b => !s.clkOn c b)
  | .hubCtl h off => (hubBlock off).any (fun b => !(s.hub h).clken.getLsbD b)
  | .mscCtl r _ => !(s.region r).clken.getLsbD 1
  | .hbm o => !(s.region (s.resolve o).1).clken.getLsbD 0
  | .spad c _ => !s.clkOn c 4
  | _ => false

/-- A load from a control window: `none` is a bus error (R189). -/
def State.windowLoad (s : State) (p : Place) (width : Nat) : Option Nat :=
  match p with
  | .coreCtl c off => if width ≠ 4 ∨ off % 4 ≠ 0 ∨ s.gatedAt p then none else some (ctlRead (s.core c) off)
  | .hubCtl h off => if width ≠ 4 ∨ off % 4 ≠ 0 ∨ s.gatedAt p then none else some (hubRead (s.hub h) off)
  | .mscCtl r off => if width ≠ 4 ∨ off % 4 ≠ 0 ∨ s.gatedAt p then none else some (mscRd (s.region r) off)
  | _ => none

/-- A store to a control window: `none` is a bus error (R189). -/
def State.windowStore (s : State) (p : Place) (width : Nat) (v : BitVec 64) : Option State :=
  let w := BitVec.ofNat 32 v.toNat
  match p with
  | .coreCtl c off =>
    let stage := decide (0x2000 ≤ off ∧ off < 0x4040)
    if s.gatedAt p || !((decide (width = 4) && decide (off % 4 = 0)) || (stage && decide (width = 8) && decide (off % 8 = 0))) then none
    else if h : c < 136 then some (s.ctlWrite ⟨c, h⟩ off width v) else some s
  | .hubCtl h off =>
    if width ≠ 4 ∨ off % 4 ≠ 0 ∨ s.gatedAt p then none
    else some (s.hubWrite (if h = 0 then 0 else 1) off w)
  | .mscCtl r off => if width ≠ 4 ∨ off % 4 ≠ 0 ∨ s.gatedAt p then none else some (s.mscWr r off w)
  | _ => none

/-! Memory. -/

/-- The value an atomic of the A extension leaves, by width in bytes. -/
def amoNext (a : Access) (w old v : Nat) : Nat :=
  let m := 2 ^ (8 * w)
  let so := signed (8 * w) old
  let sv := signed (8 * w) v
  match a with
  | .load => old
  | .store => v % m
  | .amoSwap => v % m
  | .amoAdd => (old + v) % m
  | .amoXor => old ^^^ (v % m)
  | .amoAnd => old &&& (v % m)
  | .amoOr => old ||| (v % m)
  | .amoMin => if so ≤ sv then old else v % m
  | .amoMax => if sv ≤ so then old else v % m
  | .amoMinu => if old ≤ v % m then old else v % m
  | .amoMaxu => if v % m ≤ old then old else v % m

def naturally (off width : Nat) : Bool := decide (width = 1 ∨ width = 2 ∨ width = 4 ∨ width = 8) && decide (off % width = 0)

/-- An access to local HBM through its slice (R179, R191, R206): a read that meets poison is a bus error. -/
def State.hbmAccess (s : State) (cpu : Nat) (a : Access) (o width : Nat) (v : BitVec 64) (ecc : Ecc) (err : HbmErr) : State :=
  let r := s.resolve o
  let s0 := s.lineEcc r.1 (r.2 / 64 * 64) ecc
  if a = .store then
    let w := s0.memWrite (cpuStream (cpu / 8)) o (leBytes width v.toNat) 0 err
    w.1.cpuOut cpu false 0
  else
    let q := s0.memRead (cpuStream (cpu / 8)) o width 0 err
    match q.2 with
    | none => q.1.cpuOut cpu true 0
    | some b =>
      let s1 := if a = .load then q.1 else (q.1.memWrite (cpuStream (cpu / 8)) o (leBytes width (amoNext a width (ofLe b) v.toNat)) 0 noErr).1
      s1.cpuOut cpu false (ofLe b)

/-- An access to a scratchpad window (R179, R185, R187). -/
def State.spadAccess (s : State) (cpu : Nat) (a : Access) (c at_ width : Nat) (v : BitVec 64) (ecc : Ecc) : State :=
  let s0 := if a = .store then s else s.spadEcc c (at_ / 8) ecc
  let old := ofLe (s0.spadRead c at_ width)
  let s1 := if a = .load then s0 else s0.spadWrite c at_ (leBytes width (amoNext a width old v.toNat))
  s1.cpuOut cpu false (if a = .store then 0 else old)

/-- An access to memory or to a control window by an offset outside the object dictionary window. One to local HBM waits while its band is
changing, its queues are full, or its line has a request ahead of it (R183, R197, R200). -/
def State.cpuAccess (s : State) (cpu : Nat) (a : Access) (off width : Nat) (v : BitVec 64) (ecc : Ecc) (err : HbmErr) : State :=
  match placeOf off with
  | .hbm o =>
    if !naturally off width || s.gatedAt (.hbm o) then s.cpuOut cpu true 0
    else if s.sliceWaits (cpuStream (cpu / 8)) o then s
    else s.hbmAccess cpu a o width v ecc err
  | .spad c x =>
    if !naturally off width || decide (width < 4) || s.gatedAt (.spad c x) then s.cpuOut cpu true 0
    else s.spadAccess cpu a c x width v ecc
  | p =>
    if a = .load then
      match s.windowLoad p width with
      | some n => s.cpuOut cpu false n
      | none => s.cpuOut cpu true 0
    else if a = .store then
      match s.windowStore p width v with
      | some t => t.cpuOut cpu false 0
      | none => s.cpuOut cpu true 0
    else s.cpuOut cpu true 0

/-! The rows. -/

/-- FN_LOAD (R120, R121); a gated VXE takes no store (R169). -/
def execFnLoad (c : Fin 136) (v : Word) (s : State) : Host.Outcome State Fault Refusal :=
  .next (if s.busUp && s.clkOn c 2 then s.storeFnLoad c v else s)

/-- FN_CHECK_DONE (R121). -/
def execFnCheckDone (c : Fin 136) (s : State) : Host.Outcome State Fault Refusal :=
  match (s.core c).sfu.checking with
  | none => .next s
  | some f =>
    if !s.clkOn c 2 then .next s
    else
      let r := stageCheck (s.core c).sfu.stage
      .next (s.updSfu c (fun u =>
        let u1 := { u with checking := none, lastSlot := f, result := r }
        if r = 0 then u1.commit f else u1))

/-- NUMFLAGS_WINDOW_CLEAR (R49, R50): the sets that retire in the same cycle prevail. -/
def execNumflagsWindowClear (u : FlagUnit) (v : Word) (coset : BitVec 4) (s : State) : Host.Outcome State Fault Refusal :=
  let ok := match u with
    | .hub _ => s.busUp
    | _ => s.busUp && s.flagClocked u
  .next (if ok then s.flagCycle u (BitVec.ofNat 4 v.toNat) coset else s)

/-- MXE_CFG_STORE (R69, R169). -/
def execMxeCfgStore (c : Fin 136) (v : Word) (s : State) : Host.Outcome State Fault Refusal :=
  .next (if s.busUp && s.clkOn c 1 then s.storeMxeCfg c v else s)

/-- CORE_CLKEN_STORE (R169). -/
def execCoreClkenStore (c : Fin 136) (v : Word) (s : State) : Host.Outcome State Fault Refusal :=
  .next (if s.busUp then s.storeClken c v else s)

/-- CONTROL_WINDOW_WRITE (R189): a store of a control core to a control window. -/
def execControlWindowWrite (cpu : Fin 16) (off : BitVec 40) (width : Nat) (v : BitVec 64) (s : State) : Host.Outcome State Fault Refusal :=
  if !s.cpuRuns cpu then .next s
  else
    match s.windowStore (placeOf off.toNat) width v with
    | some t => .next (t.cpuOut cpu false 0)
    | none => .next (s.cpuOut cpu true 0)

end Sys2Proof.Machine
end

