-- ==== Sys2Proof/Machine/Security.lean ====
section
/-! DEFINITION. Ownership (R449 to R451), the job key (R452, R453), attestation (R447), SvnFloor (R444), debug (R460, R461) and the
entropy sources (R441). -/

namespace Sys2Proof.Machine

def State.updSec (s : State) (f : SecSt → SecSt) : State := { s with sec := f s.sec }

/-- MR2 is extended at a change of what it covers (R445). -/
def State.noteMr2 (s : State) : State := s.extendMr2 s.mr2Input

/-- The source number of the security block that serves (R430). -/
def State.srcSec (s : State) : Nat := srcHub s.logHub 0x53

/-- Every port that is not DISABLED goes DOWN (R279, R451, R461). -/
def State.portsDown (s : State) : State := s.forEach (allPorts.filter (fun p => decide (2 ≤ (s.port p).st))) (fun s p => s.portDown p 4)

/-- The Husk is neither OFF, MAPPED nor FAILED, or an image is loading, running or stopping (R452, R461). -/
def State.jobBusy (s : State) : Bool := s.schedBusy || !(decide (s.husk.st = 0 ∨ s.husk.st = 1 ∨ s.husk.st = 12))

/-- The job key and what is derived from it are erased. -/
def State.eraseJob (s : State) : State := ({ s with jobKey := [] }).updSec (fun k => { k with jobId := 0 })

/-! Owner keys. -/

/-- The OwnerKey object takes a value; the device keeps the key that hashes to OwnerKeyDigest (log 53). -/
def State.setOwnerKey (s : State) (b : List Byte) : State :=
  let own := s.owned && decide (digest b = s.ownerDigest)
  s.updSec (fun k => { k with ownerKey := b, ownerPub := if own then b else k.ownerPub })

/-- Does a signature verify under the present owner key? -/
def State.ownerVerify (s : State) (msg sig : List Byte) : Bool :=
  s.owned && decide (digest s.sec.ownerPub = s.ownerDigest) && Config.dsaVerify s.sec.ownerPub msg sig

/-- FmKey takes a value: the window of accepted FMSEQ values belongs to a key (R457; log 58). -/
def State.setFmKey (s : State) (b : List Byte) : State :=
  { s.updSec (fun k => { k with fmKey := b }) with fab := { s.fab with fmWin := if b = s.sec.fmKey then s.fab.fmWin else {} } }

/-! Vouchers. -/

def vKind (v : List Byte) : Nat := leAt v 2 1
def vSlot (v : List Byte) : Nat := leAt v 1 1
def vNew (v : List Byte) : List Byte := slice v 36 32

/-- R450 and R451 on the staged voucher. -/
def State.voucherOk (s : State) : Bool :=
  let v := s.sec.voucher
  let k := vKind v
  let n := s.fuses.slots.length
  let sig := slice v 96 3309
  decide (1 ≤ leAt v 3 1 ∧ leAt v 3 1 ≤ 3) && decide (leAt v 0 1 = 0) && allZero (slice v 68 28) && allZero (v.drop 3405) &&
  decide (slice v 4 32 = idDigest) &&
  (if k = 1 then !s.owned && decide (n < 4) && decide (vSlot v = n) && Config.dsaVerify Config.vendorCaKey (v.take 96) sig &&
      decide (digest s.sec.ownerKey = vNew v)
    else if k = 2 then s.owned && decide (n < 4) && decide (vSlot v = n) && s.ownerVerify (v.take 96) sig && decide (digest s.sec.ownerKey = vNew v)
    else if k = 3 then s.owned && decide (vSlot v + 1 = n) && s.ownerVerify (v.take 96) sig && allZero (vNew v)
    else false)

/-- Burn an owner digest into the lowest unburnt slot, burn a slot's release fuse, burn SvnFloor up to a number (R444, R449). -/
def FuseSt.burn (f : FuseSt) (d : List Byte) : FuseSt := { f with slots := f.slots ++ [d] }
def FuseSt.release (f : FuseSt) (i : Nat) : FuseSt := { f with released := f.released ++ [i] }
def FuseSt.raise (f : FuseSt) (n : Nat) : FuseSt := { f with svnFloor := max f.svnFloor n }

/-- OwnerCommit (R451). -/
def actOwnerCommit (s : State) : Act :=
  let v := s.sec.voucher
  let k := vKind v
  { inv := !s.voucherOk,
    bad := s.schedBusy || !(decide (s.husk.st = 0 ∨ s.husk.st = 12)),
    eff :=
      let s1 : State := if k = 3 then { s.updSec (fun x => { x with ownerPub := zeros 1952 }) with fuses := s.fuses.release (vSlot v) }
        else { s.updSec (fun x => { x with ownerPub := x.ownerKey }) with fuses := s.fuses.burn (vNew v) }
      let s2 : State := { s1.eraseJob with jobImages := [] }
      let s3 := ((s2.setFmKey (zeros 32)).updSec (fun x => { x with credFloor := 0 })).noteMr2
      s3.portsDown.post 0x0C01 1 s.srcSec [k, vSlot v] }

/-! The job. -/

/-- JobKey (R452): the count of tree packets and the windows of their sources start anew (R458). -/
def actJobKey (s : State) (b : List Byte) : Act :=
  { bad := s.jobBusy,
    eff :=
      let s1 : State := { s with jobKey := b.take 32, fab := { s.fab with tseq := 0, wins := [] } }
      (s1.updSec (fun k => { k with jobId := leAt b 32 8 })).post 0x0C05 1 s.srcSec (1 :: w64 (leAt b 32 8)) }

/-- Every HBM, scratchpad and control-window staging byte is zero and every MSC line invalid (R180, R452). -/
def State.zeroMemory (s : State) : State :=
  { s with
    mem := { s.mem with hbm := [], regions := s.mem.regions.mapV {} (fun _ g => { g with sets := [], poison := [] }) },
    cores := s.cores.mapV {} (fun _ k => { k with spad := [], sfu := { k.sfu with stage := [] } }) }

/-- JobRelease (R452). -/
def actJobRelease (s : State) : Act :=
  { bad := s.jobBusy, eff := s.eraseJob.zeroMemory.post 0x0C05 1 s.srcSec (2 :: w64 s.sec.jobId) }

/-- A write of JobImageList entry `k`, 1 to 16 (R453). -/
def actJobImage (s : State) (k : Nat) (b : List Byte) : Act :=
  { eff := ({ s with jobImages := s.jobImages.set (zeros 32) k b }).noteMr2 }

/-! Attestation and versions. -/

/-- AttestNonce (R447). -/
def actAttestNonce (s : State) (b : List Byte) : Act := { eff := s.updSec (fun k => { k with nonce := some b }) }

/-- ATTEST_REPORT_READY (R446, R447). -/
def execAttestReportReady (s : State) : Host.Outcome State Fault Refusal :=
  match s.sec.nonce with
  | some n => if s.busUp then .next (s.updSec (fun k => { k with nonce := none, report := s.reportOver n })) else .next s
  | none => .next s

/-- SvnRaise (R444). -/
def actSvnRaise (s : State) : Act :=
  { inv := decide (s.sec.runningSvn ≤ s.fuses.svnFloor),
    eff := ({ s with fuses := s.fuses.raise s.sec.runningSvn } : State).noteMr2.post 0x0C06 1 s.srcSec [s.sec.runningSvn] }

/-! Debug. -/

/-- DebugNonce is drawn anew (R460); all zero when the entropy source refuses (log 54). -/
def State.newDebugNonce (s : State) : State :=
  let r := s.draw s.logHub
  r.1.updSec (fun k => { k with dbgNonce := r.2.getD (zeros 32) })

/-- R460 on the staged token. -/
def State.tokenOk (s : State) : Bool :=
  let t := s.sec.dbgToken
  let sig := slice t 96 3309
  decide (1 ≤ leAt t 3 1 ∧ leAt t 3 1 ≤ 3) && decide (leAt t 0 2 < 16) && decide (leAt t 0 2 ≠ 0) && decide (1 ≤ leAt t 4 4 ∧ leAt t 4 4 ≤ 86400) &&
  decide (slice t 8 32 = idDigest) && decide (slice t 40 32 = s.sec.dbgNonce) && !allZero s.sec.dbgNonce && allZero (slice t 72 24) &&
  allZero (t.drop 3405) &&
  (if s.owned then decide (leAt t 2 1 = 1) && decide (digest s.sec.ownerKey = s.ownerDigest) && Config.dsaVerify s.sec.ownerKey (t.take 96) sig
   else decide (leAt t 2 1 = 2) && Config.dsaVerify Config.vendorCaKey (t.take 96) sig)

def secondTicks : Nat := 400000000

/-- DebugUnlock (R461); whatever the outcome, DebugNonce is drawn anew. -/
def actDebugUnlock (s : State) : Act :=
  let t := s.sec.dbgToken
  { inv := !s.tokenOk, bad := s.sec.dbgOpen || s.jobBusy, rej := some s.newDebugNonce,
    eff :=
      let s1 := s.eraseJob.portsDown.extendMr2 (t.take 96)
      let s2 := s1.updSec (fun k => { k with
        dbgOpen := true, dbgScope := BitVec.ofNat 4 (leAt t 0 2), dbgEnd := s.tsc + leAt t 4 4 * secondTicks })
      (s2.noteMr2.post 0x0C02 3 s.srcSec [leAt t 0 2, leAt t 4 4]).newDebugNonce }

/-- DebugRemaining: whole seconds left, rounded up (log 55). -/
def State.debugLeft (s : State) : Nat := if s.sec.dbgOpen then cdiv (s.sec.dbgEnd - s.tsc) secondTicks else 0

/-- A reset with a cause of R464 from inside the device: a record with cause RESET first, unless none can be written (R466, R485). -/
def State.resetBegin (s : State) (cause : Nat) : State :=
  if s.boot.resetWait.isSome then s
  else if (s.hub 0).fenced then s.cold .on cause
  else
    let s1 := s.boxRecord 5
    { s1 with boot := { s1.boot with resetWait := some cause } }

/-- DeviceReset (R437, R466). -/
def actDeviceReset (s : State) (v : Nat) : Act := { inv := decide (v ≠ 0xA5), eff := s.resetBegin 2 }

/-- DebugLock (R461). -/
def actDebugLock (s : State) : Act := { eff := s.resetBegin 3 }

/-- DEBUG_EXPIRE (R461). -/
def execDebugExpire (s : State) : Host.Outcome State Fault Refusal :=
  .next (if s.busUp && s.sec.dbgOpen && decide (s.sec.dbgEnd ≤ s.tsc) then s.resetBegin 3 else s)

/-- ENTROPY_FAIL (R441, R462). -/
def execEntropyFail (h : Fin 2) (s : State) : Host.Outcome State Fault Refusal :=
  if !s.busUp || !(s.hub h).clken.getLsbD 4 || (s.hub h).fenced then .next s
  else
    .next ((s.updSec (fun k => { k with
      entropyFails := k.entropyFails + 1, entropyBad := if k.entropyBad.contains h.val then k.entropyBad else k.entropyBad ++ [h.val] })).post
      0x0C07 2 (srcHub h 0x53) [4 + h.val])

end Sys2Proof.Machine
end

