-- ==== Sys2Proof/Machine/Boot.lean ====
section
/-! DEFINITION. Power-on and resets (R464 to R466, R492, R493, R501, R503), the persistent records (R429, R463), firmware slots (R442,
R443, R467, R469, R487), the boot ROM (R468, R470), the self-test (R471 to R475) and the Shell state (R476, R477). -/

namespace Sys2Proof.Machine

def State.updBoot (s : State) (f : BootSt → BootSt) : State := { s with boot := f s.boot }
def State.updFlash (s : State) (f : FlashSt → FlashSt) : State := { s with flash := f s.flash }

/-! Input and pins. -/

/-- POWER_ON (R492): from no power, or from the safe state by a power cycle. -/
def execPowerOn (s : State) : Host.Outcome State Fault Refusal :=
  .next (if s.boot.phase = .off ∨ s.boot.phase = .safe then s.cold .charging 0 else s)

/-- HOLDUP_CHARGED (R493): the rails turn on; the device stays in reset while RESET_N is low (R501). -/
def execHoldupCharged (s : State) : Host.Outcome State Fault Refusal :=
  .next (if s.boot.phase = .charging then s.updBoot (fun b => { b with
      phase := if b.pinLow then .held else .on, resetCause := if b.pinLow then 1 else b.resetCause })
    else s)

/-- INPUT_FALL_WHILE_CHARGING (R493). -/
def execInputFallWhileCharging (s : State) : Host.Outcome State Fault Refusal :=
  .next (if s.boot.phase = .charging then s.updBoot (fun b => { b with phase := .off }) else s)

/-- RESET_N_ASSERT: the pin has been low for 10 µs (R465, R466, R501). -/
def execResetNAssert (s : State) : Host.Outcome State Fault Refusal :=
  if s.boot.pinLow then .next s
  else
    let low := fun (s : State) => s.updBoot (fun b => { b with pinLow := true })
    match s.boot.phase with
    | .on => .next (low (s.boxTear.cold .held 1))
    | .waitExt => .next (low (s.boxTear.cold .held 1))
    | .safe => .next (low (s.cold .charging 1))
    | .charging => .next (low (s.updBoot (fun b => { b with resetCause := 1 })))
    | .held => .next (low s)
    | .off => .next (low s)

/-- RESET_N_RELEASE: the boot ROM begins, or waits for FLASH_EXT_N (R501, R503). -/
def execResetNRelease (s : State) : Host.Outcome State Fault Refusal :=
  .next (if s.boot.pinLow then s.updBoot (fun b => { b with
      pinLow := false, phase := if b.phase = .held then (if b.extLow then .waitExt else .on) else b.phase })
    else s)

/-- FLASH_EXT_N_ASSERT, sampled only while RESET_N is low (R503). -/
def execFlashExtNAssert (s : State) : Host.Outcome State Fault Refusal :=
  .next (if s.boot.pinLow then s.updBoot (fun b => { b with extLow := true }) else s)

/-- FLASH_EXT_RELEASE (R503). -/
def execFlashExtRelease (s : State) : Host.Outcome State Fault Refusal :=
  .next (s.updBoot (fun b => { b with extLow := false, phase := if b.phase = .waitExt then .on else b.phase }))

/-! Persistent records: their layout is the model's (log 56). -/

def cfgOff : Nat := 0x1810000
def secOff : Nat := 0x1820000
def areaLen : Nat := 0x10000

/-- The configuration record: version, the persistent objects of R429, digest. -/
def State.cfgRecord (s : State) : List Byte :=
  let m := s.mgmt
  let b := leBytes 4 (3 * 2 ^ 24) ++ slice m.addr 0 16 ++ leBytes 1 m.prefixLen ++ slice m.gateway 0 16 ++ leBytes 2 m.udp ++ leBytes 4 m.idle
  b ++ slice (digest b) 0 32
def cfgLen : Nat := 75

/-- The persistent security record: version and the objects of R463, sealed; its IV is taken from the digest of the plaintext. -/
def State.secRecord (s : State) : List Byte :=
  let k := s.sec
  let b := leBytes 4 (3 * 2 ^ 24) ++ slice k.ownerKey 0 1952 ++ leBytes 1 k.countersign ++ leBytes 8 k.credFloor ++ slice k.fmKey 0 32
  let iv := slice (digest b) 0 12
  iv ++ gcmCrypt sealKey iv b ++ slice (Config.gcmTag sealKey iv [] b) 0 16
def secLen : Nat := 2025

def recVer (b : List Byte) : Bool := decide (1 ≤ leAt b 3 1 ∧ leAt b 3 1 ≤ 3) && decide (leAt b 0 3 = 0)
def cfgOk (b : List Byte) : Bool := decide (b.drop 43 = slice (digest (b.take 43)) 0 32) && recVer b
def secPlain (b : List Byte) : List Byte := gcmCrypt sealKey (b.take 12) (slice b 12 1997)
def secOk (b : List Byte) : Bool :=
  decide (b.drop 2009 = slice (Config.gcmTag sealKey (b.take 12) [] (secPlain b)) 0 16) && recVer (secPlain b)

/-- The copy that passes its check: device 0's, then device 1's (R468). -/
def State.goodCopy (s : State) (off n : Nat) (ok : List Byte → Bool) : Option (List Byte) :=
  if ok (s.flashRead 0 off n) then some (s.flashRead 0 off n) else if ok (s.flashRead 1 off n) then some (s.flashRead 1 off n) else none

/-- A record is refused at boot: the event and ConfigResult (R429). -/
def State.cfgRefused (s : State) : State := (s.updFlash (fun f => { f with cfgResult := 2 })).post 0x0202 1 (srcHub 0 0x55) [1]

/-- Step 3 of R468. -/
def State.restoreRecords (s : State) : State :=
  let s1 := match s.goodCopy cfgOff cfgLen cfgOk with
    | some b => { s with mgmt := { s.mgmt with
        addr := slice b 4 16, prefixLen := leAt b 20 1, gateway := slice b 21 16, udp := leAt b 37 2, idle := leAt b 39 4 } }
    | none => s.cfgRefused
  match s1.goodCopy secOff secLen secOk with
  | some b =>
    let p := secPlain b
    (s1.setOwnerKey (slice p 4 1952)).updSec (fun k => { k with countersign := leAt p 1956 1, credFloor := leAt p 1957 8, fmKey := slice p 1965 32 })
  | none => s1.cfgRefused

/-- ConfigSave (R429): the values as they stand when the write is accepted. -/
def actConfigSave (s : State) : Act :=
  { bad := s.flash.cfgBusy.isSome, eff := s.updFlash (fun f => { f with cfgBusy := some (some (s.cfgRecord ++ s.secRecord)) }) }

/-- ConfigErase (R429). -/
def actConfigErase (s : State) : Act := { bad := s.flash.cfgBusy.isSome, eff := s.updFlash (fun f => { f with cfgBusy := some none }) }

/-- Both areas of both devices are erased. -/
def State.eraseRecords (s : State) : State := s.forEach [0, 1] (fun s d => (s.flashErase d cfgOff areaLen).flashErase d secOff areaLen)

/-- Both records go to both devices. -/
def State.writeRecords (s : State) (b : List Byte) : State :=
  s.eraseRecords.forEach [0, 1] (fun s d => (s.flashWrite d cfgOff (b.take cfgLen)).flashWrite d secOff (b.drop cfgLen))

/-- CONFIG_DONE (R429): a failure leaves free bytes where the records stood (log 56). With the north hub fenced the flash is lost (R17):
nothing of it changes, and ConfigResult shows the failure (log 80). -/
def execConfigDone (ok : Bool) (s : State) : Host.Outcome State Fault Refusal :=
  match (if s.busUp then s.flash.cfgBusy else none) with
  | none => .next s
  | some job =>
    let lost := (s.hub 0).fenced
    let s1 := s.updFlash (fun f => { f with cfgBusy := none, cfgResult := if ok && !lost then 0 else 1 })
    if lost then .next s1
    else if ok then
      match job with
      | some b => .next (s1.writeRecords b)
      | none => .next s1.eraseRecords
    else
      let r := s1.freeBytes (cfgLen + secLen)
      .next (r.1.writeRecords r.2)

/-! Firmware slots. -/

def slotLen : Nat := 0x1800000
def selOff : Nat := 0x1800000

/-- The header of the image in a device's slot, and its fields (R442). -/
def State.fwHdr (s : State) (dev : Nat) : List Byte := s.flashRead dev 0 128
def fwSvn (h : List Byte) : Nat := leAt h 5 1
def fwLen (h : List Byte) : Nat := leAt h 8 4

/-- R443, check 1: MAGIC, GEN and R7. -/
def fwShape (h : List Byte) (pad osig : List Byte) : Bool :=
  decide (leAt h 0 4 = 0x4B465733) && decide (1 ≤ leAt h 7 1 ∧ leAt h 7 1 ≤ 3) &&
  decide (leAt h 6 1 = 3) && decide (fwSvn h ≤ 64) && decide (leAt h 4 1 ≤ 1) && decide (fwLen h % 64 = 0) && decide (6784 + fwLen h ≤ slotLen) &&
  decide (leAt h 12 4 = 0) && allZero (slice h 48 80) && allZero pad && (decide (leAt h 4 1 = 1) || allZero osig)

/-- R443 on the image of a device's slot. -/
def State.fwOk (s : State) (dev : Nat) : Bool :=
  let h := s.fwHdr dev
  let vs := s.flashRead dev 128 3309
  let os := s.flashRead dev 3437 3309
  fwShape h (s.flashRead dev 6746 38) os && Config.dsaVerify Config.vendorFwKey h vs && decide (s.fuses.svnFloor ≤ fwSvn h) &&
  (!(s.owned && decide (s.sec.countersign = 1)) ||
    (decide (leAt h 4 1 = 1) && Config.dsaVerify s.sec.ownerKey (h ++ vs) os && decide (digest s.sec.ownerKey = s.ownerDigest))) &&
  decide (digest (s.flashRead dev 6784 (fwLen h)) = slice h 16 32)

/-- The slot that the boot selector names (R469). -/
def State.selected (s : State) : Nat :=
  let a := s.flashRead 0 selOff 1
  let b := s.flashRead 1 selOff 1
  if a = b ∧ ofLe a = 1 then 1 else 0

/-- The slot accepted, or 0xFF (R469). -/
def State.chooseSlot (s : State) : Nat :=
  let f := s.selected
  if s.fwOk f then f else if s.fwOk (1 - f) then 1 - f else 0xFF

/-- May the firmware slot actions act (R487)? -/
def State.fwBusy (s : State) : Bool := s.flash.fwErasing || s.schedBusy || decide (s.life = 1)

/-- FwSlotErase (R487). -/
def actFwSlotErase (s : State) : Act := { bad := s.fwBusy, eff := s.updFlash (fun f => { f with fwErasing := true }) }

/-- FW_SLOT_ERASE_DONE (R487): a failed erase leaves free bytes (log 57); with the north hub fenced the flash does not change (log 80). -/
def execFwSlotEraseDone (ok : Bool) (s : State) : Host.Outcome State Fault Refusal :=
  if !s.flash.fwErasing || !s.busUp then .next s
  else
    let lost := (s.hub 0).fenced
    let s1 := s.updFlash (fun f => { f with fwErasing := false, fwResult := if ok && !lost then 0 else 1 })
    if lost then .next s1
    else if ok then .next (s1.flashErase s.flash.fwTarget 0 slotLen)
    else
      let r := s1.freeBytes slotLen
      .next (r.1.flashWrite s.flash.fwTarget 0 r.2)

/-- FwSlotData (R487); `ok` is whether the page programs. After a failure the page holds free bytes and FwSlotOffset stays (log
57); with the north hub fenced the flash does not change (log 80). -/
def actFwSlotData (s : State) (b : List Byte) (ok : Bool) : Act :=
  let t := s.flash.fwTarget
  let o := s.flash.fwOffset
  { inv := decide (slotLen < o + 256), bad := s.fwBusy || !s.flashErased t o 256,
    eff :=
      if (s.hub 0).fenced then s.updFlash (fun f => { f with fwResult := 1 })
      else if ok then (s.flashWrite t o b).updFlash (fun f => { f with fwOffset := o + 256, fwResult := 0 })
      else
        let r := s.freeBytes 256
        (r.1.flashWrite t o r.2).updFlash (fun f => { f with fwResult := 1 }) }

/-- FwActivate (R487). -/
def actFwActivate (s : State) : Act :=
  let t := s.flash.fwTarget
  { bad := s.fwBusy,
    eff :=
      if (s.hub 0).fenced then s.updFlash (fun f => { f with fwResult := 1 })
      else if s.fwOk t then
        let s1 := s.forEach [0, 1] (fun s d => (s.flashErase d selOff 0x1000).flashWrite d selOff (leBytes 1 t))
        (s1.updFlash (fun f => { f with fwResult := 0 })).post 0x0E03 1 (srcHub 0 0x55) [t, fwSvn (s.fwHdr t)]
      else s.updFlash (fun f => { f with fwResult := 2 }) }

/-! The Shell state. -/

/-- Every block but the Shell kernel's is gated (R477). -/
def State.gateAll (s : State) : State :=
  let s1 := s.forEach allCores (fun s c => s.setClken c 0)
  let s2 := s1.forEach allRegions (fun s r => s.updRegion r (fun g => { g with clken := 0 }))
  (s2.updHub 0 (fun k => { k with clken := k.clken &&& 0x70 })).updHub 1 (fun k => { k with clken := 0 })

/-- Entry into the Shell state with a cause of R476 and the item that ended FAIL (R477). -/
def State.enterShell (s : State) (cause item : Nat) : State :=
  let s1 := s.forEach allPorts State.portDisable
  let s2 := (s1.updClock (fun k => { k with outLow := true })).gateAll
  let s3 := s2.updBoot (fun b => { b with shellCause := cause, failItem := item, testEnd := if item = 0 then b.testEnd else some s.tsc, item := 0 })
  let s4 := s3.boxRecord 4
  let s5 := if cause = 2 ∨ cause = 3 then s4.post 0x0F03 2 (srcHub 0 0xFF) [item, cause] else s4
  s5.setLife 5

/-! The boot ROM. -/

/-- What the reset sequencer sets before control core 0 of the north hub runs, and step 1 of R468 (R392, R445). -/
def State.romBegin (s : State) : State :=
  let s1 := s.updHub 0 (fun k => { k with clken := 0x70, cpuEn := 1 })
  (s1.updBoot (fun b => { b with rom := true })).updSec (fun k => { k with
    mr0 := extendMr k.mr0 (slice Config.romVersion 0 4 ++ digest Config.vendorFwKey ++ digest Config.vendorCaKey) })

/-- Steps 3 to 5 of R468: records, ring, slot. -/
def State.romChoose (s : State) : State :=
  let s1 := s.restoreRecords.newDebugNonce
  let n := s1.boxScan
  let s2 : State := { s1 with box := { s1.box with newest := n, next := n + 1 } }
  let slot := s2.chooseSlot
  let tgt := if slot = 0xFF then 1 - s2.selected else 1 - slot
  let s3 := (s2.updFlash (fun f => { f with fwTarget := tgt })).updBoot (fun b => { b with bootSlot := slot })
  if slot = 0xFF then s3.noteMr2.enterShell 1 0
  else
    (s3.updBoot (fun b => { b with accepted := true })).updSec (fun k => { k with
      fwDigest := digest (s3.fwHdr slot), runningSvn := fwSvn (s3.fwHdr slot) })

/-- BOOT_ROM_START (R468 to R470): none while the north hub, on which the boot flash hangs, is fenced (R18). -/
def execBootRomStart (kernelOk : Bool) (s : State) : Host.Outcome State Fault Refusal :=
  if s.boot.phase ≠ .on ∨ s.clock.locked = false ∨ s.life ≠ 0 ∨ s.boot.rom = true ∨ (s.hub 0).fenced = true then .next s
  else if kernelOk then .next s.romBegin.romChoose
  else .next (s.cold .safe s.boot.resetCause)

/-- FIRMWARE_START (R445, R468 step 6); a module whose north hub is fenced completes no cold boot (R18). -/
def execFirmwareStart (s : State) : Host.Outcome State Fault Refusal :=
  if s.busUp ∧ s.life = 0 ∧ s.boot.accepted = true ∧ (s.hub 0).fenced = false then
    let s1 := (s.updSec (fun k => { k with mr1 := extendMr k.mr1 k.fwDigest })).noteMr2
    .next ((s1.updBoot (fun b => { b with accepted := false, item := 1, testStart := s.tsc })).setLife 1)
  else .next s

/-! The self-test. -/

/-- The outcome of an item by where its faults lie (R473, R474). -/
def itemOutcome (n : Nat) (r : ItemReport) : Nat :=
  let south := r.southFault && decide (n = 3 ∨ n = 8 ∨ n = 9)
  let ports := decide (n = 6) && decide (r.portFail ≠ 0)
  if r.otherFault || (r.southFault && !south) then 4 else if south || ports then 3 else if r.repaired then 2 else 1

/-- What an item leaves: repaired lanes, disabled ports, a fenced hub, zeroed memory, cleared flags (R180, R471, R472, R474). -/
def State.itemEffect (s : State) (n : Nat) (r : ItemReport) : State :=
  let s1 := if n = 4 then s.forEach allRegions (fun s i => s.updRegion i (fun g => { g with laneRepairs := r.laneRepairs.getD i 0 })) else s
  let s2 := if n = 6 then s1.forEach (allPorts.filter (fun p => r.portFail.getLsbD p)) State.portDisable else s1
  let s3 := if r.southFault && decide (itemOutcome n r = 3) then s2.fenceHub 1 else s2
  let s4 := if n = 5 then s3.zeroMemory else s3
  if n = 7 then { s4 with cores := s4.cores.mapV {} (fun _ k => { k with
    mxe := { k.mxe with flags := {} }, vxe := { k.vxe with flags := {} }, sfu := { k.sfu with flags := {} } }) } else s4

/-- SelfTestElapsed in ms (R489). -/
def State.testMs (s : State) : Nat := if s.boot.testStart = 0 ∧ s.life = 0 then 0 else ((s.boot.testEnd.getD s.tsc) - s.boot.testStart) / 400000

/-- The self-test has completed (R180, R475, R479); a clear that waits for a reduction unit's clock applies now (R53). -/
def State.testDone (s : State) : State :=
  let s1 := s.zeroMemory.forEach allRegions (fun s r => s.updRegion r (fun g => { g with clken := 3 }))
  let s2 := s1.forEach [(0 : Fin 2), 1] (fun s h => if (s.hub h).fenced then s else
    (s.updHub h (fun k => { k with clken := if h = 0 then 0xFF else 0x1F, cpuEn := 0xFF })).flagEnable (.hub h))
  let s3 := s2.forEach (allPorts.filter (fun p => decide ((s.port p).st = 1))) (fun s p => s.updPort p (fun q => { q with downTick := s.tsc }))
  let s4 := (s3.updBoot (fun b => { b with item := 0, testEnd := some s.tsc })).updClock (fun k => { k with outLow := false })
  (s4.post 0x0F02 0 (srcHub s.logHub 0xFF) [s4.testMs]).setLife 2

/-- SELFTEST_ITEM (R471 to R475): the item in hand ends with what `rep` found; none ends while the north hub, whose control core runs the
test, is fenced (R18). -/
def execSelftestItem (rep : ItemReport) (s : State) : Host.Outcome State Fault Refusal :=
  let n := s.boot.item
  if !s.busUp || decide (s.life ≠ 1) || decide (n = 0) || (s.hub 0).fenced then .next s
  else
    let o := itemOutcome n rep
    let s1 := (s.itemEffect n rep).updBoot (fun b => { b with results := b.results.set 0 n o })
    if o = 4 then .next (s1.enterShell 2 n)
    else
      let s2 := if o = 1 then s1 else s1.post 0x0F01 1 (srcHub s1.logHub 0xFF) [n, o]
      .next (if n = 9 then s2.testDone else s2.updBoot (fun b => { b with item := n + 1 }))

/-- SELFTEST_TIMEOUT (R475): 90 s have passed. -/
def execSelftestTimeout (s : State) : Host.Outcome State Fault Refusal :=
  let n := s.boot.item
  if s.busUp ∧ s.life = 1 ∧ n ≠ 0 ∧ s.boot.testStart + 90 * secondTicks ≤ s.tsc then
    .next ((s.updBoot (fun b => { b with results := b.results.set 0 n 4 })).enterShell 3 n)
  else .next s

/-! Records and resets. -/

/-- A record that the loss of the flash with the north hub cuts short is torn, and no other is written (R17, R398; log 80). -/
def State.boxLost (s : State) : State := { s.boxTear with box := { s.boxTear.box with writing := none, waiting := none } }

/-- BLACKBOX_WRITTEN (R466, R484): when no record waits, a reset that waited for its record takes effect. -/
def execBlackboxWritten (fail0 fail1 : Bool) (s : State) : Host.Outcome State Fault Refusal :=
  match (if s.busUp then s.box.writing else none) with
  | none => .next s
  | some (c, b) =>
    let s1 := if (s.hub 0).fenced then s.boxLost else s.boxDone c b fail0 fail1
    if s1.box.writing.isSome then .next s1
    else
      match s1.boot.resetWait with
      | some k => .next (s1.cold .on k)
      | none => .next s1

/-! Pins and ports of the module. -/

/-- MGMT_BLOCK_LOCK (R437): the port is dark while MGMT is 0 or the north hub is fenced. -/
def execMgmtBlockLock (up : Bool) (s : State) : Host.Outcome State Fault Refusal :=
  let lit := s.powered && (s.hub 0).clken.getLsbD 5 && !(s.hub 0).fenced
  .next { s with mgmt := { s.mgmt with linkUp := up && lit } }

/-- TEST_ACCESS_PORT (R502): what the port serves. -/
def execTestAccessPort (i : TapInstr) (s : State) : Host.Outcome State Fault Refusal :=
  if !s.powered then .next s
  else
    let served := match i with
      | .scoped b => s.sec.dbgOpen && s.sec.dbgScope.getLsbD b
      | _ => true
    .next { s with out := Out.tap i served :: s.out }

end Sys2Proof.Machine
end

