-- ==== Sys2Proof/Machine/Objects.lean ====
section
/-! DEFINITION. The object dictionary: its table (R407 to R410 and the chapters' object tables), reads, the order of checks (R412), roles
(R419, R424, R463), lifecycle admission (R428, R463, R489), writes, and the control-core window (R415, R416). -/

namespace Sys2Proof.Machine

/-! The table. -/

/-- Types of R409 with the lengths that the tables state; a TABLE has an entry size, a bound and whether its entries are numbers. -/
inductive OTy where
  | u8 | u16 | u32 | u64 | i32 | f32 | str
  | blob (n : Nat)
  | blobUpTo (n : Nat)
  | table (size n : Nat) (num : Bool)
deriving DecidableEq, Repr

/-- Access codes of R5. -/
inductive OAcc where
  | ro | rw | wo | act
deriving DecidableEq, Repr

/-- An object, or objects of one type at consecutive sub-indices. -/
structure Obj where
  idx : Nat
  lo : Nat
  hi : Nat
  ty : OTy
  acc : OAcc
deriving DecidableEq, Repr

/-- Objects of area 1: identity. -/
def objects1 : List Obj :=
  [⟨0x0100, 0, 0, .str, .ro⟩, ⟨0x0101, 0, 0, .str, .ro⟩, ⟨0x0102, 0, 0, .u8, .ro⟩, ⟨0x0103, 0, 0, .str, .ro⟩,
   ⟨0x0104, 0, 0, .u8, .ro⟩, ⟨0x0105, 0, 0, .u8, .ro⟩, ⟨0x0106, 0, 0, .u8, .ro⟩, ⟨0x0107, 0, 0, (.blob 32), .ro⟩,
   ⟨0x0108, 0, 0, .str, .ro⟩, ⟨0x0109, 0, 0, (.blob 32), .ro⟩, ⟨0x010A, 1, 6, .u8, .ro⟩]

/-- Objects of area 2: lifecycle. -/
def objects2 : List Obj :=
  [⟨0x0200, 0, 0, .u8, .ro⟩, ⟨0x0201, 0, 0, .u64, .ro⟩, ⟨0x0202, 0, 0, .u8, .act⟩, ⟨0x0203, 0, 0, .u8, .act⟩,
   ⟨0x0204, 0, 0, .u8, .act⟩, ⟨0x0205, 0, 0, .u8, .ro⟩, ⟨0x0206, 0, 0, .u8, .ro⟩, ⟨0x0207, 0, 0, .u8, .ro⟩,
   ⟨0x0208, 0, 0, .u8, .ro⟩]

/-- Objects of area 3: clocks. -/
def objects3 : List Obj :=
  [⟨0x0300, 0, 0, .u8, .ro⟩, ⟨0x0301, 0, 0, .u8, .rw⟩, ⟨0x0302, 0, 0, .u8, .act⟩, ⟨0x0303, 0, 0, .u8, .ro⟩,
   ⟨0x0304, 0, 0, .u32, .ro⟩, ⟨0x0305, 0, 0, .u32, .ro⟩, ⟨0x0306, 0, 0, .u32, .rw⟩, ⟨0x0310, 1, 24, .u8, .rw⟩,
   ⟨0x0311, 1, 2, .u16, .rw⟩, ⟨0x0312, 1, 2, .u8, .rw⟩]

/-- Objects of area 4: power and thermal. -/
def objects4 : List Obj :=
  [⟨0x0400, 0, 0, .u32, .ro⟩, ⟨0x0401, 0, 0, .u32, .ro⟩, ⟨0x0402, 0, 0, .u8, .ro⟩, ⟨0x0403, 0, 0, .u32, .ro⟩,
   ⟨0x0404, 0, 0, .u8, .ro⟩, ⟨0x0410, 1, 4, .u8, .ro⟩, ⟨0x0411, 1, 4, .u8, .rw⟩, ⟨0x0412, 1, 4, .u32, .ro⟩,
   ⟨0x0413, 1, 6, .i32, .ro⟩, ⟨0x0414, 1, 4, .u8, .ro⟩, ⟨0x0420, 0, 0, .i32, .ro⟩, ⟨0x0421, 0, 0, .i32, .ro⟩]

/-- Objects of area 5: memory and streams. -/
def objects5 : List Obj :=
  [⟨0x0500, 0, 0, .u64, .ro⟩, ⟨0x0501, 0, 0, .u16, .act⟩, ⟨0x0502, 0, 0, .u8, .rw⟩, ⟨0x0503, 0, 0, .u16, .rw⟩,
   ⟨0x0504, 0, 0, .u32, .rw⟩, ⟨0x0510, 1, 24, .i32, .ro⟩, ⟨0x0511, 1, 24, .u8, .ro⟩, ⟨0x0512, 1, 24, .u64, .ro⟩,
   ⟨0x0513, 1, 24, .u64, .ro⟩, ⟨0x0514, 1, 24, .u16, .ro⟩, ⟨0x0515, 1, 24, .u16, .ro⟩, ⟨0x0516, 1, 4, .u64, .ro⟩,
   ⟨0x0520, 0, 0, .u64, .rw⟩, ⟨0x0521, 0, 0, .u64, .ro⟩]

/-- Objects of area 6: cores and schedules. -/
def objects6 : List Obj :=
  [⟨0x0600, 0, 0, .u8, .ro⟩, ⟨0x0601, 0, 0, .u64, .act⟩, ⟨0x0602, 0, 0, .u8, .act⟩, ⟨0x0603, 0, 0, .u8, .act⟩,
   ⟨0x0604, 0, 0, .u8, .ro⟩, ⟨0x0605, 0, 0, (.blob 32), .ro⟩, ⟨0x0606, 1, 1, .u8, .ro⟩, ⟨0x0606, 2, 2, .u8, .ro⟩,
   ⟨0x0606, 3, 3, .u8, .ro⟩, ⟨0x0606, 4, 4, .u16, .ro⟩, ⟨0x0606, 5, 5, .u32, .ro⟩, ⟨0x0606, 6, 6, .u64, .ro⟩,
   ⟨0x0607, 0, 0, .u32, .rw⟩, ⟨0x0608, 0, 0, .u16, .rw⟩, ⟨0x0610, 1, 4, .u64, .ro⟩, ⟨0x0611, 1, 4, (.blob 34), .ro⟩,
   ⟨0x0612, 1, 1, .u8, .ro⟩, ⟨0x0612, 2, 2, .u8, .ro⟩, ⟨0x0613, 1, 4, (.blob 34), .ro⟩, ⟨0x0614, 1, 4, (.blob 34), .ro⟩,
   ⟨0x0620, 0, 0, .u16, .ro⟩, ⟨0x0621, 0, 0, .u16, .act⟩, ⟨0x0622, 0, 0, .u64, .ro⟩, ⟨0x0623, 0, 0, .u64, .ro⟩]

/-- Objects of area 7: numeric flags. -/
def objects7 : List Obj :=
  [⟨0x0700, 0, 0, .u8, .ro⟩, ⟨0x0701, 0, 0, .u32, .act⟩, ⟨0x0702, 1, 4, (.blob 102), .ro⟩, ⟨0x0703, 1, 1, .u8, .ro⟩,
   ⟨0x0703, 2, 2, .u8, .ro⟩, ⟨0x0704, 0, 0, .u8, .rw⟩]

/-- Objects of area 8: links. -/
def objects8 : List Obj :=
  [⟨0x0800, 0, 0, .u64, .ro⟩, ⟨0x0801, 0, 0, .u64, .ro⟩, ⟨0x0802, 0, 0, .u32, .rw⟩,
   ⟨0x0803, 0, 0, (.table 32 8 false), .rw⟩, ⟨0x0810, 1, 40, .u8, .ro⟩, ⟨0x0811, 1, 40, .u8, .ro⟩,
   ⟨0x0812, 1, 40, .u8, .act⟩, ⟨0x0813, 1, 40, .u32, .rw⟩, ⟨0x0814, 1, 40, (.blob 32), .rw⟩, ⟨0x0815, 1, 40, .u32, .ro⟩,
   ⟨0x0816, 1, 40, (.blob 32), .ro⟩, ⟨0x0817, 1, 40, (.blob 32), .ro⟩, ⟨0x0818, 1, 40, .u8, .ro⟩,
   ⟨0x0819, 1, 40, .u8, .ro⟩, ⟨0x081A, 1, 40, .u64, .ro⟩, ⟨0x081B, 1, 40, .u64, .ro⟩, ⟨0x081C, 1, 40, .u64, .ro⟩,
   ⟨0x081D, 1, 40, .u64, .ro⟩]

/-- Objects of area 9: slices, collectives and the Reel. -/
def objects9 : List Obj :=
  [⟨0x0900, 0, 0, .u32, .rw⟩, ⟨0x0901, 0, 0, .u32, .rw⟩, ⟨0x0902, 0, 0, .u64, .act⟩, ⟨0x0903, 0, 0, .u64, .ro⟩,
   ⟨0x0904, 0, 0, .u64, .ro⟩, ⟨0x0905, 0, 0, (.table 2 16 true), .rw⟩, ⟨0x0906, 0, 0, .u8, .act⟩,
   ⟨0x0910, 0, 0, .u64, .ro⟩, ⟨0x0911, 0, 0, .u64, .ro⟩, ⟨0x0912, 0, 0, .u64, .ro⟩, ⟨0x0913, 0, 0, .u64, .ro⟩,
   ⟨0x0920, 1, 2, .u8, .ro⟩, ⟨0x0921, 1, 2, .u8, .ro⟩, ⟨0x0922, 1, 2, .u64, .ro⟩, ⟨0x0923, 0, 0, .u64, .ro⟩,
   ⟨0x0930, 1, 6, .u64, .ro⟩, ⟨0x0931, 0, 0, .u32, .rw⟩]

/-- Objects of area A: resilience. -/
def objectsA : List Obj :=
  [⟨0x0A00, 0, 0, .u8, .ro⟩, ⟨0x0A01, 0, 0, .u64, .ro⟩, ⟨0x0A02, 0, 0, .u8, .ro⟩, ⟨0x0A03, 0, 0, .u8, .ro⟩,
   ⟨0x0A04, 0, 0, (.table 4 64 true), .ro⟩, ⟨0x0A10, 0, 0, .u64, .rw⟩, ⟨0x0A11, 0, 0, .u32, .rw⟩,
   ⟨0x0A12, 0, 0, .u16, .rw⟩, ⟨0x0A13, 0, 0, .u32, .rw⟩, ⟨0x0A14, 0, 0, .u32, .rw⟩, ⟨0x0A15, 0, 0, .u64, .rw⟩,
   ⟨0x0A16, 0, 0, .u32, .rw⟩, ⟨0x0A17, 0, 0, .u32, .rw⟩, ⟨0x0A20, 0, 0, .u8, .act⟩, ⟨0x0A21, 0, 0, .u64, .act⟩,
   ⟨0x0A22, 0, 0, .u64, .act⟩, ⟨0x0A23, 0, 0, .u64, .act⟩, ⟨0x0A24, 0, 0, .u64, .act⟩, ⟨0x0A25, 0, 0, .u8, .act⟩,
   ⟨0x0A26, 0, 0, .u64, .act⟩, ⟨0x0A27, 0, 0, .u8, .act⟩, ⟨0x0A28, 0, 0, .u64, .act⟩, ⟨0x0A30, 0, 0, .u64, .rw⟩,
   ⟨0x0A31, 0, 0, .u32, .rw⟩, ⟨0x0A32, 0, 0, .u32, .ro⟩, ⟨0x0A33, 0, 0, (.blobUpTo 32), .act⟩, ⟨0x0A40, 0, 0, .u64, .ro⟩,
   ⟨0x0A41, 0, 0, .u64, .ro⟩, ⟨0x0A42, 0, 0, .u64, .ro⟩]

/-- Objects of area B: training. -/
def objectsB : List Obj :=
  [⟨0x0B00, 0, 0, .u64, .ro⟩, ⟨0x0B01, 0, 0, .u64, .rw⟩, ⟨0x0B02, 0, 0, .u16, .rw⟩, ⟨0x0B03, 0, 0, .u64, .rw⟩,
   ⟨0x0B04, 0, 0, .f32, .rw⟩, ⟨0x0B05, 0, 0, .u64, .act⟩, ⟨0x0B06, 0, 0, .u64, .act⟩, ⟨0x0B07, 0, 0, .u64, .act⟩,
   ⟨0x0B08, 0, 0, .u64, .ro⟩, ⟨0x0B09, 0, 0, .u16, .ro⟩, ⟨0x0B10, 0, 0, .u64, .rw⟩]

/-- Objects of area C: security. -/
def objectsC : List Obj :=
  [⟨0x0C00, 0, 0, .u8, .ro⟩, ⟨0x0C01, 0, 0, (.blob 32), .ro⟩, ⟨0x0C02, 0, 0, .u8, .ro⟩, ⟨0x0C03, 1, 7, (.blob 256), .rw⟩,
   ⟨0x0C03, 8, 8, (.blob 160), .rw⟩, ⟨0x0C04, 1, 14, (.blob 256), .wo⟩, ⟨0x0C05, 0, 0, .u8, .act⟩,
   ⟨0x0C06, 0, 0, .u8, .rw⟩, ⟨0x0C07, 0, 0, .u64, .rw⟩, ⟨0x0C10, 0, 0, (.blob 40), .wo⟩, ⟨0x0C11, 0, 0, .u64, .ro⟩,
   ⟨0x0C12, 0, 0, .u8, .act⟩, ⟨0x0C13, 1, 16, (.blob 32), .rw⟩, ⟨0x0C14, 0, 0, (.blob 32), .wo⟩,
   ⟨0x0C20, 1, 36, (.blob 256), .ro⟩, ⟨0x0C21, 0, 0, (.blob 32), .act⟩, ⟨0x0C22, 1, 4, (.blob 32), .ro⟩,
   ⟨0x0C23, 0, 0, .u8, .ro⟩, ⟨0x0C24, 0, 0, .u8, .act⟩, ⟨0x0C25, 0, 0, .u8, .ro⟩, ⟨0x0C30, 0, 0, .u8, .ro⟩,
   ⟨0x0C31, 0, 0, (.blob 32), .ro⟩, ⟨0x0C32, 1, 14, (.blob 256), .wo⟩, ⟨0x0C33, 0, 0, .u8, .act⟩,
   ⟨0x0C34, 0, 0, .u8, .act⟩, ⟨0x0C35, 0, 0, .u32, .ro⟩, ⟨0x0C40, 0, 0, .u64, .ro⟩]

/-- Objects of area D: events, time, management port. -/
def objectsD : List Obj :=
  [⟨0x0D00, 0, 0, .u64, .ro⟩, ⟨0x0D01, 0, 0, .u64, .ro⟩, ⟨0x0D02, 0, 0, .u64, .ro⟩, ⟨0x0D03, 0, 0, (.blob 44), .act⟩,
   ⟨0x0D40, 0, 0, .u64, .ro⟩, ⟨0x0D41, 0, 0, .u8, .rw⟩, ⟨0x0D42, 0, 0, .u8, .rw⟩, ⟨0x0D43, 0, 0, .u8, .ro⟩,
   ⟨0x0D44, 0, 0, .i32, .ro⟩, ⟨0x0D45, 1, 40, .u32, .ro⟩, ⟨0x0D60, 0, 0, .u64, .ro⟩, ⟨0x0D61, 0, 0, .u8, .ro⟩,
   ⟨0x0D62, 0, 0, (.blob 16), .rw⟩, ⟨0x0D63, 0, 0, .u8, .rw⟩, ⟨0x0D64, 0, 0, (.blob 16), .rw⟩, ⟨0x0D65, 0, 0, .u16, .rw⟩,
   ⟨0x0D66, 0, 0, .u32, .rw⟩, ⟨0x0D67, 0, 0, .u8, .ro⟩, ⟨0x0D68, 0, 0, .u64, .ro⟩, ⟨0x0D70, 0, 0, .u8, .ro⟩,
   ⟨0x0D71, 0, 0, .u32, .wo⟩]

/-- Objects of area E: black box and firmware slots. -/
def objectsE : List Obj :=
  [⟨0x0E00, 0, 0, .u64, .ro⟩, ⟨0x0E01, 0, 0, .u64, .rw⟩, ⟨0x0E02, 0, 0, .u8, .ro⟩, ⟨0x0E03, 1, 16, (.blob 256), .ro⟩,
   ⟨0x0E04, 0, 0, .u8, .act⟩, ⟨0x0E05, 0, 0, .u64, .ro⟩, ⟨0x0E80, 0, 0, .u8, .ro⟩, ⟨0x0E81, 0, 0, .u8, .act⟩,
   ⟨0x0E82, 0, 0, .u32, .rw⟩, ⟨0x0E83, 0, 0, (.blob 256), .act⟩, ⟨0x0E84, 0, 0, .u8, .act⟩, ⟨0x0E85, 0, 0, .u8, .ro⟩]

/-- Objects of area F: diagnostics. -/
def objectsF : List Obj :=
  [⟨0x0F00, 0, 0, .u8, .ro⟩, ⟨0x0F01, 0, 0, .u32, .ro⟩, ⟨0x0F02, 1, 9, .u8, .ro⟩, ⟨0x0F03, 0, 0, .u8, .ro⟩]

/-- The objects of an index, by its area (R407); the event log is a per-instance array (R432). -/
def areaObjects (idx : Nat) : List Obj :=
  match idx / 256 with
  | 1 => objects1
  | 2 => objects2
  | 3 => objects3
  | 4 => objects4
  | 5 => objects5
  | 6 => objects6
  | 7 => objects7
  | 8 => objects8
  | 9 => objects9
  | 10 => objectsA
  | 11 => objectsB
  | 12 => objectsC
  | 13 => objectsD
  | 14 => objectsE
  | 15 => objectsF
  | 16 => if idx < 0x1020 then [⟨idx, 0, 255, .blob 64, .ro⟩] else []
  | _ => []

def objectsAt (idx : Nat) : List Obj := (areaObjects idx).filter (fun o => decide (o.idx = idx))

/-- The largest sub-index of an index. -/
def lastSub (idx : Nat) : Nat := (objectsAt idx).foldl (fun m o => max m o.hi) 0

/-- The object Index.Sub: an index numbered from 1 answers at sub-index 0 with its count (R408). -/
def objOf (idx sub : Nat) : Option Obj :=
  match (objectsAt idx).find? (fun o => decide (o.lo ≤ sub ∧ sub ≤ o.hi)) with
  | some o => some o
  | none => if sub = 0 ∧ objectsAt idx ≠ [] then some ⟨idx, 0, 0, .u8, .ro⟩ else none

/-- Is sub-index 0 the count of R408? -/
def isCount (idx sub : Nat) : Bool := decide (sub = 0) && !(objectsAt idx).any (fun o => decide (o.lo = 0))

/-- WindowStatus and WindowCommit, which exist in the window only (R416). -/
def banked (idx : Nat) : Bool := decide (idx = 0x0D70 ∨ idx = 0x0D71)

/-- Bytes of a scalar type; none for the others. -/
def OTy.width : OTy → Option Nat
  | .u8 => some 1
  | .u16 => some 2
  | .u32 => some 4
  | .u64 => some 8
  | .i32 => some 4
  | .f32 => some 4
  | _ => none

/-- Does a length fit a type (R409, R412)? -/
def OTy.fits (t : OTy) (n : Nat) : Bool :=
  match t with
  | .str => decide (n ≤ 256)
  | .blob k => decide (n = k)
  | .blobUpTo k => decide (n ≤ k)
  | .table size k _ => decide (n % size = 0 ∧ n ≤ size * k)
  | t => decide (t.width = some n)

/-- Type codes of R409. -/
def OTy.code : OTy → Nat
  | .u8 => 0
  | .u16 => 1
  | .u32 => 2
  | .u64 => 3
  | .i32 => 4
  | .f32 => 5
  | .str => 6
  | .blob _ => 7
  | .blobUpTo _ => 7
  | .table _ _ _ => 8

/-- Bytes that a read of a WO object returns as zeros (R412). -/
def OTy.len : OTy → Nat
  | .blob n => n
  | t => t.width.getD 0

/-! Values, little-endian as in the window (R3). -/

/-- The physical numbers of the cores at positions 1 to 4 of a die's regions (R21, R22). -/
def innerCores : List Nat := (List.range 36).filter (fun n => decide (n % 6 ≠ 0 ∧ n % 6 ≠ 5))

/-- The two disabled cores of a die, as its fuses say: two different ones at positions 1 to 4 (R22). -/
def disabledPair (d : Nat) : List Nat :=
  ((innerCores ++ (Config.disabledCores d).filter (fun n => innerCores.contains n)).dedup.reverse).take 2

/-- Physical numbers of a die's enabled cores by logical number (R21 to R23): six to a region; positions 0 and 5 are the
wide-accumulator cores, and the two disabled cores are fused. -/
def physicalOf (d : Nat) : List Nat :=
  (List.range 6).flatMap (fun r => [6 * r, 6 * r + 5]) ++ innerCores.filter (fun n => !(disabledPair d).contains n)

def dieMap (s : State) (d : Nat) (f : CoreSt → List Byte) : List Byte := (List.range 34).flatMap (fun n => f (s.core (34 * d + n)))

def flagByte (r : FlagReg) : List Byte := leBytes 1 r.v.toNat

/-- The OR of every NUMFLAGS register (R52). -/
def State.flagSummary (s : State) : BitVec 4 :=
  s.cores.foldl (fun a p => a ||| p.2.mxe.flags.v ||| p.2.vxe.flags.v ||| p.2.sfu.flags.v) ((s.hub 0).flags.v ||| (s.hub 1).flags.v)

def valIdentity (s : State) (lo sub : Nat) : List Byte :=
  match lo with
  | 0x00 => ascii "KS3-2400-L"
  | 0x01 => ascii "Strelvar"
  | 0x02 => [3]
  | 0x03 => Config.serial.take 32
  | 0x04 => [3]
  | 0x05 => [1]
  | 0x06 => [3]
  | 0x07 => slice idDigest 0 32
  | 0x08 => if allZero s.sec.fwDigest then [] else (Config.fwVersion s.sec.fwDigest).take 64
  | 0x09 => slice s.sec.fwDigest 0 32
  | _ => leBytes 1 (Config.dieStepping (sub - 1)).toNat

def valLife (s : State) (lo : Nat) : List Byte :=
  match lo with
  | 0x00 => leBytes 1 s.life
  | 0x01 => leBytes 8 s.lifeSince
  | 0x05 => leBytes 1 s.flash.cfgResult
  | 0x06 => leBytes 1 s.boot.resetCause
  | 0x07 => leBytes 1 s.boot.bootSlot
  | _ => leBytes 1 s.boot.shellCause

def valClocks (s : State) (lo sub : Nat) : List Byte :=
  match lo with
  | 0x00 => leBytes 1 s.clock.active
  | 0x01 => leBytes 1 s.clock.refMax
  | 0x03 => leBytes 1 s.sourceStatus
  | 0x04 => leBytes 4 s.clock.failCount
  | 0x05 => leBytes 4 s.clock.unlockCount
  | 0x06 => leBytes 4 s.clock.outSel.toNat
  | 0x10 => leBytes 1 (s.region (sub - 1)).clken.toNat
  | 0x11 => leBytes 2 (s.hub (sub - 1)).clken.toNat
  | _ => leBytes 1 (s.hub (sub - 1)).cpuEn.toNat

def valPower (s : State) (lo sub : Nat) : List Byte :=
  match lo with
  | 0x00 => leBytes 4 s.power.vin
  | 0x01 => leBytes 4 s.inputPower
  | 0x02 => leBytes 1 s.power.stage
  | 0x03 => leBytes 4 s.power.shedCount
  | 0x04 => leBytes 1 s.power.capLevel
  | 0x10 => leBytes 1 (s.die (sub - 1)).level
  | 0x11 => leBytes 1 (s.die (sub - 1)).floor
  | 0x12 => leBytes 4 (s.die (sub - 1)).rail
  | 0x13 => i32 (s.power.temps.get 0 (sub - 1))
  | 0x14 => leBytes 1 (s.die (sub - 1)).therm
  | 0x20 => i32 s.power.coolantIn
  | _ => i32 s.power.coolantOut

def valMemory (s : State) (lo sub : Nat) : List Byte :=
  match lo with
  | 0x00 => leBytes 8 s.mem.bandMap.toNat
  | 0x02 => leBytes 1 s.mem.eccPolicy
  | 0x03 => leBytes 2 s.mem.scrubPeriod
  | 0x04 => leBytes 4 s.mem.ceThreshold
  | 0x10 => i32 (s.region (sub - 1)).temp
  | 0x11 => leBytes 1 (s.region (sub - 1)).throttle
  | 0x12 => leBytes 8 (s.region (sub - 1)).ce
  | 0x13 => leBytes 8 (s.region (sub - 1)).uec
  | 0x14 => leBytes 2 (s.region (sub - 1)).laneRepairs
  | 0x15 => leBytes 2 (s.region (sub - 1)).poison.length
  | 0x16 => leBytes 8 (s.mem.spadCe.get 0 (sub - 1))
  | 0x20 => leBytes 8 s.mem.remoteLimit
  | _ => leBytes 8 s.mem.streamErrors

/-- FaultRecord (R163). -/
def valFault (r : SchedSt) (sub : Nat) : List Byte :=
  match sub with
  | 1 => leBytes 1 r.recDie
  | 2 => leBytes 1 r.recCore
  | 3 => leBytes 1 r.recCode
  | 4 => leBytes 2 r.recCmd
  | 5 => leBytes 4 r.recOff
  | _ => leBytes 8 r.recTime

def valSched (s : State) (lo sub : Nat) : List Byte :=
  match lo with
  | 0x00 => leBytes 1 s.sched.st
  | 0x04 => leBytes 1 s.sched.loadResult
  | 0x05 => slice s.sched.digest 0 32
  | 0x06 => valFault s.sched sub
  | 0x07 => leBytes 4 s.sched.stallLimit
  | 0x08 => leBytes 2 s.sched.overrun
  | 0x10 => leBytes 8 ((physicalOf (sub - 1)).foldl (fun n p => n + 2 ^ p) 0)
  | 0x11 => slice ((physicalOf (sub - 1)).flatMap (leBytes 1)) 0 34
  | 0x12 => leBytes 1 (if (s.hub (sub - 1)).fenced then 1 else 0)
  | 0x13 => dieMap s (sub - 1) (fun k => leBytes 1 k.sfu.valid.toNat)
  | 0x14 => s.seqMap (sub - 1)
  | 0x20 => leBytes 2 s.sched.placeEpoch
  | 0x22 => leBytes 8 s.sched.stale
  | _ => leBytes 8 s.sched.future

def valFlags (s : State) (lo sub : Nat) : List Byte :=
  match lo with
  | 0x00 => leBytes 1 s.flagSummary.toNat
  | 0x02 => dieMap s (sub - 1) (fun k => flagByte k.mxe.flags ++ flagByte k.vxe.flags ++ flagByte k.sfu.flags)
  | 0x03 => flagByte (s.hub (sub - 1)).flags
  | _ => leBytes 1 s.flagMask.toNat

def valLinks (s : State) (lo sub : Nat) : List Byte :=
  let q := s.port (sub - 1)
  match lo with
  | 0x00 => leBytes 8 (s.portMask 8)
  | 0x01 => leBytes 8 (s.portMask 7)
  | 0x02 => leBytes 4 s.fab.waltzRetry
  | 0x03 => s.fab.fwAccept.flatten
  | 0x10 => leBytes 1 q.st
  | 0x11 => leBytes 1 q.hold
  | 0x13 => leBytes 4 q.expPeer.toNat
  | 0x14 => slice q.expKey 0 32
  | 0x15 => leBytes 4 q.seenPeer.toNat
  | 0x16 => slice q.seenKey 0 32
  | 0x17 => slice q.seenFw 0 32
  | 0x18 => leBytes 1 (if q.st = 8 then q.ver else 0)
  | 0x19 => leBytes 1 q.laneMap
  | 0x1A => leBytes 8 q.fecC
  | 0x1B => leBytes 8 q.fecU
  | 0x1C => leBytes 8 q.replays
  | _ => leBytes 8 q.heldDisc

/-- SliceBlock: with SLICE 0 the 1 × 1 × 1 block at the module's own coordinates (R291, R300). -/
def State.sliceBlock (s : State) : Nat :=
  if s.sliceId = 0 then s.devNum % 32 * 2 ^ 29 + s.devNum / 32 % 64 * 2 ^ 23 + s.devNum / 2048 % 64 * 2 ^ 17 else s.fab.sliceW.toNat

def valFabric (s : State) (lo sub : Nat) : List Byte :=
  match lo with
  | 0x00 => leBytes 4 s.fab.sysDims.toNat
  | 0x01 => leBytes 4 s.devNum
  | 0x03 => leBytes 8 s.sliceBlock
  | 0x04 => leBytes 8 s.boundaryMask
  | 0x05 => s.fab.treeAccept.flatMap (leBytes 2)
  | 0x10 => leBytes 8 s.fab.sliceDrops
  | 0x11 => leBytes 8 s.fab.headerDrops
  | 0x12 => leBytes 8 s.fab.noPathDrops
  | 0x13 => leBytes 8 s.fab.treeDrops
  | 0x20 => leBytes 1 (s.hub (sub - 1)).coll.st
  | 0x21 => leBytes 1 (s.hub (sub - 1)).coll.index
  | 0x22 => leBytes 8 (s.hub (sub - 1)).coll.heldCount
  | 0x23 => leBytes 8 s.fab.collErrors
  | 0x30 => leBytes 8 (s.fab.reelHeldCount.get 0 (sub - 1))
  | _ => leBytes 4 s.fab.reelHoldLimit

def valHusk (s : State) (lo : Nat) : List Byte :=
  let k := s.husk
  match lo with
  | 0x00 => leBytes 1 k.st
  | 0x01 => leBytes 8 k.gen
  | 0x02 => leBytes 1 k.result
  | 0x03 => leBytes 1 k.decision
  | 0x04 => k.lost.flatMap (leBytes 4)
  | 0x10 => leBytes 8 k.mapBase
  | 0x11 => leBytes 4 k.mapCount
  | 0x12 => leBytes 2 k.tray
  | 0x13 => leBytes 4 k.coord
  | 0x14 => leBytes 4 k.members
  | 0x15 => leBytes 8 k.sealGate
  | 0x16 => leBytes 4 k.settle
  | 0x17 => leBytes 4 k.lossWindow
  | 0x30 => leBytes 8 k.logBase
  | 0x31 => leBytes 4 k.logLen
  | 0x32 => leBytes 4 k.logNext
  | 0x40 => leBytes 8 k.rebuilt
  | 0x41 => leBytes 8 k.tagFail
  | _ => leBytes 8 k.staleSeals

def valTrain (s : State) (lo : Nat) : List Byte :=
  match lo with
  | 0x00 => leBytes 8 s.opt.step
  | 0x01 => leBytes 8 s.opt.base
  | 0x02 => leBytes 2 s.opt.count
  | 0x03 => leBytes 8 s.opt.gate
  | 0x04 => leBytes 4 s.opt.gscale.toNat
  | 0x08 => leBytes 8 s.opt.prepared
  | 0x09 => leBytes 2 s.opt.failGroup
  | _ => leBytes 8 s.opt.statBase

def valSecurity (s : State) (lo sub : Nat) : List Byte :=
  let k := s.sec
  match lo with
  | 0x00 => leBytes 1 (if s.owned then 1 else 0)
  | 0x01 => slice s.ownerDigest 0 32
  | 0x02 => leBytes 1 s.fuses.slots.length
  | 0x03 => slice k.ownerKey (256 * (sub - 1)) (if sub = 8 then 160 else 256)
  | 0x06 => leBytes 1 k.countersign
  | 0x07 => leBytes 8 k.credFloor
  | 0x11 => leBytes 8 k.jobId
  | 0x13 => slice (s.jobImages.get (zeros 32) sub) 0 32
  | 0x20 => slice k.report (256 * (sub - 1)) 256
  | 0x22 => if sub = 1 then k.mr0 else if sub = 2 then k.mr1 else if sub = 3 then k.mr2 else k.mr3
  | 0x23 => leBytes 1 s.fuses.svnFloor
  | 0x25 => leBytes 1 k.runningSvn
  | 0x30 => leBytes 1 (if k.dbgOpen then 1 else 0)
  | 0x31 => slice k.dbgNonce 0 32
  | 0x35 => leBytes 4 s.debugLeft
  | _ => leBytes 8 k.entropyFails

def valMgmt (s : State) (cpu : Option (Fin 16)) (lo sub : Nat) : List Byte :=
  match lo with
  | 0x00 => leBytes 8 s.log.next
  | 0x01 => leBytes 8 s.log.oldest
  | 0x02 => leBytes 8 s.log.lost
  | 0x40 => leBytes 8 s.tsc
  | 0x41 => leBytes 1 s.align.mode
  | 0x42 => leBytes 1 s.align.parent
  | 0x43 => leBytes 1 (if s.align.aligned then 1 else 0)
  | 0x44 => i32 s.align.err
  | 0x45 => leBytes 4 (s.port (sub - 1)).linkDelay
  | 0x60 => leBytes 8 Config.mac.toNat
  | 0x61 => leBytes 1 (if s.mgmt.linkUp then 1 else 0)
  | 0x62 => slice s.mgmt.addr 0 16
  | 0x63 => leBytes 1 s.mgmt.prefixLen
  | 0x64 => slice s.mgmt.gateway 0 16
  | 0x65 => leBytes 2 s.mgmt.udp
  | 0x66 => leBytes 4 s.mgmt.idle
  | 0x67 => leBytes 1 s.mgmt.sessions.length
  | 0x68 => leBytes 8 s.mgmt.drops
  | _ => leBytes 1 (match cpu with | some c => (s.cpu c).status | none => 0)

def valBox (s : State) (lo sub : Nat) : List Byte :=
  match lo with
  | 0x00 => leBytes 8 s.box.newest
  | 0x01 => leBytes 8 s.box.select
  | 0x02 => leBytes 1 s.box.status
  | 0x03 => slice s.box.data (256 * (sub - 1)) 256
  | 0x05 => leBytes 8 s.box.failures
  | 0x80 => leBytes 1 s.flash.fwTarget
  | 0x82 => leBytes 4 s.flash.fwOffset
  | _ => leBytes 1 s.flash.fwResult

def valTest (s : State) (lo sub : Nat) : List Byte :=
  match lo with
  | 0x00 => leBytes 1 s.boot.item
  | 0x01 => leBytes 4 s.testMs
  | 0x02 => leBytes 1 (s.boot.results.get 0 sub)
  | _ => leBytes 1 s.boot.failItem

/-- The value of an object that is read as such, by its area. -/
def State.objVal (s : State) (cpu : Option (Fin 16)) (idx sub : Nat) : List Byte :=
  let lo := idx % 256
  match idx / 256 with
  | 1 => valIdentity s lo sub
  | 2 => valLife s lo
  | 3 => valClocks s lo sub
  | 4 => valPower s lo sub
  | 5 => valMemory s lo sub
  | 6 => valSched s lo sub
  | 7 => valFlags s lo sub
  | 8 => valLinks s lo sub
  | 9 => valFabric s lo sub
  | 10 => valHusk s lo
  | 11 => valTrain s lo
  | 12 => valSecurity s lo sub
  | 13 => valMgmt s cpu lo sub
  | 14 => valBox s lo sub
  | 15 => valTest s lo sub
  | _ => s.evAt ((idx - 0x1000) * 256 + sub)

/-- An object of a block that the Shell state gates reads its Default (R477): the engines, the stacks and the collective sequencers. -/
def shellGated (idx : Nat) : Bool :=
  [0x0410, 0x0510, 0x0511, 0x0512, 0x0513, 0x0515, 0x0516, 0x0613, 0x0614, 0x0702, 0x0703, 0x0920, 0x0921, 0x0922].contains idx

/-- Is an action that was accepted still in progress (R412)? -/
def State.actRunning (s : State) (idx : Nat) : Bool :=
  match idx with
  | 0x0202 => s.boot.resetWait.isSome
  | 0x0203 => (match s.flash.cfgBusy with | some (some _) => true | _ => false)
  | 0x0204 => (match s.flash.cfgBusy with | some none => true | _ => false)
  | 0x0501 => !s.mem.bandChg.isEmpty
  | 0x0601 => decide (s.sched.st = 1)
  | 0x0603 => decide (s.sched.st = 5)
  | 0x0A20 => s.husk.loading
  | 0x0A21 => decide (s.husk.st = 2)
  | 0x0A22 => decide (s.husk.st = 4)
  | 0x0A23 => decide (s.husk.st = 6)
  | 0x0A24 => decide (s.husk.st = 8)
  | 0x0A25 => decide (s.husk.st = 10)
  | 0x0A26 => decide (s.husk.st = 11)
  | 0x0B05 => s.opt.running.isSome
  | 0x0C21 => s.sec.nonce.isSome
  | 0x0C34 => s.boot.resetWait.isSome
  | 0x0E04 => (s.box.writing.any (fun w => decide (w.1 = 6))) || decide (s.box.waiting = some 6)
  | 0x0E81 => s.flash.fwErasing
  | _ => false

def actKey (idx sub : Nat) : Nat := idx * 256 + sub

/-- The status that a read of an action returns (R412). Where a further write was refused while an accepted action still runs, it is that
refusal's status and not RUNNING: R5 and R412 leave open which of the two prevails (DESIGN CHOICE, log 80). -/
def State.actRead (s : State) (idx sub : Nat) : Nat :=
  let st := s.actStatus.get 0 (actKey idx sub)
  if st = 0 ∧ s.actRunning idx = true then 8 else st

/-- What a read of an object returns, little-endian, with its type (R411, R412). -/
def State.objRead (s : State) (cpu : Option (Fin 16)) (o : Obj) (idx sub : Nat) : OTy × List Byte :=
  if isCount idx sub then (.u8, leBytes 1 (lastSub idx))
  else
    match o.acc with
    | .act => (.u8, leBytes 1 (s.actRead idx sub))
    | .wo => (o.ty, zeros o.ty.len)
    | _ => (o.ty, if s.life = 5 ∧ shellGated idx = true then zeros o.ty.len else s.objVal cpu idx sub)

/-! Requests. -/

/-- The OD answers from SELFTEST on, while the clocks run and no reset waits for its record (R428). -/
def State.odAnswers (s : State) : Bool := s.busUp && decide (s.life ≠ 0) && s.boot.resetWait.isNone

/-- Does a role lack the right (R419, R424, R463)? -/
def denied (r : Role) (write : Bool) (idx : Nat) : Bool :=
  if !write then decide (r = .none) && !decide (0x0100 ≤ idx ∧ idx ≤ 0x02FF)
  else
    match r with
    | .none => true
    | .observer => decide (idx ≠ 0x0C21)
    | .operator => decide (0x0C00 ≤ idx ∧ idx ≤ 0x0CFF) && decide (idx ≠ 0x0C21)
    | .owner => false

/-- Does the lifecycle admit a write (R428, R463, R489)? -/
def admitted (life idx : Nat) (b : List Byte) : Bool :=
  let up := decide (2 ≤ life ∧ life ≤ 4)
  if idx / 256 = 0x0D ∨ idx = 0x0202 ∨ idx = 0x0701 ∨ idx = 0x0906 ∨ idx = 0x0A27 ∨ (idx = 0x0812 ∧ ofLe b = 2) then true
  else if idx / 256 = 0x0C then
    if idx = 0x0C21 then true
    else if idx = 0x0C32 ∨ idx = 0x0C33 ∨ idx = 0x0C34 then decide (life = 2 ∨ life = 3 ∨ life = 5)
    else up
  else if idx = 0x0E01 then true
  else if idx / 256 = 0x0E then up || decide (life = 5)
  else up

/-! Writes of objects that have no row of their own. -/

/-- A local HBM offset with an alignment. -/
def localBad (v align : Nat) : Bool := decide (v % align ≠ 0) || decide (hbmTop ≤ v)

def linkLocal (b : List Byte) : Bool := decide (leAt b 0 1 = 0xFE) && decide (leAt b 1 1 / 64 = 2)

/-- R437 on MgmtAddr and MgmtGateway. -/
def addrBad (b : List Byte) : Bool :=
  decide (leAt b 0 1 = 0xFF) || decide (b = zeros 15 ++ [1]) || linkLocal b
def gatewayBad (m : MgmtSt) (b : List Byte) : Bool :=
  !allZero b && !linkLocal b && (allZero m.addr || decide (ofBe b / 2 ^ (128 - m.prefixLen) ≠ ofBe m.addr / 2 ^ (128 - m.prefixLen)))

/-- May the objects of 0x0A10 to 0x0A17 be written (R380)? -/
def State.huskFixed (s : State) : Bool := !(decide (s.husk.st = 0 ∨ s.husk.st = 1 ∨ s.husk.st = 3 ∨ s.husk.st = 12))

/-- May SysDims and DevNum be written: no port from ATTEST to UP (R329)? -/
def State.portsBusy (s : State) : Bool := allPorts.any (fun p => decide (3 ≤ (s.port p).st ∧ (s.port p).st ≤ 8))

def devOutside (dims n : Nat) : Bool :=
  decide (nfld dims 16 12 < n % 32) || decide (nfld dims 11 6 < n / 32 % 64) || decide (nfld dims 5 0 < n / 2048 % 64)

def State.updHusk (s : State) (f : HuskSt → HuskSt) : State := { s with husk := f s.husk }
def State.updFab (s : State) (f : FabSt → FabSt) : State := { s with fab := f s.fab }
def State.updMgmt (s : State) (f : MgmtSt → MgmtSt) : State := { s with mgmt := f s.mgmt }

/-- The registers that a FlagClear names (R53). -/
def clearUnits (v : Word) : List FlagUnit :=
  let die := fld v 31 29
  let core := fld v 28 23
  let cs := (List.finRange 136).filter (fun (c : Fin 136) =>
    (decide (die = 7) || decide (die = dieOf c)) && (decide (core = 0x3F) || decide (core = logOf c)))
  let hs := (List.finRange 2).filter (fun (h : Fin 2) => decide (die = 7) || decide (die = 4 + h.val))
  (if bit v 19 then cs.map FlagUnit.mxe else []) ++ (if bit v 20 then cs.map FlagUnit.vxe else []) ++
    (if bit v 21 then cs.map FlagUnit.sfu else []) ++ (if bit v 22 then hs.map FlagUnit.hub else [])

/-- FlagClear (R53) with the sets that retire in the same cycle. -/
def actFlagClear (s : State) (v : Word) (coset : List (FlagUnit × BitVec 4)) : Act :=
  let us := clearUnits v
  { inv := decide (fld v 31 29 = 6) || (decide (33 < fld v 28 23) && decide (fld v 28 23 ≠ 0x3F)) || decide (fld v 18 4 ≠ 0) || us.isEmpty,
    eff := s.forEach us (fun s u => s.flagClear1 u (BitVec.ofNat 4 (fld v 3 0)) (cosetOf coset u)) }

def wrClocks (s : State) (cpu : Option (Fin 16)) (lo sub : Nat) (b : List Byte) : Act :=
  let n := ofLe b
  match lo with
  | 0x01 => { inv := decide (2 < n), eff := s.updClock (fun k => { k with refMax := n }) }
  | 0x02 => actClockReselect s
  | 0x06 => actClockOutSel s (BitVec.ofNat 32 n)
  | 0x10 => actRegionClkEn s (sub - 1) n
  | 0x11 => actHubClkEn s (sub - 1) n
  | 0x12 => actCtlCoreEnable s (cpu.map Fin.val) (sub - 1) n
  | _ => { eff := s }

def wrMemory (s : State) (lo : Nat) (b : List Byte) : Act :=
  let n := ofLe b
  match lo with
  | 0x01 => actBandSet s n
  | 0x02 => { inv := decide (1 < n), eff := { s with mem := { s.mem with eccPolicy := n } } }
  | 0x03 => { inv := decide (n = 0 ∨ 168 < n), eff := { s with mem := { s.mem with scrubPeriod := n } } }
  | 0x04 => { eff := { s with mem := { s.mem with ceThreshold := n } } }
  | 0x20 => { inv := decide (n % 2 ^ 30 ≠ 0) || decide (hbmTop < n), bad := s.schedBusy, eff := { s with mem := { s.mem with remoteLimit := n } } }
  | _ => { eff := s }

def wrSched (s : State) (lo : Nat) (b : List Byte) : Act :=
  let n := ofLe b
  match lo with
  | 0x01 => actLoad s n
  | 0x02 => actStart s n
  | 0x03 => actStop s
  | 0x07 => { inv := decide (n = 0 ∨ 60000000 < n), eff := { s with sched := { s.sched with stallLimit := n } } }
  | 0x08 => { eff := { s with sched := { s.sched with overrun := n } } }
  | 0x21 => actEpoch s n
  | _ => { eff := s }

def wrFlags (s : State) (lo : Nat) (b : List Byte) : Act :=
  let n := ofLe b
  match lo with
  | 0x01 => actFlagClear s (BitVec.ofNat 32 n) []
  | 0x04 => { inv := decide (15 < n), eff := { s with flagMask := BitVec.ofNat 4 n } }
  | _ => { eff := s }

def wrLinks (s : State) (lo sub : Nat) (b : List Byte) : Act :=
  let n := ofLe b
  match lo with
  | 0x02 => { inv := decide (n < 1000 ∨ 60000000 < n), eff := s.updFab (fun k => { k with waltzRetry := n }) }
  | 0x03 => { eff := s.updFab (fun k => { k with fwAccept := chunks 32 8 b }) }
  | 0x12 => actPortControl s (sub - 1) n
  | 0x13 => actExpectedPeer s (sub - 1) (.peer (BitVec.ofNat 32 n))
  | 0x14 => actExpectedPeer s (sub - 1) (.key b)
  | _ => { eff := s }

def wrFabric (s : State) (lo : Nat) (b : List Byte) : Act :=
  let n := ofLe b
  match lo with
  | 0x00 => { inv := decide (2 ^ 17 ≤ n) || devOutside n s.devNum, bad := s.portsBusy, eff := s.updFab (fun k => { k with sysDims := BitVec.ofNat 32 n }) }
  | 0x01 => { inv := decide (2 ^ 17 ≤ n) || devOutside s.fab.sysDims.toNat n, bad := s.portsBusy, eff := { s with devNum := n } }
  | 0x02 => actSliceSet s (BitVec.ofNat 64 n)
  | 0x05 => { bad := s.schedBusy, eff := s.updFab (fun k => { k with treeAccept := (chunks 2 16 b).map ofLe }) }
  | 0x06 => actSliceStop s
  | 0x31 => { inv := decide (n = 0 ∨ 60000000 < n), eff := s.updFab (fun k => { k with reelHoldLimit := n }) }
  | _ => { eff := s }

def wrHusk (s : State) (lo : Nat) (b : List Byte) : Act :=
  let n := ofLe b
  let fix := s.huskFixed
  let run := decide (s.sched.st = 3)
  match lo with
  | 0x10 => { inv := localBad n 256, bad := fix, eff := s.updHusk (fun k => { k with mapBase := n }) }
  | 0x11 => { inv := decide (4194304 < n), bad := fix, eff := s.updHusk (fun k => { k with mapCount := n }) }
  | 0x12 => { inv := decide (32767 < n), bad := fix, eff := s.updHusk (fun k => { k with tray := n }) }
  | 0x13 => { inv := decide (2 ^ 17 ≤ n), bad := fix, eff := s.updHusk (fun k => { k with coord := n }) }
  | 0x14 => { bad := fix, eff := s.updHusk (fun k => { k with members := n }) }
  | 0x15 => { inv := localBad n 64, bad := fix, eff := s.updHusk (fun k => { k with sealGate := n }) }
  | 0x16 => { inv := decide (n < 10 ∨ 1000000 < n), bad := fix, eff := s.updHusk (fun k => { k with settle := n }) }
  | 0x17 => { inv := decide (n < 2 ∨ 1000 < n), bad := fix, eff := s.updHusk (fun k => { k with lossWindow := n }) }
  | 0x20 => actHuskMapLoad s
  | 0x21 => actHuskInit s n
  | 0x22 => actHuskOpen s n
  | 0x23 => actHuskFold s n
  | 0x24 => actHuskSeal s n
  | 0x25 => actHuskRestore s
  | 0x26 => actHuskRebuild s n
  | 0x27 => actHuskDeclareLost s
  | 0x28 => actHuskResume s n
  | 0x30 => { inv := localBad n 64, bad := run, eff := s.updHusk (fun k => { k with logBase := n, logNext := 0 }) }
  | 0x31 => { bad := run, eff := s.updHusk (fun k => { k with logLen := n }) }
  | 0x33 => { bad := s.schedBusy, eff := s }
  | _ => { eff := s }

def wrTrain (s : State) (lo : Nat) (b : List Byte) : Act :=
  let n := ofLe b
  let busy := s.schedBusy || s.opt.running.isSome
  match lo with
  | 0x01 => { inv := localBad n 64, bad := busy, eff := { s with opt := { s.opt with base := n } } }
  | 0x02 => { inv := decide (4096 < n), bad := busy, eff := { s with opt := { s.opt with count := n } } }
  | 0x03 => { inv := localBad n 64, bad := busy, eff := { s with opt := { s.opt with gate := n } } }
  | 0x04 => { inv := decide (0x7F800000 ≤ n), eff := { s with opt := { s.opt with gscale := BitVec.ofNat 32 n } } }
  | 0x05 => actOptPrepare s n
  | 0x06 => actOptCommit s n
  | 0x07 => actTrainStepSet s n
  | 0x10 => { inv := localBad n 64, bad := busy, eff := { s with opt := { s.opt with statBase := n } } }
  | _ => { eff := s }

def wrSecurity (s : State) (lo sub : Nat) (b : List Byte) : Act :=
  let n := ofLe b
  match lo with
  | 0x03 => { eff := s.setOwnerKey (mergeAt s.sec.ownerKey (256 * (sub - 1)) b) }
  | 0x04 => { eff := s.updSec (fun k => { k with voucher := mergeAt k.voucher (256 * (sub - 1)) b }) }
  | 0x05 => actOwnerCommit s
  | 0x06 => { inv := decide (1 < n), eff := s.updSec (fun k => { k with countersign := n }) }
  | 0x07 => { eff := s.updSec (fun k => { k with credFloor := n }) }
  | 0x10 => actJobKey s b
  | 0x12 => actJobRelease s
  | 0x13 => actJobImage s sub b
  | 0x14 => { eff := s.setFmKey b }
  | 0x21 => actAttestNonce s b
  | 0x24 => actSvnRaise s
  | 0x32 => { eff := s.updSec (fun k => { k with dbgToken := mergeAt k.dbgToken (256 * (sub - 1)) b }) }
  | 0x33 => actDebugUnlock s
  | 0x34 => actDebugLock s
  | _ => { eff := s }

def wrMgmt (s : State) (lo : Nat) (b : List Byte) : Act :=
  let n := ofLe b
  match lo with
  | 0x03 => actEventPost s b
  | 0x41 => { inv := decide (2 < n), bad := decide (s.sched.st = 3), eff := { s with align := { s.align with mode := n, slew := 0 } } }
  | 0x42 => { inv := decide (39 < n), bad := decide (s.sched.st = 3), eff := { s with align := { s.align with parent := n } } }
  | 0x62 => { inv := addrBad b, eff := s.updMgmt (fun k => { k with addr := b }) }
  | 0x63 => { inv := decide (n = 0 ∨ 128 < n), eff := s.updMgmt (fun k => { k with prefixLen := n }) }
  | 0x64 => { inv := gatewayBad s.mgmt b, eff := s.updMgmt (fun k => { k with gateway := b }) }
  | 0x65 => { inv := decide (n < 1024), eff := s.updMgmt (fun k => { k with udp := n }) }
  | 0x66 => { inv := decide (n < 1000 ∨ 600000 < n), eff := s.updMgmt (fun k => { k with idle := n }) }
  | _ => { eff := s }

def wrBox (s : State) (lo : Nat) (b : List Byte) : Act :=
  let n := ofLe b
  match lo with
  | 0x01 => actBlackBoxSelect s n
  | 0x04 => actBlackBoxWrite s
  | 0x81 => actFwSlotErase s
  | 0x82 => { inv := decide (n % 256 ≠ 0) || decide (slotLen < n + 256), eff := s.updFlash (fun f => { f with fwOffset := n }) }
  | 0x83 => actFwSlotData s b true
  | 0x84 => actFwActivate s
  | _ => { eff := s }

/-- What a write to a writable object does, by its area; the value is little-endian. -/
def State.objAct (s : State) (cpu : Option (Fin 16)) (idx sub : Nat) (b : List Byte) : Act :=
  let lo := idx % 256
  match idx / 256 with
  | 2 => if lo = 2 then actDeviceReset s (ofLe b) else if lo = 3 then actConfigSave s else actConfigErase s
  | 3 => wrClocks s cpu lo sub b
  | 4 => { inv := decide (3 < ofLe b), eff := s.updDie (sub - 1) (fun k => { k with floor := ofLe b }) }
  | 5 => wrMemory s lo b
  | 6 => wrSched s lo b
  | 7 => wrFlags s lo b
  | 8 => wrLinks s lo sub b
  | 9 => wrFabric s lo b
  | 10 => wrHusk s lo b
  | 11 => wrTrain s lo b
  | 12 => wrSecurity s lo sub b
  | 13 => wrMgmt s lo b
  | 14 => wrBox s lo b
  | _ => { eff := s }

/-! A request in order (R412). -/

/-- The status of an action's last write. -/
def State.noteAct (s : State) (acc : OAcc) (idx sub st : Nat) : State :=
  if acc = .act then { s with actStatus := s.actStatus.set 0 (actKey idx sub) st } else s

/-- A write that has passed the checks of index, sub-index, authority, access and length: value, state, then the effect; a write
that the action log records is logged first (R376). -/
def State.odApply (s : State) (o : Obj) (idx sub : Nat) (b : List Byte) (act : State → Act) : State × Nat :=
  let s0 := s.noteAct o.acc idx sub 0
  let a := act s0
  let refuse := fun (st : Nat) => (((a.rej.getD s0)).noteAct o.acc idx sub st, st)
  if a.inv then refuse 3
  else if a.bad || !admitted s.life idx b then refuse 2
  else if loggedObj idx (decide (o.acc = .act)) then ((act (s0.appendLog idx sub b)).eff, 0)
  else (a.eff, 0)

/-- A write request with what its object does (R412): the state it leaves and its status of R413. -/
def State.odRequest (s : State) (q : OdReq) (idx sub : Nat) (b : List Byte) (act : State → Act) : State × Nat :=
  if objectsAt idx = [] ∨ (banked idx = true ∧ q.cpu = none) then (s, 4)
  else
    match objOf idx sub with
    | none => (s, 5)
    | some o =>
      if denied q.role true idx then (s.noteAct o.acc idx sub 7, 7)
      else if o.acc = .ro then (s, 1)
      else if !o.ty.fits b.length then (s.noteAct o.acc idx sub 6, 6)
      else s.odApply o idx sub b act

/-- A write request to an object (R412). -/
def State.odWrite (s : State) (q : OdReq) (idx sub : Nat) (b : List Byte) : State × Nat :=
  s.odRequest q idx sub b (fun t => t.objAct q.cpu idx sub b)

/-- A read request (R412): status, type and value. -/
def State.odRead (s : State) (q : OdReq) (idx sub : Nat) : Nat × OTy × List Byte :=
  if objectsAt idx = [] ∨ (banked idx = true ∧ q.cpu = none) then (4, .u8, [])
  else
    match objOf idx sub with
    | none => (5, .u8, [])
    | some o => if denied q.role false idx then (7, .u8, []) else (0, s.objRead q.cpu o idx sub)

/-! The control-core window (R415, R416). -/

/-- The request of a control core: the OWNER role. -/
def cpuReq (c : Fin 16) : OdReq := { role := .owner, cpu := some c }

/-- Index, sub-index and byte of an offset in the window. -/
def slotOf (rel : Nat) : Nat × Nat × Nat := (rel / 65536, rel / 256 % 256, rel % 256)

/-- A load from the window at offset `rel`. -/
def State.windowRead (s : State) (c : Fin 16) (rel width : Nat) : State :=
  let (idx, sub, at_) := slotOf rel
  let slot := idx * 256 + sub
  if !naturally at_ width || !s.odAnswers || (objOf idx sub).isNone then s.cpuOut c true 0
  else
    let k := s.cpu c
    let latched := decide (at_ ≠ 0) && decide (k.latchSlot = some slot)
    let v := if latched then k.latch else (s.odRead (cpuReq c) idx sub).2.2
    let s1 := if at_ = 0 then s.updCpu c (fun k => { k with latchSlot := some slot, latch := v }) else s
    s1.cpuOut c false (ofLe (slice v at_ width))

/-- A window write records its status. -/
def State.windowDone (s : State) (c : Fin 16) (st : Nat) : State := (s.updCpu c (fun k => { k with status := st })).cpuOut c false 0

/-- A commit of `n` staged bytes: whatever its status, the staged bytes go. -/
def State.windowCommit (s : State) (c : Fin 16) (n : Nat) : State :=
  let k := s.cpu c
  let s1 := s.updCpu c (fun k => { k with staged := none, stage := [] })
  if 256 < n then s1.windowDone c 3
  else
    match k.staged with
    | none => s1.windowDone c 2
    | some slot =>
      let r := s1.odWrite (cpuReq c) (slot / 256) (slot % 256) (k.stage.gets 0 0 n)
      r.1.windowDone c r.2

/-- A store to the window at offset `rel`. -/
def State.windowPut (s : State) (c : Fin 16) (rel width : Nat) (v : BitVec 64) : State :=
  let (idx, sub, at_) := slotOf rel
  match (if s.odAnswers then objOf idx sub else none) with
  | none => s.cpuOut c true 0
  | some o =>
    match o.ty.width with
    | some w =>
      if at_ ≠ 0 ∨ width ≠ w then s.windowDone c 6
      else if idx = 0x0D71 then s.windowCommit c (v.toNat % 2 ^ 32)
      else
        let r := s.odWrite (cpuReq c) idx sub (leBytes w v.toNat)
        r.1.windowDone c r.2
    | none =>
      if !naturally at_ width then s.windowDone c 6
      else
        let slot := idx * 256 + sub
        let old := if (s.cpu c).staged = some slot then (s.cpu c).stage else []
        (s.updCpu c (fun k => { k with staged := some slot, stage := old.sets 0 at_ (leBytes width v.toNat) })).windowDone c 0

end Sys2Proof.Machine
end

