-- ==== Sys2Proof/Machine/Actions.lean ====
section
/-! DEFINITION. The rows that are writes of objects, each one request of R412, and the control-core accesses that may reach the object
dictionary window. A request that finds the OD not answering has no effect (R428). -/

namespace Sys2Proof.Machine

/-- One write request; a store of a control core records its status (R415). -/
def State.request (s : State) (q : OdReq) (idx sub : Nat) (b : List Byte) (act : State → Act) : State :=
  if !s.odAnswers then s
  else
    let r := s.odRequest q idx sub b act
    match q.cpu with
    | some c => r.1.updCpu c (fun k => { k with status := r.2 })
    | none => r.1

/-- One write request to an object by its index. -/
def State.put (s : State) (q : OdReq) (idx sub : Nat) (b : List Byte) : State :=
  s.request q idx sub b (fun t => t.objAct q.cpu idx sub b)

/-- LOAD_SCHEDULE (R131, R134). -/
def execLoadSchedule (q : OdReq) (off : BitVec 64) (s : State) : Host.Outcome State Fault Refusal :=
  .next (s.put q 0x0601 0 (leBytes 8 off.toNat))

/-- START_SCHEDULE (R135). -/
def execStartSchedule (q : OdReq) (e : BitVec 8) (s : State) : Host.Outcome State Fault Refusal :=
  .next (s.put q 0x0602 0 (leBytes 1 e.toNat))

/-- STOP_SCHEDULE (R137). -/
def execStopSchedule (q : OdReq) (v : BitVec 8) (s : State) : Host.Outcome State Fault Refusal :=
  .next (s.put q 0x0603 0 (leBytes 1 v.toNat))

/-- PLACE_EPOCH_ADVANCE (R175). -/
def execPlaceEpochAdvance (q : OdReq) (e : BitVec 16) (s : State) : Host.Outcome State Fault Refusal :=
  .next (s.put q 0x0621 0 (leBytes 2 e.toNat))

/-- FLAG_CLEAR (R53), with the sets that retire in the same cycle. -/
def execFlagClear (q : OdReq) (v : Word) (coset : List (FlagUnit × BitVec 4)) (s : State) : Host.Outcome State Fault Refusal :=
  .next (s.request q 0x0701 0 (leBytes 4 v.toNat) (fun t => actFlagClear t v coset))

/-- HBM_BAND_SET (R183). -/
def execHbmBandSet (q : OdReq) (v : BitVec 16) (s : State) : Host.Outcome State Fault Refusal :=
  .next (s.put q 0x0501 0 (leBytes 2 v.toNat))

/-- PORT_ENABLE (R289). -/
def execPortEnable (q : OdReq) (p : Fin 40) (s : State) : Host.Outcome State Fault Refusal :=
  .next (s.put q 0x0812 (p.val + 1) [1])

/-- PORT_DISABLE (R289). -/
def execPortDisable (q : OdReq) (p : Fin 40) (s : State) : Host.Outcome State Fault Refusal :=
  .next (s.put q 0x0812 (p.val + 1) [2])

/-- PORT_RETRAIN (R289). -/
def execPortRetrain (q : OdReq) (p : Fin 40) (s : State) : Host.Outcome State Fault Refusal :=
  .next (s.put q 0x0812 (p.val + 1) [3])

/-- EXPECTED_PEER_WRITE (R287, R289). -/
def execExpectedPeerWrite (q : OdReq) (p : Fin 40) (w : PeerWrite) (s : State) : Host.Outcome State Fault Refusal :=
  match w with
  | .peer v => .next (s.put q 0x0813 (p.val + 1) (leBytes 4 v.toNat))
  | .key b => .next (s.put q 0x0814 (p.val + 1) b)

/-- SLICE_SET (R300). -/
def execSliceSet (q : OdReq) (v : BitVec 64) (s : State) : Host.Outcome State Fault Refusal :=
  .next (s.put q 0x0902 0 (leBytes 8 v.toNat))

/-- SLICE_STOP (R309). -/
def execSliceStop (q : OdReq) (v : BitVec 8) (s : State) : Host.Outcome State Fault Refusal :=
  .next (s.put q 0x0906 0 (leBytes 1 v.toNat))

/-- OPT_PREPARE (R339). -/
def execOptPrepare (q : OdReq) (n : BitVec 64) (s : State) : Host.Outcome State Fault Refusal :=
  .next (s.put q 0x0B05 0 (leBytes 8 n.toNat))

/-- OPT_COMMIT (R340). -/
def execOptCommit (q : OdReq) (n : BitVec 64) (s : State) : Host.Outcome State Fault Refusal :=
  .next (s.put q 0x0B06 0 (leBytes 8 n.toNat))

/-- TRAIN_STEP_SET (R341). -/
def execTrainStepSet (q : OdReq) (n : BitVec 64) (s : State) : Host.Outcome State Fault Refusal :=
  .next (s.put q 0x0B07 0 (leBytes 8 n.toNat))

/-- HUSK_MAP_LOAD (R357). -/
def execHuskMapLoad (q : OdReq) (v : BitVec 8) (s : State) : Host.Outcome State Fault Refusal :=
  .next (s.put q 0x0A20 0 (leBytes 1 v.toNat))

/-- HUSK_INIT (R359). -/
def execHuskInit (q : OdReq) (g : BitVec 64) (s : State) : Host.Outcome State Fault Refusal :=
  .next (s.put q 0x0A21 0 (leBytes 8 g.toNat))

/-- HUSK_OPEN (R360). -/
def execHuskOpen (q : OdReq) (g : BitVec 64) (s : State) : Host.Outcome State Fault Refusal :=
  .next (s.put q 0x0A22 0 (leBytes 8 g.toNat))

/-- HUSK_FOLD (R361). -/
def execHuskFold (q : OdReq) (g : BitVec 64) (s : State) : Host.Outcome State Fault Refusal :=
  .next (s.put q 0x0A23 0 (leBytes 8 g.toNat))

/-- HUSK_SEAL (R362). -/
def execHuskSeal (q : OdReq) (g : BitVec 64) (s : State) : Host.Outcome State Fault Refusal :=
  .next (s.put q 0x0A24 0 (leBytes 8 g.toNat))

/-- HUSK_RESTORE (R371). -/
def execHuskRestore (q : OdReq) (v : BitVec 8) (s : State) : Host.Outcome State Fault Refusal :=
  .next (s.put q 0x0A25 0 (leBytes 1 v.toNat))

/-- HUSK_REBUILD (R372). -/
def execHuskRebuild (q : OdReq) (off : BitVec 64) (s : State) : Host.Outcome State Fault Refusal :=
  .next (s.put q 0x0A26 0 (leBytes 8 off.toNat))

/-- HUSK_DECLARE_LOST (R370). -/
def execHuskDeclareLost (q : OdReq) (v : BitVec 8) (s : State) : Host.Outcome State Fault Refusal :=
  .next (s.put q 0x0A27 0 (leBytes 1 v.toNat))

/-- HUSK_RESUME (R375). -/
def execHuskResume (q : OdReq) (v : BitVec 64) (s : State) : Host.Outcome State Fault Refusal :=
  .next (s.put q 0x0A28 0 (leBytes 8 v.toNat))

/-- ACTION_LOG_APPEND (R376). -/
def execActionLogAppend (q : OdReq) (b : List Byte) (s : State) : Host.Outcome State Fault Refusal :=
  .next (s.put q 0x0A33 0 b)

/-- CLOCK_RESELECT (R384). -/
def execClockReselect (q : OdReq) (v : BitVec 8) (s : State) : Host.Outcome State Fault Refusal :=
  .next (s.put q 0x0302 0 (leBytes 1 v.toNat))

/-- REGION_CLKEN_WRITE (R392, R394). -/
def execRegionClkenWrite (q : OdReq) (r : Fin 24) (v : BitVec 8) (s : State) : Host.Outcome State Fault Refusal :=
  .next (s.put q 0x0310 (r.val + 1) (leBytes 1 v.toNat))

/-- HUB_CLKEN_WRITE (R392, R394). -/
def execHubClkenWrite (q : OdReq) (h : Fin 2) (v : BitVec 16) (s : State) : Host.Outcome State Fault Refusal :=
  .next (s.put q 0x0311 (h.val + 1) (leBytes 2 v.toNat))

/-- CTL_CORE_ENABLE_WRITE (R392, R394). -/
def execCtlCoreEnableWrite (q : OdReq) (h : Fin 2) (v : BitVec 8) (s : State) : Host.Outcome State Fault Refusal :=
  .next (s.put q 0x0312 (h.val + 1) (leBytes 1 v.toNat))

/-- CLOCK_OUT_SEL_WRITE (R402). -/
def execClockOutSelWrite (q : OdReq) (v : Word) (s : State) : Host.Outcome State Fault Refusal :=
  .next (s.put q 0x0306 0 (leBytes 4 v.toNat))

/-- OD_WRITE (R412): an object by its index and sub-index. -/
def execOdWrite (q : OdReq) (idx : BitVec 16) (sub : BitVec 8) (b : List Byte) (s : State) : Host.Outcome State Fault Refusal :=
  .next (s.put q idx.toNat sub.toNat b)

/-- EVENT_POST (R436). -/
def execEventPost (q : OdReq) (b : List Byte) (s : State) : Host.Outcome State Fault Refusal :=
  .next (s.put q 0x0D03 0 b)

/-- CONFIG_SAVE (R429). -/
def execConfigSave (q : OdReq) (v : BitVec 8) (s : State) : Host.Outcome State Fault Refusal :=
  .next (s.put q 0x0203 0 (leBytes 1 v.toNat))

/-- CONFIG_ERASE (R429). -/
def execConfigErase (q : OdReq) (v : BitVec 8) (s : State) : Host.Outcome State Fault Refusal :=
  .next (s.put q 0x0204 0 (leBytes 1 v.toNat))

/-- DEVICE_RESET (R437, R466). -/
def execDeviceReset (q : OdReq) (v : BitVec 8) (s : State) : Host.Outcome State Fault Refusal :=
  .next (s.put q 0x0202 0 (leBytes 1 v.toNat))

/-- ATTEST_NONCE (R447). -/
def execAttestNonce (q : OdReq) (b : List Byte) (s : State) : Host.Outcome State Fault Refusal :=
  .next (s.put q 0x0C21 0 b)

/-- SVN_RAISE (R444). -/
def execSvnRaise (q : OdReq) (v : BitVec 8) (s : State) : Host.Outcome State Fault Refusal :=
  .next (s.put q 0x0C24 0 (leBytes 1 v.toNat))

/-- OWNER_COMMIT (R451). -/
def execOwnerCommit (q : OdReq) (v : BitVec 8) (s : State) : Host.Outcome State Fault Refusal :=
  .next (s.put q 0x0C05 0 (leBytes 1 v.toNat))

/-- JOB_KEY (R452). -/
def execJobKey (q : OdReq) (b : List Byte) (s : State) : Host.Outcome State Fault Refusal :=
  .next (s.put q 0x0C10 0 b)

/-- JOB_RELEASE (R452). -/
def execJobRelease (q : OdReq) (v : BitVec 8) (s : State) : Host.Outcome State Fault Refusal :=
  .next (s.put q 0x0C12 0 (leBytes 1 v.toNat))

/-- JOB_IMAGE_LIST_WRITE (R453). -/
def execJobImageListWrite (q : OdReq) (k : Fin 16) (b : List Byte) (s : State) : Host.Outcome State Fault Refusal :=
  .next (s.put q 0x0C13 (k.val + 1) b)

/-- DEBUG_UNLOCK (R461). -/
def execDebugUnlock (q : OdReq) (v : BitVec 8) (s : State) : Host.Outcome State Fault Refusal :=
  .next (s.put q 0x0C33 0 (leBytes 1 v.toNat))

/-- DEBUG_LOCK (R461). -/
def execDebugLock (q : OdReq) (v : BitVec 8) (s : State) : Host.Outcome State Fault Refusal :=
  .next (s.put q 0x0C34 0 (leBytes 1 v.toNat))

/-- BLACK_BOX_WRITE (R485). -/
def execBlackBoxWrite (q : OdReq) (v : BitVec 8) (s : State) : Host.Outcome State Fault Refusal :=
  .next (s.put q 0x0E04 0 (leBytes 1 v.toNat))

/-- BLACK_BOX_SELECT (R486). -/
def execBlackBoxSelect (q : OdReq) (rseq : BitVec 64) (s : State) : Host.Outcome State Fault Refusal :=
  .next (s.put q 0x0E01 0 (leBytes 8 rseq.toNat))

/-- FW_SLOT_ERASE (R487). -/
def execFwSlotErase (q : OdReq) (v : BitVec 8) (s : State) : Host.Outcome State Fault Refusal :=
  .next (s.put q 0x0E81 0 (leBytes 1 v.toNat))

/-- FW_SLOT_DATA (R487); `ok` is whether the page programs. -/
def execFwSlotData (q : OdReq) (b : List Byte) (ok : Bool) (s : State) : Host.Outcome State Fault Refusal :=
  .next (s.request q 0x0E83 0 b (fun t => actFwSlotData t b ok))

/-- FW_ACTIVATE (R487). -/
def execFwActivate (q : OdReq) (v : BitVec 8) (s : State) : Host.Outcome State Fault Refusal :=
  .next (s.put q 0x0E84 0 (leBytes 1 v.toNat))

/-! Control cores. -/

/-- OD_WINDOW_LOAD (R415); an offset outside the window is an access like any other. -/
def execOdWindowLoad (cpu : Fin 16) (off : BitVec 40) (width : Nat) (s : State) : Host.Outcome State Fault Refusal :=
  if !s.cpuRuns cpu then .next s
  else
    match placeOf off.toNat with
    | .od rel => .next (s.windowRead cpu rel width)
    | _ => .next (s.cpuAccess cpu .load off.toNat width 0 .clean noErr)

/-- OD_WINDOW_STORE (R415). -/
def execOdWindowStore (cpu : Fin 16) (off : BitVec 40) (width : Nat) (v : BitVec 64) (s : State) : Host.Outcome State Fault Refusal :=
  if !s.cpuRuns cpu then .next s
  else
    match placeOf off.toNat with
    | .od rel => .next (s.windowPut cpu rel width v)
    | _ => .next (s.cpuAccess cpu .store off.toNat width v .clean noErr)

/-- WINDOW_COMMIT (R415, R416): a 4-byte store of `v` to WindowCommit. -/
def execWindowCommit (cpu : Fin 16) (v : Word) (s : State) : Host.Outcome State Fault Refusal :=
  .next (if s.cpuRuns cpu then s.windowPut cpu 0x0D710000 4 (BitVec.ofNat 64 v.toNat) else s)

/-- CONTROL_CORE_ACCESS (R179, R185, R189, R206). The object dictionary window takes loads and stores only. -/
def execControlCoreAccess (cpu : Fin 16) (a : Access) (off : BitVec 40) (width : Nat) (v : BitVec 64) (ecc : Ecc) (err : HbmErr) (s : State) :
    Host.Outcome State Fault Refusal :=
  if !s.cpuRuns cpu then .next s
  else
    match placeOf off.toNat, a with
    | .od rel, .load => .next (s.windowRead cpu rel width)
    | .od rel, .store => .next (s.windowPut cpu rel width v)
    | .od _, _ => .next (s.cpuOut cpu true 0)
    | _, _ => .next (s.cpuAccess cpu a off.toNat width v ecc err)

end Sys2Proof.Machine
end

