-- ==== Sys2Proof/Machine/Mgmt.lean ====
section
/-! DEFINITION. The management port: Tabmir Object Access datagrams, sessions and their keys (R417 to R425), event delivery (R435),
and object access across the fabric (R426). A row whose datagram is of another type leaves the module as it is (log 42). -/

namespace Sys2Proof.Machine

def State.updMg (s : State) (f : MgmtSt → MgmtSt) : State := { s with mgmt := f s.mgmt }

/-- The port is lit: MGMT of the north hub is on and the hub is not fenced (R437); and the OD answers (R428). -/
def State.mgmtOn (s : State) : Bool := s.odAnswers && (s.hub 0).clken.getLsbD 5 && !(s.hub 0).fenced

/-- A discarded datagram is counted (R417). -/
def State.mgmtDrop (s : State) : State := s.updMg (fun k => { k with drops := k.drops + 1 })

def msTicks : Nat := 400000

/-! Addresses (R417). -/

/-- The link-local address by the modified EUI-64 rule. -/
def ownLinkLocal : Nat :=
  let m := Config.mac.toNat
  0xFE80 * 2 ^ 112 + ((m / 2 ^ 24) ^^^ 0x020000) * 2 ^ 40 + 0xFFFE * 2 ^ 24 + m % 2 ^ 24

def isLinkLocal (a : Nat) : Bool := decide (a / 2 ^ 118 = 0x3FA)

/-- Is an address one of the device's? -/
def State.ownAddr (s : State) (a : Nat) : Bool := decide (a = ownLinkLocal) || (!allZero s.mgmt.addr && decide (a = ofBe s.mgmt.addr))

/-- Is an address reached: on the link, or by the default router (R437)? -/
def State.reachesAddr (s : State) (a : Nat) : Bool :=
  isLinkLocal a || (!allZero s.mgmt.addr && decide (a / 2 ^ (128 - s.mgmt.prefixLen) = ofBe s.mgmt.addr / 2 ^ (128 - s.mgmt.prefixLen))) ||
  !allZero s.mgmt.gateway

/-- The address from which the device writes first to a client. -/
def State.ownFor (s : State) (a : Nat) : Nat := if isLinkLocal a then ownLinkLocal else ofBe s.mgmt.addr

/-! Datagrams (R418). -/

def dgHeader (d : Datagram) : List Byte :=
  beBytes 2 d.magic ++ beBytes 1 d.ver ++ beBytes 1 d.typ ++ beBytes 4 d.session ++ beBytes 4 d.seq ++ beBytes 1 d.seg ++ beBytes 1 d.nseg ++
    beBytes 2 d.body.length

def dgSize (d : Datagram) : Nat := 16 + d.body.length + d.tag.length

/-- R417 and R418 on a datagram: the port and address it came to, the header, its size; only a handshake message has segments. -/
def State.dgramOk (s : State) (d : Datagram) : Bool :=
  decide (d.hport = s.mgmt.udp) && s.ownAddr d.host && decide (d.magic = 0x5441) && decide (1 ≤ d.ver ∧ d.ver ≤ 3) && decide (dgSize d ≤ 1232) &&
  decide (d.seg < d.nseg ∧ d.nseg ≤ 16) && (decide (d.nseg = 1) || decide (d.typ = 1 ∨ d.typ = 3))

/-- A datagram leaves, unless its client cannot be reached. -/
def State.tell (s : State) (d : Datagram) : State := if s.reachesAddr d.client then s.emit (.datagram d) else s

/-- A message of the device in plaintext, in segments of 1,216 body bytes (log 59). -/
def State.plainMsg (s : State) (to_ : Datagram) (typ session seq : Nat) (body : List Byte) : State :=
  let n := max 1 (cdiv body.length 1216)
  s.forEach (List.range n) (fun s i => s.tell
    { client := to_.client, cport := to_.cport, host := to_.host, hport := to_.hport, magic := 0x5441, ver := 3, typ := typ, session := session,
      seq := seq, seg := i, nseg := n, body := (body.drop (1216 * i)).take 1216, tag := [] })

/-! Keys (R420). -/

def gcmIv (fixed : List Byte) (d : Datagram) : List Byte := fixed ++ beBytes 4 d.seq ++ beBytes 1 d.seg ++ beBytes 1 d.typ ++ zeros 2

/-- The 16-byte tag of a datagram. -/
def mgTag (key iv hdr b : List Byte) : List Byte := slice (Config.gcmTag key iv hdr b) 0 16

/-- A datagram of a client under the session's keys: its plaintext, when its tag is right. -/
def Session.open_ (x : Session) (d : Datagram) : Option (List Byte) :=
  let iv := gcmIv x.ic d
  let b := gcmCrypt x.kc iv d.body
  if d.tag = mgTag x.kc iv (dgHeader d) b then some b else none

/-- A message of the device to the session's client. -/
def State.seal (s : State) (x : Session) (typ seq : Nat) (body : List Byte) : Datagram :=
  let d : Datagram :=
    { client := x.client, cport := x.cport, host := s.ownFor x.client, hport := s.mgmt.udp, magic := 0x5441, ver := 3, typ := typ, session := x.id,
      seq := seq, seg := 0, nseg := 1, body := body, tag := [] }
  let iv := gcmIv x.idv d
  { d with body := gcmCrypt x.kd iv body, tag := mgTag x.kd iv (dgHeader d) body }

/-! Sessions. -/

/-- Has a session ended by its time: 2 s without AUTH (R419), or MgmtIdleLimit without a valid datagram (R423)? -/
def Session.over_ (x : Session) (now : Nat) : Bool :=
  if x.half then decide (x.since + 2000 * msTicks ≤ now) else decide (x.last + x.idle * msTicks ≤ now)

/-- The session of a number, half-open or not, that has not ended. -/
def State.session (s : State) (id : Nat) (half : Bool) : Option Session :=
  s.mgmt.sessions.find? (fun x => decide (x.id = id) && x.half == half && !x.over_ s.tsc)

def State.dropSession (s : State) (id : Nat) : State := s.updMg (fun k => { k with sessions := k.sessions.filter (fun x => decide (x.id ≠ id)) })
def State.putSession (s : State) (x : Session) : State :=
  s.updMg (fun k => { k with sessions := k.sessions.map (fun y => if y.id = x.id then x else y) })

/-- Sessions past their time leave the table. -/
def State.purge (s : State) : State := s.updMg (fun k => { k with sessions := k.sessions.filter (fun x => !x.over_ s.tsc) })

/-! Reassembly (R418). -/

/-- A message whose segments have not all arrived within 100 ms is discarded, each of its datagrams counted (log 60). -/
def State.purgeAsm (s : State) : State :=
  let old := s.mgmt.asm.filter (fun e => decide (e.since + 100 * msTicks ≤ s.tsc))
  s.updMg (fun k => { k with
    asm := k.asm.filter (fun e => !decide (e.since + 100 * msTicks ≤ s.tsc)), drops := k.drops + (old.map (fun e => e.segs.length)).sum })

/-- Does a datagram belong to a message in reassembly? -/
def Reasm.of (e : Reasm) (d : Datagram) : Bool :=
  decide (e.session = d.session ∧ e.seq = d.seq ∧ e.typ = d.typ ∧ e.client = d.client ∧ e.cport = d.cport)

/-- A segment of a handshake message arrives: the message, once all its segments are there. -/
def State.gather (s0 : State) (d : Datagram) : State × Option (List Byte) :=
  let s := s0.purgeAsm
  if d.nseg = 1 then (s, some d.body)
  else
    match s.mgmt.asm.find? (fun e => e.of d) with
    | none =>
      (s.updMg (fun k => { k with asm := k.asm ++
        [{ session := d.session, seq := d.seq, typ := d.typ, client := d.client, cport := d.cport, nseg := d.nseg, since := s.tsc,
           segs := [(d.seg, d.body)] }] }), none)
    | some e =>
      if e.nseg ≠ d.nseg ∨ e.segs.any (fun p => decide (p.1 = d.seg)) = true then (s.mgmtDrop, none)
      else
        let segs := e.segs ++ [(d.seg, d.body)]
        let rest := s.mgmt.asm.filter (fun e => !e.of d)
        if segs.length = e.nseg then
          (s.updMg (fun k => { k with asm := rest }), some ((List.range e.nseg).flatMap (fun i => ((segs.find? (fun p => decide (p.1 = i))).map (·.2)).getD [])))
        else (s.updMg (fun k => { k with asm := rest ++ [{ e with segs := segs }] }), none)

/-! The handshake (R419). -/

/-- A new nonzero session number. -/
def State.freshSession (s : State) : Nat :=
  (((List.range 9).map (fun i => (s.mgmt.nextSession + i - 1) % (2 ^ 32 - 1) + 1)).find? (fun n => !s.mgmt.sessions.any (fun x => decide (x.id = n)))).getD
    s.mgmt.nextSession

/-- HELLO answered by CHALLENGE: the client's key material is in `b`, the device's random values are `n` and `r`. -/
def State.challenge (s : State) (d : Datagram) (b n r : List Byte) : State :=
  let ek := slice b 32 1184
  let ct := slice (Config.kemCipher ek r) 0 1088
  let transcript := digest (b ++ n ++ ct)
  let sig := slice (signId transcript) 0 3309
  let keys := kdf "KRN-MGMT" (Config.kemShared ek r ++ transcript) 72
  let id := s.freshSession
  let x : Session :=
    { id := id, client := d.client, cport := d.cport, kc := slice keys 0 32, kd := slice keys 32 32, ic := slice keys 64 4, idv := slice keys 68 4,
      proof := digest (transcript ++ sig), since := s.tsc }
  (s.updMg (fun k => { k with sessions := k.sessions ++ [x], nextSession := id % (2 ^ 32 - 1) + 1 })).plainMsg d 2 id d.seq (n ++ ct ++ sig)

/-- A complete HELLO. -/
def State.hello (s0 : State) (d : Datagram) (b : List Byte) : State :=
  let s := s0.purge.updMg (fun k => { k with hellos := s0.tsc :: k.hellos.filter (fun t => decide (s0.tsc < t + 1000 * msTicks)) })
  let refuse := fun (s : State) (st : Nat) => s.plainMsg d 5 0 d.seq (beBytes 1 st)
  if b.length ≠ 1218 then s0.mgmtDrop
  else if 16 < s.mgmt.hellos.length ∨ 8 ≤ s.mgmt.sessions.length then refuse s 9
  else if ¬(leAt b 1216 1 ≤ 3 ∧ 1 ≤ leAt b 1217 1 ∧ leAt b 1216 1 ≤ leAt b 1217 1) then refuse s 3
  else
    let r1 := s.draw 0
    let r2 := r1.1.draw 0
    match r1.2, r2.2 with
    | some n, some r => r2.1.challenge d b n r
    | _, _ => refuse s 9

/-- TOA_HELLO (R419). -/
def execToaHello (d : Datagram) (s : State) : Host.Outcome State Fault Refusal :=
  if !s.mgmtOn || decide (d.typ ≠ 1) then .next s
  else if !s.dgramOk d || decide (d.session ≠ 0 ∨ d.tag ≠ []) then .next s.mgmtDrop
  else
    match s.gather d with
    | (s1, none) => .next s1
    | (s1, some b) => .next (s1.hello d b)

/-- The role that an AUTH body proves (R419, R454): the fields of a credential are big-endian on the wire (R3). -/
def State.credential (s : State) (x : Session) (b : List Byte) : Option Role :=
  let c := b.take 5389
  let role := match beAt c 1 1 with
    | 1 => some Role.observer
    | 2 => some Role.operator
    | 3 => some Role.owner
    | _ => none
  if b = [] then (if s.owned then none else some .owner)
  else if decide (b.length = 8698) && decide (1 ≤ beAt c 0 1 ∧ beAt c 0 1 ≤ 3) && decide (beAt c 2 2 = 0) && allZero (slice c 76 52) &&
      s.ownerVerify (c.take 2080) (slice c 2080 3309) && decide (s.sec.credFloor ≤ beAt c 4 8) &&
      (allZero (slice c 12 32) || decide (slice c 12 32 = idDigest)) && decide (slice c 44 32 = digest (slice c 128 1952)) &&
      Config.dsaVerify (slice c 128 1952) x.proof (b.drop 5389) then role
  else none

def roleCode : Role → Nat
  | .none => 0
  | .observer => 1
  | .operator => 2
  | .owner => 3

/-- AUTH_FAIL, at most once a second (R462). -/
def State.authFail (s : State) : State :=
  let due := match s.sec.authFailAt with
    | none => true
    | some t => decide (t + 1000 * msTicks ≤ s.tsc)
  if due then ({ s with sec := { s.sec with authFailAt := some s.tsc } }).post 0x0C03 1 (srcHub 0 0x53) [] else s

/-- A complete AUTH of a half-open session: ACCEPT with the role and the idle limit, or REFUSE with DENIED. -/
def State.auth (s : State) (d : Datagram) (x : Session) (b : List Byte) : State :=
  match s.credential x b with
  | none => ((s.dropSession x.id).authFail).plainMsg d 5 x.id d.seq (beBytes 1 7)
  | some r =>
    (s.putSession { x with half := false, role := r, client := d.client, cport := d.cport, idle := s.mgmt.idle, last := s.tsc }).plainMsg d 4 x.id d.seq
      (beBytes 1 (roleCode r) ++ beBytes 4 s.mgmt.idle)

/-- TOA_AUTH (R419, R454). -/
def execToaAuth (d : Datagram) (s : State) : Host.Outcome State Fault Refusal :=
  if !s.mgmtOn || decide (d.typ ≠ 3) then .next s
  else if !s.dgramOk d || decide (d.tag ≠ []) || (s.session d.session true).isNone then .next s.mgmtDrop
  else
    match s.gather d with
    | (s1, none) => .next s1
    | (s1, some b) =>
      match s1.session d.session true with
      | some x => .next (s1.auth d x b)
      | none => .next s1

/-! Objects on the wire (R425). -/

/-- The value bytes between storage order and the wire: numeric values and numeric entries are big-endian. -/
def OTy.wire (t : OTy) (b : List Byte) : List Byte :=
  match t with
  | .str => b
  | .blob _ => b
  | .blobUpTo _ => b
  | .table size n num => if num then (chunks size n b).flatMap List.reverse else b
  | _ => b.reverse

/-- Does a READ or WRITE body have the shape of R425? -/
def reqShape (write : Bool) (b : List Byte) : Bool :=
  if write then decide (8 ≤ b.length) && decide (b.length = 8 + beAt b 6 2) else decide (b.length = 4)

/-- Are its reserved fields zero? -/
def reqClean (write : Bool) (b : List Byte) : Bool := decide (beAt b 3 1 = 0) && (!write || decide (beAt b 4 2 = 0))

/-- The body of a RESULT. -/
def resultBody (b : List Byte) (st vtype : Nat) (v : List Byte) : List Byte :=
  b.take 3 ++ beBytes 1 st ++ beBytes 4 (vtype * 2 ^ 28 + v.length) ++ v

def typeOf (b : List Byte) : Nat := ((objOf (beAt b 0 2) (beAt b 2 1)).map (fun o => o.ty.code)).getD 0

/-- A READ (R412, R425): its RESULT. -/
def State.serveGet (s : State) (q : OdReq) (b : List Byte) : List Byte :=
  let r := s.odRead q (beAt b 0 2) (beAt b 2 1)
  if r.1 ≠ 0 then resultBody b r.1 (typeOf b) []
  else if !reqClean false b then resultBody b 3 (typeOf b) []
  else resultBody b 0 r.2.1.code (r.2.1.wire r.2.2)

/-- A WRITE (R412, R425): a nonzero reserved field is refused as INVALID. -/
def State.servePut (s : State) (q : OdReq) (b : List Byte) : State × List Byte :=
  let idx := beAt b 0 2
  let sub := beAt b 2 1
  let v := b.drop 8
  let le := match objOf idx sub with
    | some o => o.ty.wire v
    | none => v
  let r := s.odRequest q idx sub le (fun t =>
    let a := t.objAct q.cpu idx sub le
    { a with inv := a.inv || !reqClean true b })
  (r.1, resultBody b r.2 (typeOf b) [])

/-- A READ or WRITE body served for a requester. -/
def State.serveBody (s : State) (q : OdReq) (write : Bool) (b : List Byte) : State × List Byte :=
  if write then s.servePut q b else (s, s.serveGet q b)

/-! Messages of a session (R420 to R423). -/

/-- A message of an open session: discarded and counted when its tag fails or no session has its number; SEQ 0 is discarded (R422);
otherwise `act` has the plaintext, and the session's idle time starts anew. -/
def State.sessionMsg (s : State) (d : Datagram) (typ : Nat) (act : State → Session → List Byte → State) : State :=
  if !s.mgmtOn || decide (d.typ ≠ typ) then s
  else if !s.dgramOk d then s.mgmtDrop
  else
    match s.session d.session false with
    | none => s.mgmtDrop
    | some x =>
      match x.open_ d with
      | none => s.mgmtDrop
      | some b =>
        if d.seq = 0 then s
        else
          let y : Session := { x with last := s.tsc }
          act (s.putSession y) y b

/-- A request by its SEQ (R421). -/
def State.sessionReq (s : State) (x : Session) (d : Datagram) (write : Bool) (b : List Byte) : State :=
  if d.seq + 15 < x.high then s
  else
    match x.done.find? (fun p => decide (p.1 = d.seq)) with
    | some p => s.tell { p.2 with client := d.client, cport := d.cport }
    | none =>
      if !reqShape write b then s.mgmtDrop
      else
        let r := s.serveBody { role := x.role, cpu := none } write b
        let g := { r.1.seal x 0x12 d.seq r.2 with client := d.client, cport := d.cport, host := d.host, hport := d.hport }
        let h := max x.high d.seq
        (r.1.putSession { x with high := h, done := ((d.seq, g) :: x.done).filter (fun p => decide (h ≤ p.1 + 15)) }).tell g

/-- TOA_READ (R421, R424, R425). -/
def execToaRead (d : Datagram) (s : State) : Host.Outcome State Fault Refusal :=
  if d.session = 0 ∧ d.typ = 0x10 then
    if !s.mgmtOn then .next s
    else if !s.dgramOk d || decide (d.tag ≠ []) || !reqShape false d.body then .next s.mgmtDrop
    else .next (s.plainMsg d 0x12 0 d.seq (s.serveGet { role := .none, cpu := none } d.body))
  else .next (s.sessionMsg d 0x10 (fun s x b => s.sessionReq x d false b))

/-- TOA_WRITE (R421, R425). -/
def execToaWrite (d : Datagram) (s : State) : Host.Outcome State Fault Refusal :=
  .next (s.sessionMsg d 0x11 (fun s x b => s.sessionReq x d true b))

/-- TOA_SUBSCRIBE (R435). -/
def execToaSubscribe (d : Datagram) (s : State) : Host.Outcome State Fault Refusal :=
  .next (s.sessionMsg d 0x13 (fun s x b =>
    if b.length ≠ 9 ∨ 3 < beAt b 8 1 then s.mgmtDrop
    else s.putSession { x with
      client := d.client, cport := d.cport, subscribed := true, cursor := beAt b 0 8, acked := beAt b 0 8, minSev := beAt b 8 1, sent := [] }))

/-- TOA_EVACK (R435). -/
def execToaEvack (d : Datagram) (s : State) : Host.Outcome State Fault Refusal :=
  .next (s.sessionMsg d 0x15 (fun s x b =>
    if b.length ≠ 8 then s.mgmtDrop
    else
      let n := beAt b 0 8
      s.putSession { x with
        acked := max x.acked (n + 1),
        sent := (x.sent.map (fun m => (m.1, m.2.1, m.2.2.1.filter (fun e => decide (n < e)), m.2.2.2))).filter (fun m => !m.2.2.1.isEmpty) }))

/-- TOA_PING (R418): answered by a PING of the same SEQ with no body. -/
def execToaPing (d : Datagram) (s : State) : Host.Outcome State Fault Refusal :=
  .next (s.sessionMsg d 0x16 (fun s x _ => s.tell { s.seal x 0x16 d.seq [] with client := d.client, cport := d.cport, host := d.host, hport := d.hport }))

/-- TOA_CLOSE (R423). -/
def execToaClose (d : Datagram) (s : State) : Host.Outcome State Fault Refusal :=
  .next (s.sessionMsg d 0x17 (fun s x _ => s.dropSession x.id))

/-! Events (R435). -/

/-- The records from `from_` on at or above a severity. -/
def State.eventsFrom (s : State) (from_ sev : Nat) : List Ev :=
  ((List.range (s.log.next - from_)).map (fun i => s.log.recs.get {} ((from_ + i) % 8192))).filter (fun e => decide (sev ≤ e.sev))

/-- The EVENT message with the next records of a session, and its end at the last SEQ (R422). -/
def State.sendEvents (s : State) (x : Session) : State :=
  let waiting := (x.sent.map (fun m => m.2.2.1.length)).sum
  let start := max x.cursor s.log.oldest
  let gap := start - x.cursor
  let es := (s.eventsFrom start x.minSev).take (min 16 (64 - waiting))
  if 64 ≤ waiting then s
  else
    match es.getLast? with
    | none => if gap = 0 then s.putSession { x with cursor := max x.cursor s.log.next } else s
    | some l =>
      let n := x.evSeq + 1
      let g := s.seal x 0x14 n (beBytes 1 es.length ++ zeros 3 ++ beBytes 4 gap ++ es.flatMap Ev.be)
      let s1 := (s.putSession { x with cursor := l.evseq + 1, evSeq := n, sent := x.sent ++ [(n, s.tsc, es.map (·.evseq), g)] }).tell g
      if n = 0xFFFFFFFF then (s1.tell (s1.seal x 0x17 n [])).dropSession x.id else s1

/-- EVENT_SEND (R435). -/
def execEventSend (id : Nat) (s : State) : Host.Outcome State Fault Refusal :=
  match (if s.mgmtOn then s.session id false else none) with
  | some x => .next (if x.subscribed then s.sendEvents x else s)
  | none => .next s

/-- EVENT_RESEND (R435): after 250 ms, with its original SEQ and bytes. -/
def execEventResend (id seq : Nat) (s : State) : Host.Outcome State Fault Refusal :=
  match (if s.mgmtOn then s.session id false else none) with
  | none => .next s
  | some x =>
    match x.sent.find? (fun m => decide (m.1 = seq ∧ m.2.1 + 250 * msTicks ≤ s.tsc)) with
    | none => .next s
    | some m =>
      .next ((s.putSession { x with sent := x.sent.map (fun y => if y.1 = seq then (y.1, s.tsc, y.2.2) else y) }).tell
        { m.2.2.2 with client := x.client, cport := x.cport })

/-! Timers (R418, R419, R423). -/

/-- AUTH_TIMEOUT (R419). -/
def execAuthTimeout (id : Nat) (s : State) : Host.Outcome State Fault Refusal :=
  .next (if s.clock.lost then s
    else s.updMg (fun k => { k with sessions := k.sessions.filter (fun x => !(decide (x.id = id) && x.half && x.over_ s.tsc)) }))

/-- REASSEMBLY_TIMEOUT (R418). -/
def execReassemblyTimeout (session seq : Nat) (s : State) : Host.Outcome State Fault Refusal :=
  let due := fun (e : Reasm) => decide (e.session = session ∧ e.seq = seq ∧ e.since + 100 * msTicks ≤ s.tsc)
  .next (if s.clock.lost then s else s.updMg (fun k => { k with
    asm := k.asm.filter (fun e => !due e), drops := k.drops + ((k.asm.filter due).map (fun e => e.segs.length)).sum }))

/-- SESSION_IDLE_TIMEOUT (R423). -/
def execSessionIdleTimeout (id : Nat) (s : State) : Host.Outcome State Fault Refusal :=
  .next (if s.clock.lost then s
    else s.updMg (fun k => { k with sessions := k.sessions.filter (fun x => !(decide (x.id = id) && !x.half && x.over_ s.tsc)) }))

/-- MANAGEMENT_PORT_FRAME (R417). -/
def execManagementPortFrame (f : MgmtFrame) (s : State) : Host.Outcome State Fault Refusal :=
  if !s.mgmtOn then .next s
  else if 1518 < f.len then .next s.mgmtDrop
  else
    match f.kind with
    | .neighbourSolicit t => .next (if s.ownAddr t && s.reachesAddr f.client then s.emit (.advert f.client t) else s)
    | .neighbourAdvert => .next s
    | .echoRequest b => .next (if s.ownAddr f.host && s.reachesAddr f.client then s.emit (.echo f.client b) else s)
    | .pause => .next s
    | .discarded => .next s.mgmtDrop

/-! Object access across the fabric (R426). -/

/-- The answer to an object request; a fabric-manager answer repeats FMSEQ under its own IV (R457). -/
def State.objReply (s : State) (p : Packet) (body : List Byte) : State :=
  if !p.fm then s.reply p 5 0 body
  else
    let q : Packet := { s.ownPkt 5 p.srcdev p.stream with
      fm := true, addr := p.addr, txn := p.txn, payload := body ++ leBytes 8 (fmSeq p) ++ zeros 24 }
    let r := s.sendPkt { q with payload := body ++ leBytes 8 (fmSeq p) ++ zeros 8 ++ fmTag s.sec.fmKey q (fmSeq p) }
    if r.2.isSome then r.1 else r.1.noPathDrop

/-- An object request: OPERATOR with FM, otherwise OBSERVER that writes nothing; one whose body is ill-formed is discarded. -/
def State.serveObj (s : State) (p : Packet) : State :=
  let b := if p.fm then fmBody p else p.payload
  let typ := beAt b 3 1
  let write := decide (typ = 0x11)
  let role := if p.fm then Role.operator else if write then .none else .observer
  if s.life = 0 then s.reply p 0x22 7 []
  else if !s.odAnswers then s
  else if !(decide (typ = 0x10) || write) || decide (beAt b 2 1 ≠ 0) || decide (b.length < 4) || !reqShape write (b.drop 4) then s.headerDrop
  else
    let r := s.serveBody { role := role, cpu := none } write (b.drop 4)
    r.1.objReply p (b.take 4 ++ r.2)

/-- PKT_OBJREQ (R426). -/
def execPktObjreq (p : Fin 40) (pk : Packet) (s : State) : Host.Outcome State Fault Refusal :=
  .next (s.pktServe p pk [0x04] (fun q s => s.fmAccept q (fun s => s.serveObj q)))

/-- PKT_OBJRSP (R426): the device sends no object request, so a response for itself meets no requester. -/
def execPktObjrsp (p : Fin 40) (pk : Packet) (s : State) : Host.Outcome State Fault Refusal :=
  .next (s.pktServe p pk [0x05] (fun _ s => s))

end Sys2Proof.Machine
end

