-- ==== Sys2Proof/Machine/Dispatch.lean ====
section
/-! DEFINITION. What every command does: one arm per row of the table. -/

namespace Sys2Proof.Machine

def exec (i : Instr) (s : State) : Host.Outcome State Fault Refusal :=
  match i with
  | .mxOpen c w => Sys2Proof.Machine.execMxOpen c w s
  | .mxOpenHeldStart c => Sys2Proof.Machine.execMxOpenHeldStart c s
  | .mxMac c w => Sys2Proof.Machine.execMxMac c w s
  | .mxeGroupResult c => Sys2Proof.Machine.execMxeGroupResult c s
  | .mxClose c w => Sys2Proof.Machine.execMxClose c w s
  | .mxMerge c w => Sys2Proof.Machine.execMxMerge c w s
  | .mxDrainResume c => Sys2Proof.Machine.execMxDrainResume c s
  | .mxDrainDone c => Sys2Proof.Machine.execMxDrainDone c s
  | .vxSetvl c w => Sys2Proof.Machine.execVxSetvl c w s
  | .vxLd c w ecc => Sys2Proof.Machine.execVxLd c w ecc s
  | .vxSt c w => Sys2Proof.Machine.execVxSt c w s
  | .vxStt c w => Sys2Proof.Machine.execVxStt c w s
  | .vxHqpop c w => Sys2Proof.Machine.execVxHqpop c w s
  | .hqpopEntryArrive c => Sys2Proof.Machine.execHqpopEntryArrive c s
  | .vxAdd c w => Sys2Proof.Machine.execVxAdd c w s
  | .vxSub c w => Sys2Proof.Machine.execVxSub c w s
  | .vxMul c w => Sys2Proof.Machine.execVxMul c w s
  | .vxMax c w => Sys2Proof.Machine.execVxMax c w s
  | .vxMin c w => Sys2Proof.Machine.execVxMin c w s
  | .vxFma c w => Sys2Proof.Machine.execVxFma c w s
  | .vxCvt c w => Sys2Proof.Machine.execVxCvt c w s
  | .vxQnt c w => Sys2Proof.Machine.execVxQnt c w s
  | .vxDqnt c w => Sys2Proof.Machine.execVxDqnt c w s
  | .vxRsum c w => Sys2Proof.Machine.execVxRsum c w s
  | .vxRmax c w => Sys2Proof.Machine.execVxRmax c w s
  | .vxFn c w => Sys2Proof.Machine.execVxFn c w s
  | .vxWelf c w => Sys2Proof.Machine.execVxWelf c w s
  | .vxWmrg c w => Sys2Proof.Machine.execVxWmrg c w s
  | .vxWred c w => Sys2Proof.Machine.execVxWred c w s
  | .vxWfin c w => Sys2Proof.Machine.execVxWfin c w s
  | .sqSegment c w => Sys2Proof.Machine.execSqSegment c w s
  | .segmentBoundary c => Sys2Proof.Machine.execSegmentBoundary c s
  | .sqWait c w => Sys2Proof.Machine.execSqWait c w s
  | .sqWaitRelease c => Sys2Proof.Machine.execSqWaitRelease c s
  | .sqWaitg c w => Sys2Proof.Machine.execSqWaitg c w s
  | .waitgPoll c => Sys2Proof.Machine.execWaitgPoll c s
  | .sqSignal c w => Sys2Proof.Machine.execSqSignal c w s
  | .signalGateAdd c => Sys2Proof.Machine.execSignalGateAdd c s
  | .sqBar c w => Sys2Proof.Machine.execSqBar c w s
  | .barrierArrival b => Sys2Proof.Machine.execBarrierArrival b s
  | .sqFlagrd c w => Sys2Proof.Machine.execSqFlagrd c w s
  | .flagrdRead c => Sys2Proof.Machine.execFlagrdRead c s
  | .sqFlagclr c w => Sys2Proof.Machine.execSqFlagclr c w s
  | .flagclrClear c coset => Sys2Proof.Machine.execFlagclrClear c coset s
  | .sqLoop c w => Sys2Proof.Machine.execSqLoop c w s
  | .sqEndloop c w => Sys2Proof.Machine.execSqEndloop c w s
  | .sqEnd c w => Sys2Proof.Machine.execSqEnd c w s
  | .sqEndComplete c => Sys2Proof.Machine.execSqEndComplete c s
  | .stall c => Sys2Proof.Machine.execStall c s
  | .imageFaulted => Sys2Proof.Machine.execImageFaulted s
  | .stIssue c w => Sys2Proof.Machine.execStIssue c w s
  | .streamSlotTake c => Sys2Proof.Machine.execStreamSlotTake c s
  | .steGrant c => Sys2Proof.Machine.execSteGrant c s
  | .steResponse c k => Sys2Proof.Machine.execSteResponse c k s
  | .streamRetire c slot => Sys2Proof.Machine.execStreamRetire c slot s
  | .gateSignalSend c => Sys2Proof.Machine.execGateSignalSend c s
  | .reelPacketLand p => Sys2Proof.Machine.execReelPacketLand p s
  | .reelHold p => Sys2Proof.Machine.execReelHold p s
  | .loadSchedule q off => Sys2Proof.Machine.execLoadSchedule q off s
  | .loadComplete => Sys2Proof.Machine.execLoadComplete s
  | .startSchedule q e => Sys2Proof.Machine.execStartSchedule q e s
  | .stopSchedule q v => Sys2Proof.Machine.execStopSchedule q v s
  | .stopComplete => Sys2Proof.Machine.execStopComplete s
  | .placeEpochAdvance q e => Sys2Proof.Machine.execPlaceEpochAdvance q e s
  | .fnLoad c v => Sys2Proof.Machine.execFnLoad c v s
  | .fnCheckDone c => Sys2Proof.Machine.execFnCheckDone c s
  | .numflagsWindowClear u v coset => Sys2Proof.Machine.execNumflagsWindowClear u v coset s
  | .flagClear q v coset => Sys2Proof.Machine.execFlagClear q v coset s
  | .mxeCfgStore c v => Sys2Proof.Machine.execMxeCfgStore c v s
  | .coreClkenStore c v => Sys2Proof.Machine.execCoreClkenStore c v s
  | .controlWindowWrite cpu off width v => Sys2Proof.Machine.execControlWindowWrite cpu off width v s
  | .controlCoreAccess cpu a off width v ecc err => Sys2Proof.Machine.execControlCoreAccess cpu a off width v ecc err s
  | .hbmBandSet q v => Sys2Proof.Machine.execHbmBandSet q v s
  | .bandChangeDone b => Sys2Proof.Machine.execBandChangeDone b s
  | .mscClean r => Sys2Proof.Machine.execMscClean r s
  | .mscFlush r => Sys2Proof.Machine.execMscFlush r s
  | .mscDrop r => Sys2Proof.Machine.execMscDrop r s
  | .mscUnkeep r => Sys2Proof.Machine.execMscUnkeep r s
  | .mscOpDone r => Sys2Proof.Machine.execMscOpDone r s
  | .mscRequest r ecc => Sys2Proof.Machine.execMscRequest r ecc s
  | .hbmAdmit r pc bank => Sys2Proof.Machine.execHbmAdmit r pc bank s
  | .hbmRequestComplete r k err => Sys2Proof.Machine.execHbmRequestComplete r k err s
  | .hbmRefresh r => Sys2Proof.Machine.execHbmRefresh r s
  | .hbmScrub r err => Sys2Proof.Machine.execHbmScrub r err s
  | .spadScrub c word ecc => Sys2Proof.Machine.execSpadScrub c word ecc s
  | .stackTempSample r mdeg => Sys2Proof.Machine.execStackTempSample r mdeg s
  | .d2dTrained a => Sys2Proof.Machine.execD2dTrained a s
  | .d2dFlitReceive a flit => Sys2Proof.Machine.execD2dFlitReceive a flit s
  | .d2dReplayRequest a seq => Sys2Proof.Machine.execD2dReplayRequest a seq s
  | .d2dReplayTimeout a => Sys2Proof.Machine.execD2dReplayTimeout a s
  | .frameTransmit p => Sys2Proof.Machine.execFrameTransmit p s
  | .frameReceive p f obs => Sys2Proof.Machine.execFrameReceive p f obs s
  | .keepaliveSend p => Sys2Proof.Machine.execKeepaliveSend p s
  | .keepalive p m => Sys2Proof.Machine.execKeepalive p m s
  | .keepaliveTimeout p => Sys2Proof.Machine.execKeepaliveTimeout p s
  | .laneSignalLoss p lanes => Sys2Proof.Machine.execLaneSignalLoss p lanes s
  | .waltzRetry p => Sys2Proof.Machine.execWaltzRetry p s
  | .laneTrainingDone p rates failed delay => Sys2Proof.Machine.execLaneTrainingDone p rates failed delay s
  | .waltzStepTimeout p => Sys2Proof.Machine.execWaltzStepTimeout p s
  | .hello p m => Sys2Proof.Machine.execHello p m s
  | .attest p m => Sys2Proof.Machine.execAttest p m s
  | .kemek p m => Sys2Proof.Machine.execKemek p m s
  | .kemct p m => Sys2Proof.Machine.execKemct p m s
  | .caps p m => Sys2Proof.Machine.execCaps p m s
  | .verdict p m => Sys2Proof.Machine.execVerdict p m s
  | .linkmsgReserved p m => Sys2Proof.Machine.execLinkmsgReserved p m s
  | .portEnable q p => Sys2Proof.Machine.execPortEnable q p s
  | .portDisable q p => Sys2Proof.Machine.execPortDisable q p s
  | .portRetrain q p => Sys2Proof.Machine.execPortRetrain q p s
  | .expectedPeerWrite q p v => Sys2Proof.Machine.execExpectedPeerWrite q p v s
  | .pktStop p pk => Sys2Proof.Machine.execPktStop p pk s
  | .fenceLoss p pk => Sys2Proof.Machine.execFenceLoss p pk s
  | .fenceSeal p pk => Sys2Proof.Machine.execFenceSeal p pk s
  | .recoverResume p pk => Sys2Proof.Machine.execRecoverResume p pk s
  | .pktObjreq p pk => Sys2Proof.Machine.execPktObjreq p pk s
  | .pktObjrsp p pk => Sys2Proof.Machine.execPktObjrsp p pk s
  | .pktRead p pk => Sys2Proof.Machine.execPktRead p pk s
  | .pktWrite p pk => Sys2Proof.Machine.execPktWrite p pk s
  | .pktAdd p pk => Sys2Proof.Machine.execPktAdd p pk s
  | .pktData p pk => Sys2Proof.Machine.execPktData p pk s
  | .pktAck p pk => Sys2Proof.Machine.execPktAck p pk s
  | .pktErr p pk => Sys2Proof.Machine.execPktErr p pk s
  | .pktReel p pk => Sys2Proof.Machine.execPktReel p pk s
  | .pktColl p pk => Sys2Proof.Machine.execPktColl p pk s
  | .packetCloseTimer stream => Sys2Proof.Machine.execPacketCloseTimer stream s
  | .sliceSet q v => Sys2Proof.Machine.execSliceSet q v s
  | .sliceStop q v => Sys2Proof.Machine.execSliceStop q v s
  | .collLoad h v => Sys2Proof.Machine.execCollLoad h v s
  | .collStartGate h => Sys2Proof.Machine.execCollStartGate h s
  | .collDescriptorDone h => Sys2Proof.Machine.execCollDescriptorDone h s
  | .optPrepare q n => Sys2Proof.Machine.execOptPrepare q n s
  | .optPrepareDone => Sys2Proof.Machine.execOptPrepareDone s
  | .optCommit q n => Sys2Proof.Machine.execOptCommit q n s
  | .trainStepSet q n => Sys2Proof.Machine.execTrainStepSet q n s
  | .huskMapLoad q v => Sys2Proof.Machine.execHuskMapLoad q v s
  | .huskMapLoadDone => Sys2Proof.Machine.execHuskMapLoadDone s
  | .huskInit q g => Sys2Proof.Machine.execHuskInit q g s
  | .huskInitDone => Sys2Proof.Machine.execHuskInitDone s
  | .huskOpen q g => Sys2Proof.Machine.execHuskOpen q g s
  | .huskOpenDone => Sys2Proof.Machine.execHuskOpenDone s
  | .huskFold q g => Sys2Proof.Machine.execHuskFold q g s
  | .huskTrailerPoll h => Sys2Proof.Machine.execHuskTrailerPoll h s
  | .huskFoldDone => Sys2Proof.Machine.execHuskFoldDone s
  | .huskSeal q g => Sys2Proof.Machine.execHuskSeal q g s
  | .huskApplyDone => Sys2Proof.Machine.execHuskApplyDone s
  | .recoverySettleExpire => Sys2Proof.Machine.execRecoverySettleExpire s
  | .huskRestore q v => Sys2Proof.Machine.execHuskRestore q v s
  | .huskRestoreDone => Sys2Proof.Machine.execHuskRestoreDone s
  | .huskRebuild q off => Sys2Proof.Machine.execHuskRebuild q off s
  | .huskRebuildDone => Sys2Proof.Machine.execHuskRebuildDone s
  | .huskDeclareLost q v => Sys2Proof.Machine.execHuskDeclareLost q v s
  | .huskResume q v => Sys2Proof.Machine.execHuskResume q v s
  | .huskFlushDone => Sys2Proof.Machine.execHuskFlushDone s
  | .actionLogAppend q b => Sys2Proof.Machine.execActionLogAppend q b s
  | .ioscTrim => Sys2Proof.Machine.execIoscTrim s
  | .pllFirstLock => Sys2Proof.Machine.execPllFirstLock s
  | .xtalQualify => Sys2Proof.Machine.execXtalQualify s
  | .rackrefQualify => Sys2Proof.Machine.execRackrefQualify s
  | .clockWindow src ref count detect xtalIn3 ioscIn3 => Sys2Proof.Machine.execClockWindow src ref count detect xtalIn3 ioscIn3 s
  | .clockReselect q v => Sys2Proof.Machine.execClockReselect q v s
  | .refEdgesMissing => Sys2Proof.Machine.execRefEdgesMissing s
  | .pllRelock => Sys2Proof.Machine.execPllRelock s
  | .pllUnlock => Sys2Proof.Machine.execPllUnlock s
  | .pllLockReturn us => Sys2Proof.Machine.execPllLockReturn us s
  | .levelRequest d => Sys2Proof.Machine.execLevelRequest d s
  | .railSetpointReached d => Sys2Proof.Machine.execRailSetpointReached d s
  | .regionClkenWrite q r v => Sys2Proof.Machine.execRegionClkenWrite q r v s
  | .hubClkenWrite q h v => Sys2Proof.Machine.execHubClkenWrite q h v s
  | .ctlCoreEnableWrite q h v => Sys2Proof.Machine.execCtlCoreEnableWrite q h v s
  | .clockOutSelWrite q v => Sys2Proof.Machine.execClockOutSelWrite q v s
  | .vinSample mv => Sys2Proof.Machine.execVinSample mv s
  | .shedStageLeave => Sys2Proof.Machine.execShedStageLeave s
  | .railSample d mv => Sys2Proof.Machine.execRailSample d mv s
  | .powerSample mw => Sys2Proof.Machine.execPowerSample mw s
  | .dieTempSample sensors => Sys2Proof.Machine.execDieTempSample sensors s
  | .safeStateEntry => Sys2Proof.Machine.execSafeStateEntry s
  | .odWindowLoad cpu off width => Sys2Proof.Machine.execOdWindowLoad cpu off width s
  | .odWindowStore cpu off width v => Sys2Proof.Machine.execOdWindowStore cpu off width v s
  | .windowCommit cpu v => Sys2Proof.Machine.execWindowCommit cpu v s
  | .odWrite q idx sub b => Sys2Proof.Machine.execOdWrite q idx sub b s
  | .toaHello d => Sys2Proof.Machine.execToaHello d s
  | .toaAuth d => Sys2Proof.Machine.execToaAuth d s
  | .toaRead d => Sys2Proof.Machine.execToaRead d s
  | .toaWrite d => Sys2Proof.Machine.execToaWrite d s
  | .toaSubscribe d => Sys2Proof.Machine.execToaSubscribe d s
  | .toaEvack d => Sys2Proof.Machine.execToaEvack d s
  | .toaPing d => Sys2Proof.Machine.execToaPing d s
  | .toaClose d => Sys2Proof.Machine.execToaClose d s
  | .eventSend session => Sys2Proof.Machine.execEventSend session s
  | .eventResend session seq => Sys2Proof.Machine.execEventResend session seq s
  | .authTimeout session => Sys2Proof.Machine.execAuthTimeout session s
  | .reassemblyTimeout session seq => Sys2Proof.Machine.execReassemblyTimeout session seq s
  | .sessionIdleTimeout session => Sys2Proof.Machine.execSessionIdleTimeout session s
  | .eventRaise => Sys2Proof.Machine.execEventRaise s
  | .eventCommit => Sys2Proof.Machine.execEventCommit s
  | .eventPost q b => Sys2Proof.Machine.execEventPost q b s
  | .configSave q v => Sys2Proof.Machine.execConfigSave q v s
  | .configErase q v => Sys2Proof.Machine.execConfigErase q v s
  | .configDone ok => Sys2Proof.Machine.execConfigDone ok s
  | .deviceReset q v => Sys2Proof.Machine.execDeviceReset q v s
  | .attestNonce q b => Sys2Proof.Machine.execAttestNonce q b s
  | .attestReportReady => Sys2Proof.Machine.execAttestReportReady s
  | .svnRaise q v => Sys2Proof.Machine.execSvnRaise q v s
  | .ownerCommit q v => Sys2Proof.Machine.execOwnerCommit q v s
  | .jobKey q b => Sys2Proof.Machine.execJobKey q b s
  | .jobRelease q v => Sys2Proof.Machine.execJobRelease q v s
  | .jobImageListWrite q k b => Sys2Proof.Machine.execJobImageListWrite q k b s
  | .debugUnlock q v => Sys2Proof.Machine.execDebugUnlock q v s
  | .debugLock q v => Sys2Proof.Machine.execDebugLock q v s
  | .debugExpire => Sys2Proof.Machine.execDebugExpire s
  | .entropyFail h => Sys2Proof.Machine.execEntropyFail h s
  | .powerOn => Sys2Proof.Machine.execPowerOn s
  | .holdupCharged => Sys2Proof.Machine.execHoldupCharged s
  | .resetNAssert => Sys2Proof.Machine.execResetNAssert s
  | .resetNRelease => Sys2Proof.Machine.execResetNRelease s
  | .flashExtRelease => Sys2Proof.Machine.execFlashExtRelease s
  | .bootRomStart kernelOk => Sys2Proof.Machine.execBootRomStart kernelOk s
  | .firmwareStart => Sys2Proof.Machine.execFirmwareStart s
  | .selftestItem rep => Sys2Proof.Machine.execSelftestItem rep s
  | .selftestTimeout => Sys2Proof.Machine.execSelftestTimeout s
  | .blackBoxWrite q v => Sys2Proof.Machine.execBlackBoxWrite q v s
  | .blackboxWritten fail0 fail1 => Sys2Proof.Machine.execBlackboxWritten fail0 fail1 s
  | .blackBoxSelect q rseq => Sys2Proof.Machine.execBlackBoxSelect q rseq s
  | .fwSlotErase q v => Sys2Proof.Machine.execFwSlotErase q v s
  | .fwSlotEraseDone ok => Sys2Proof.Machine.execFwSlotEraseDone ok s
  | .fwSlotData q b ok => Sys2Proof.Machine.execFwSlotData q b ok s
  | .fwActivate q v => Sys2Proof.Machine.execFwActivate q v s
  | .inputFallWhileCharging => Sys2Proof.Machine.execInputFallWhileCharging s
  | .managementPortFrame f => Sys2Proof.Machine.execManagementPortFrame f s
  | .mgmtBlockLock up => Sys2Proof.Machine.execMgmtBlockLock up s
  | .coolantSample inlet outlet => Sys2Proof.Machine.execCoolantSample inlet outlet s
  | .testAccessPort code => Sys2Proof.Machine.execTestAccessPort code s
  | .flashExtNAssert => Sys2Proof.Machine.execFlashExtNAssert s
  | .backgroundEraseDone slot ok0 ok1 => Sys2Proof.Machine.execBackgroundEraseDone slot ok0 ok1 s

end Sys2Proof.Machine
end

