-- ==== Sys2Proof/Safety.lean ====
section
/-! DEFINITION. What statements about the module are said in: the part of the state that a command touches, the state of a sequencer
after an issue, the fuses' moves, the canonical form of memory, and a command at the front of the queue. -/

namespace Sys2Proof.Machine

/-- The command answers a next state with the property `P`. -/
def Gives (i : Instr) (s : State) (P : State → Prop) : Prop := ∃ t, exec i s = Host.Outcome.next t ∧ P t

/-- The module differs in one core and in the event log only. -/
def OnlyCore (s t : State) (c : Nat) : Prop := t = { s with cores := t.cores, log := t.log } ∧ ∀ d, d ≠ c → t.core d = s.core d

/-- The module differs in one region and in the event log only. -/
def OnlyRegion (s t : State) (r : Nat) : Prop :=
  t = { s with mem := { s.mem with regions := t.mem.regions }, log := t.log } ∧ ∀ d, d ≠ r → t.region d = s.region d

/-- The module differs in one hub and in the event log only. -/
def OnlyHub (s t : State) (h : Nat) : Prop := t = { s with hubs := t.hubs, log := t.log } ∧ ∀ d, d ≠ h → t.hub d = s.hub d

/-- A sequencer after it has issued a command at tick `tsc`: SEQ_PC and the fetch buffer are past it (R140). -/
def SeqSt.moved (q : SeqSt) (tsc : Nat) : SeqSt :=
  { q with st := 1, waitk := 0, cmd := none, pc := q.pc + 16, buf := q.buf.drop 16, lastIssue := tsc, stallPosted := false }

/-- A sequencer that waits at its command (R164). -/
def SeqSt.waits (q : SeqSt) (tsc waitk : Nat) (w : Cmd) : SeqSt :=
  { q with
    st := 2, waitk := waitk, cmd := some w, lastIssue := if cmdEng w = 4 then tsc else q.lastIssue,
    stallPosted := if q.st = 2 then q.stallPosted else false }

/-- No word of a scratchpad shows an error at a read (R187). -/
def quiet (ecc : List (Nat × Ecc)) : Prop := ∀ e ∈ ecc, e.2 = .clean

/-- The matrix engine of a core has nothing in progress and does not hold. -/
def State.mxeFree (s : State) (c : Nat) : Prop :=
  (s.core c).mxe.arrQ = [] ∧ (s.core c).mxe.drains = [] ∧ (s.core c).mxePaused = false

/-- A matrix command passes its checks, and its engine's queue has room (R88, R140, R162). -/
def State.mxPasses (s : State) (c : Nat) (w : Cmd) (op : Nat) (mal : Bool) : Prop :=
  s.atCmd c w 1 op = true ∧ mal = false ∧ s.clkOn c 1 = true ∧ mxeFull (s.core c).mxe = false

/-- A matrix command passes its checks and its engine, with nothing in progress, takes it at once (R88, R140, R162). -/
def State.mxTakes (s : State) (c : Nat) (w : Cmd) (op : Nat) (mal : Bool) : Prop :=
  s.atCmd c w 1 op = true ∧ mal = false ∧ s.clkOn c 1 = true ∧ s.mxeFree c

/-- The slot after an MX.OPEN of state `s`: its bindings, and zeros or a load from the scratchpad (R70, R73). -/
def State.openedSlot (s : State) (c : Nat) (w : Cmd) : Slot :=
  { mxBind w (s.strictOf c) with
    accs := if fld w.w0 8 7 = 1 then s.spadWords c (64 * mxLaddr w) ((s.core c).mxe.rows (mxSlot w) * 96)
      else List.replicate ((s.core c).mxe.rows (mxSlot w) * 96) 0 }

/-- The vector engine of a core has nothing in progress and does not hold. -/
def State.vxeFree (s : State) (c : Nat) : Prop :=
  (s.core c).vxe.pipes = [] ∧ (s.core c).vxe.q = [] ∧ (s.core c).vxe.popped = 0 ∧ (s.core c).vxePaused = false

/-- A vector instruction passes its checks, and the issue queue has room (R105, R106, R140, R162). -/
def State.vxPasses (s : State) (c : Nat) (w : Cmd) (op : Nat) : Prop :=
  s.atCmd c w 2 op = true ∧ vxMal w (s.core c).vxe.vl (s.core c).vxe.rlen = false ∧ s.clkOn c 2 = true ∧ vxBad (s.core c) w = false ∧
    (s.core c).vxe.q.length < 32

/-- A vector instruction passes its checks and its engine takes it at once (R105, R106, R140, R162). -/
def State.vxTakes (s : State) (c : Nat) (w : Cmd) (op : Nat) : Prop :=
  s.atCmd c w 2 op = true ∧ vxMal w (s.core c).vxe.vl (s.core c).vxe.rlen = false ∧ s.clkOn c 2 = true ∧ vxBad (s.core c) w = false ∧ s.vxeFree c

/-- The instruction as the engine keeps it: with the mode, VL and RLEN in force (R91, R95). -/
def State.vxItem (s : State) (c : Nat) (w : Cmd) : VxItem :=
  { w := w, strict := s.strictOf c, vl := (s.core c).vxe.vl, rlen := (s.core c).vxe.rlen }

/-- A core after an element-wise instruction: its sequencer moves on, register `r` takes the results in format `f`, and their flags
are raised in the VXE (R48, R101). -/
def State.vxWrites (s : State) (c r f : Nat) (xs : List (Nat × Flags)) (k : CoreSt) : Prop :=
  ∃ fl : FlagReg, fl.v = (s.core c).vxe.flags.v ||| orFlags (xs.map Prod.snd) ∧
    k = { s.core c with
      seq := (s.core c).seq.moved s.tsc, vxe := { (s.core c).vxe.setElems r f (xs.map Prod.fst) with flags := fl } }

/-- A core after an instruction that leaves the vector registers of `v` and raises flags in the VXE. -/
def State.vxLeaves (s : State) (c : Nat) (v : VxeSt) (set : Flags) (k : CoreSt) : Prop :=
  ∃ fl : FlagReg, fl.v = (s.core c).vxe.flags.v ||| set ∧ k = { s.core c with seq := (s.core c).seq.moved s.tsc, vxe := { v with flags := fl } }

/-- A SEQ command passes its checks (R159, R162). -/
def State.sqTakes (s : State) (c : Nat) (w : Cmd) (op : Nat) : Prop :=
  s.atCmd c w 4 op = true ∧ sqMal w (s.core c).seq.loops.length = false ∧ s.clkOn c 0 = true

/-- A write request reaches its object: the OD answers, the role may write, the lifecycle admits the write (R412, R419, R428). -/
def State.admits (s : State) (q : OdReq) (idx : Nat) (b : List Byte) : Prop :=
  s.odAnswers = true ∧ denied q.role true idx = false ∧ admitted s.life idx b = true

/-- The state as the effect of an accepted action finds it: the action's status set, and its record in the action log (R376, R412). -/
def State.taken (s : State) (idx sub : Nat) (b : List Byte) : State :=
  if loggedObj idx true then (s.noteAct .act idx sub 0).appendLog idx sub b else s.noteAct .act idx sub 0

/-- The answer of a request: a control core finds its status in WindowStatus (R415). -/
def State.answer (s : State) (q : OdReq) (st : Nat) : State :=
  match q.cpu with
  | some c => s.updCpu c (fun k => { k with status := st })
  | none => s

/-- The request is accepted and its effect leaves a state with the property `P`. -/
def Acts (i : Instr) (q : OdReq) (s : State) (P : State → Prop) : Prop := Gives i s (fun t => ∃ u, t = u.answer q 0 ∧ P u)

/-- A packet arrives and passes the checks of its port (R286, R302, R305, R306): `q` is what the module serves, the packet itself or the
plaintext of one from the tree, and `u` the module that serves it. -/
def State.arrives (s : State) (p : Fin 40) (pk q : Packet) (u : State) : Prop :=
  s.portTakes p pk = true ∧
  ((p.val < 36 ∧ s.torusCheck p pk = none ∧ q = pk ∧ u = s) ∨
   (36 ≤ p.val ∧ s.treeCheck pk = true ∧ pktShape pk = true ∧ q = s.treeOpen pk ∧ (q.fm = true → s.fmOk { q with e2e := false } = true) ∧
    u = { s with fab := { s.fab with
      wins := s.fab.wins.set {} pk.srcdev ((s.fab.wins.get {} pk.srcdev).take (treeSeqOf pk)) } }))

/-- The module counts a packet of an earlier placement epoch that it discards (R174). -/
def State.staleSeen (s : State) : State := { s with sched := { s.sched with stale := s.sched.stale + 1 } }

/-- A message of an open session passes R417 to R420: the port serves, the datagram is well formed and of the type, and its tag is right
under the keys of the session `x`; `b` is its plaintext. -/
def State.hears (s : State) (d : Datagram) (typ : Nat) (x : Session) (b : List Byte) : Prop :=
  s.mgmtOn = true ∧ d.typ = typ ∧ s.dgramOk d = true ∧ s.session d.session false = some x ∧ x.open_ d = some b ∧ d.seq ≠ 0

/-- The session after a valid datagram: its idle time starts anew (R423). -/
def Session.heard (x : Session) (now : Nat) : Session := { x with last := now }

/-- The addresses of an answer to a datagram. -/
def backTo (g d : Datagram) : Datagram := { g with client := d.client, cport := d.cport, host := d.host, hport := d.hport }

/-- What one command can do to the fuses: nothing, burn one of the four owner slots, release the slot in force, burn SvnFloor up
(R444, R449, R451). -/
def FuseSt.Moves (f g : FuseSt) : Prop :=
  g = f ∨ (f.slots.length < 4 ∧ ∃ d, g = f.burn d) ∨
  (f.slots ≠ [] ∧ f.slots.length - 1 ∉ f.released ∧ g = f.release (f.slots.length - 1)) ∨ ∃ n, f.svnFloor ≤ n ∧ g = f.raise n

/-- The fuses are legal: at most four slots burnt, and each release fuse that is burnt belongs to one burnt slot (R449). -/
def FuseSt.Legal (f : FuseSt) : Prop := f.slots.length ≤ 4 ∧ f.released.Nodup ∧ ∀ r ∈ f.released, r < f.slots.length

/-- The canonical form of the memories with an address space: HBM, the scratchpads and boot flash. -/
def State.memWf (s : State) : Prop :=
  SMap.wf 0 s.mem.hbm = true ∧ (∀ c, SMap.wf 0 (s.core c).spad = true) ∧ SMap.wf 0xFF s.flash.bytes = true

end Sys2Proof.Machine
end

