-- ==== Sys2Proof/WellFormed.lean ====
section
/-! DEFINITION. Well-formed commands: every field of what reaches the module has the width that the manual gives it. A command's
own rule says what the module does with reserved codes and values; they are no matter of form. -/

namespace Sys2Proof

def FrameWord.wf (w : FrameWord) : Bool :=
  decide (w.slotc.length = 20) && w.slotc.all (fun c => decide (c < 8)) && decide (w.fseq < 4096) && decide (w.ackseq < 4096) &&
  decide (w.crkind < 8) && decide (w.crcnt < 2048) && decide (w.keyph < 2)

/-- R268. -/
def Frame.wf (f : Frame) : Bool := f.word.wf && decide (f.slots.length = 20) && f.slots.all (fun b => decide (b.length = 256))

/-- Eight counts of symbol errors in codewords of 544 symbols (R267), and eight LANE fields of three bits (R268). -/
def FrameObs.wf (o : FrameObs) : Bool :=
  decide (o.errors.length = 8) && o.errors.all (fun n => decide (n ≤ 544)) && decide (o.lane.length = 8) && o.lane.all (fun l => decide (l < 8))

/-- R281. -/
def LinkMsg.wf (m : LinkMsg) : Bool :=
  decide (m.ver < 256) && decide (m.typ < 256) && decide (m.rsvd < 2 ^ 48) && decide (m.mseq < 2 ^ 32) && decide (m.body.length < 2 ^ 32)

/-- R292: the widths of the header fields, the slot code that carries the packet (R269), the hint of its stream (R192), and the tag of R458. -/
def Packet.wf (p : Packet) : Bool :=
  decide (p.ver < 16) && decide (p.ptype < 256) && decide (p.rsvd < 2 ^ 21) && decide (p.slice < 2 ^ 16) && decide (p.epoch < 2 ^ 16) &&
  decide (p.dstdev < 2 ^ 17) && decide (p.srcdev < 2 ^ 17) && decide (p.stream < 2 ^ 13) && decide (p.addr < 2 ^ 64) && decide (p.tag < 2 ^ 16) &&
  decide (p.txn < 2 ^ 16) && decide (p.arg < 2 ^ 32) && decide (p.payload.length < 2 ^ 13) && decide (p.code < 8) && decide (p.hint < 4) &&
  decide (p.e2eTag.length = if p.e2e then 16 else 0)

/-- R417 and R418: IPv6 addresses, UDP ports, the header's fields. -/
def Datagram.wf (d : Datagram) : Bool :=
  decide (d.client < 2 ^ 128) && decide (d.cport < 2 ^ 16) && decide (d.host < 2 ^ 128) && decide (d.hport < 2 ^ 16) && decide (d.magic < 2 ^ 16) &&
  decide (d.ver < 256) && decide (d.typ < 256) && decide (d.session < 2 ^ 32) && decide (d.seq < 2 ^ 32) && decide (d.seg < 256) &&
  decide (d.nseg < 256) && decide (d.body.length < 2 ^ 16) && decide (d.tag.length = 0 ∨ d.tag.length = 16)

def MgmtFrame.wf (f : MgmtFrame) : Bool := decide (f.client < 2 ^ 128) && decide (f.host < 2 ^ 128)

/-- Symbol positions of the RS(68,64) codeword (R204). -/
def HbmErr.wf (e : HbmErr) : Bool := e.first.all (fun p => decide (p.1 < 68)) && e.second.all (fun p => decide (p.1 < 68))

/-- ExpectedKey is 32 bytes (R289). -/
def PeerWrite.wf : PeerWrite → Bool
  | .peer _ => true
  | .key b => decide (b.length = 32)

/-- One lane count for each of the 24 stacks (R474), or none. -/
def ItemReport.wf (r : ItemReport) : Bool := decide (r.laneRepairs.length ≤ 24)

/-- Access widths of a control core. -/
def widthOk (n : Nat) : Bool := decide (n = 1 ∨ n = 2 ∨ n = 4 ∨ n = 8)

/-- A nonzero 32-bit number: a session, or a SEQ of the device's own (R418, R421). -/
def idOk (n : Nat) : Bool := decide (n ≠ 0 ∧ n < 2 ^ 32)

/-- Is a command well-formed? -/
def Instr.wf (i : Instr) : Bool :=
  match i with
  | .controlWindowWrite _ _ width _ => widthOk width
  | .controlCoreAccess _ _ _ width _ _ err => widthOk width && err.wf
  | .hbmRequestComplete _ _ err => err.wf
  | .hbmScrub _ err => err.wf
  | .spadScrub _ word _ => decide (word < 393216)
  | .d2dFlitReceive _ flit => decide (flit.length = 256)
  | .frameReceive _ f obs => f.wf && obs.wf
  | .keepalive _ m => m.wf
  | .hello _ m => m.wf
  | .attest _ m => m.wf
  | .kemek _ m => m.wf
  | .kemct _ m => m.wf
  | .caps _ m => m.wf
  | .verdict _ m => m.wf
  | .linkmsgReserved _ m => m.wf
  | .expectedPeerWrite _ _ v => v.wf
  | .pktStop _ pk => pk.wf
  | .fenceLoss _ pk => pk.wf
  | .fenceSeal _ pk => pk.wf
  | .recoverResume _ pk => pk.wf
  | .pktObjreq _ pk => pk.wf
  | .pktObjrsp _ pk => pk.wf
  | .pktRead _ pk => pk.on.wf
  | .pktWrite _ pk => pk.wf
  | .pktAdd _ pk => pk.wf
  | .pktData _ pk => pk.wf
  | .pktAck _ pk => pk.wf
  | .pktErr _ pk => pk.wf
  | .pktReel _ pk => pk.wf
  | .pktColl _ pk => pk.wf
  | .packetCloseTimer stream => decide (stream < 2 ^ 13)
  | .odWindowLoad _ _ width => widthOk width
  | .odWindowStore _ _ width _ => widthOk width
  | .toaHello d => d.wf
  | .toaAuth d => d.wf
  | .toaRead d => d.wf
  | .toaWrite d => d.wf
  | .toaSubscribe d => d.wf
  | .toaEvack d => d.wf
  | .toaPing d => d.wf
  | .toaClose d => d.wf
  | .eventSend session => idOk session
  | .eventResend session seq => idOk session && idOk seq
  | .authTimeout session => idOk session
  | .reassemblyTimeout session seq => decide (session < 2 ^ 32) && decide (seq < 2 ^ 32)
  | .sessionIdleTimeout session => idOk session
  | .selftestItem rep => rep.wf
  | .managementPortFrame f => f.wf
  | .mxOpen _ _ | .mxOpenHeldStart _ | .mxMac _ _ | .mxeGroupResult _ | .mxClose _ _ | .mxMerge _ _ | .mxDrainResume _
  | .mxDrainDone _ | .vxSetvl _ _ | .vxLd _ _ _ | .vxSt _ _ | .vxStt _ _ | .vxHqpop _ _ | .hqpopEntryArrive _ | .vxAdd _ _ | .vxSub _ _
  | .vxMul _ _ | .vxMax _ _ | .vxMin _ _ | .vxFma _ _ | .vxCvt _ _ | .vxQnt _ _ | .vxDqnt _ _ | .vxRsum _ _ | .vxRmax _ _ | .vxFn _ _
  | .vxWelf _ _ | .vxWmrg _ _ | .vxWred _ _ | .vxWfin _ _ | .sqSegment _ _ | .segmentBoundary _ | .sqWait _ _ | .sqWaitRelease _
  | .sqWaitg _ _ | .waitgPoll _ | .sqSignal _ _ | .signalGateAdd _ | .sqBar _ _ | .barrierArrival _ | .sqFlagrd _ _ | .flagrdRead _
  | .sqFlagclr _ _ | .flagclrClear _ _ | .sqLoop _ _ | .sqEndloop _ _ | .sqEnd _ _ | .sqEndComplete _ | .stall _ | .imageFaulted
  | .stIssue _ _ | .streamSlotTake _ | .steGrant _ | .steResponse _ _ | .streamRetire _ _ | .gateSignalSend _ | .reelPacketLand _
  | .reelHold _ | .loadSchedule _ _ | .loadComplete | .startSchedule _ _ | .stopSchedule _ _ | .stopComplete | .placeEpochAdvance _ _
  | .fnLoad _ _ | .fnCheckDone _ | .numflagsWindowClear _ _ _ | .flagClear _ _ _ | .mxeCfgStore _ _ | .coreClkenStore _ _ | .hbmBandSet _ _
  | .bandChangeDone _ | .mscClean _ | .mscFlush _ | .mscDrop _ | .mscUnkeep _ | .mscOpDone _ | .mscRequest _ _ | .hbmAdmit _ _ _
  | .hbmRefresh _ | .stackTempSample _ _ | .d2dTrained _ | .d2dReplayRequest _ _ | .d2dReplayTimeout _ | .frameTransmit _ | .keepaliveSend _
  | .keepaliveTimeout _ | .laneSignalLoss _ _ | .waltzRetry _ | .laneTrainingDone _ _ _ _ | .waltzStepTimeout _ | .portEnable _ _
  | .portDisable _ _ | .portRetrain _ _ | .sliceSet _ _ | .sliceStop _ _ | .collLoad _ _ | .collStartGate _ | .collDescriptorDone _
  | .optPrepare _ _ | .optPrepareDone | .optCommit _ _ | .trainStepSet _ _ | .huskMapLoad _ _ | .huskMapLoadDone | .huskInit _ _
  | .huskInitDone | .huskOpen _ _ | .huskOpenDone | .huskFold _ _ | .huskTrailerPoll _ | .huskFoldDone | .huskSeal _ _ | .huskApplyDone
  | .recoverySettleExpire | .huskRestore _ _ | .huskRestoreDone | .huskRebuild _ _ | .huskRebuildDone | .huskDeclareLost _ _
  | .huskResume _ _ | .huskFlushDone | .actionLogAppend _ _ | .ioscTrim | .pllFirstLock | .xtalQualify | .rackrefQualify
  | .clockWindow _ _ _ _ _ _ | .clockReselect _ _ | .refEdgesMissing | .pllRelock | .pllUnlock | .pllLockReturn _ | .levelRequest _
  | .railSetpointReached _ | .regionClkenWrite _ _ _ | .hubClkenWrite _ _ _ | .ctlCoreEnableWrite _ _ _ | .clockOutSelWrite _ _
  | .vinSample _ | .shedStageLeave | .railSample _ _ | .powerSample _ | .dieTempSample _ | .safeStateEntry | .windowCommit _ _
  | .odWrite _ _ _ _ | .eventRaise | .eventCommit | .eventPost _ _ | .configSave _ _ | .configErase _ _ | .configDone _ | .deviceReset _ _
  | .attestNonce _ _ | .attestReportReady | .svnRaise _ _ | .ownerCommit _ _ | .jobKey _ _ | .jobRelease _ _ | .jobImageListWrite _ _ _
  | .debugUnlock _ _ | .debugLock _ _ | .debugExpire | .entropyFail _ | .powerOn | .holdupCharged | .resetNAssert | .resetNRelease
  | .flashExtRelease | .bootRomStart _ | .firmwareStart | .selftestTimeout | .blackBoxWrite _ _ | .blackboxWritten _ _ | .blackBoxSelect _ _
  | .fwSlotErase _ _ | .fwSlotEraseDone _ | .fwSlotData _ _ _ | .fwActivate _ _ | .inputFallWhileCharging | .mgmtBlockLock _
  | .coolantSample _ _ | .testAccessPort _ | .flashExtNAssert | .backgroundEraseDone _ _ _ => true

end Sys2Proof
end

