-- ==== Sys2Proof/Certificates/Slice0/Obligations.lean ====
section
/-! DEFINITION. The statements for the provers. -/

section

open Sys2Proof Sys2Proof.Machine

/-! The matrix engine. -/

/-- MX.OPEN that passes its checks on a FREE slot completes: the sequencer moves on, the slot is OPEN with its bindings, and the zeros or
the load of its tile take their turn in the engine (R70, R71, R73, R84, R140); with the engine free and no error in the tile the slot
holds zeros or the tile at once. One on a DRAINING slot waits, and starts so once its slot is FREE. Nothing else of the module changes
where the engine is free. Numbers of commands are the model's own. -/
def Obligations.MxOpenBindsASlot : Prop :=
  (∀ (c : Fin 136) (w : Cmd) (ecc : List (Nat × Ecc)) (s : State), ((s.core c).mxe.slot (mxSlot w)).st = 0 →
    (s.mxPasses c w 1 (mxOpenMal (s.core c).mxe.cfg w) → Gives (.mxOpen c ⟨w, ecc⟩) s (fun t => t = (s.advance c).doOpen c w ecc)) ∧
    (s.mxTakes c w 1 (mxOpenMal (s.core c).mxe.cfg w) → quiet ecc →
      Gives (.mxOpen c ⟨w, ecc⟩) s (fun t => OnlyCore s t c ∧ ∃ n, t.core c = { s.core c with
        seq := (s.core c).seq.moved s.tsc,
        mxe := { (s.core c).mxe with num := n, slots := (s.core c).mxe.slots.set {} (mxSlot w) (s.openedSlot c w) } }))) ∧
  (∀ (c : Fin 136) (w : Cmd) (ecc : List (Nat × Ecc)) (s : State), s.atCmd c w 1 1 = true → mxOpenMal (s.core c).mxe.cfg w = false →
    s.clkOn c 1 = true → ((s.core c).mxe.slot (mxSlot w)).st = 2 →
    Gives (.mxOpen c ⟨w, ecc⟩) s (fun t => OnlyCore s t c ∧ t.core c = { s.core c with seq := (s.core c).seq.waits s.tsc 1 w })) ∧
  (∀ (c : Fin 136) (w : Cmd) (ecc : List (Nat × Ecc)) (s : State), (s.core c).seq.cmd = some w → (s.core c).seq.st = 2 → cmdEng w = 1 →
    ((s.core c).mxe.slot (mxSlot w)).st = 0 → s.clkOn c 1 = true →
    (mxeFull (s.core c).mxe = false → Gives (.mxOpenHeldStart ⟨c, ecc⟩) s (fun t => t = (s.doOpen c w ecc).advance c)) ∧
    (s.mxeFree c → quiet ecc → Gives (.mxOpenHeldStart ⟨c, ecc⟩) s (fun t => OnlyCore s t c ∧ ∃ n, t.core c = { s.core c with
      seq := (s.core c).seq.moved s.tsc,
      mxe := { (s.core c).mxe with num := n, slots := (s.core c).mxe.slots.set {} (mxSlot w) (s.openedSlot c w) } })))

/-- MX.MAC that passes its checks on an OPEN slot completes: the sequencer moves on, and the command joins the array's queue with its
panels (R71, R74, R85, R140); in a free engine nothing else of the module changes. A group's result, in an engine that neither holds the
command nor is paused, reaches every accumulator element of the slot and raises its flags, and the command leaves the queue with its last
group (R62, R82). In strict mode the first NaN of a multiply-add is taken in R66's order of operands (log 74). -/
def Obligations.MxMacAccumulatesItsGroups : Prop :=
  (∀ (c : Fin 136) (w : Cmd) (s : State), ((s.core c).mxe.slot (mxSlot w)).st = 1 →
    let mal := mxMacMal (s.core c).mxe.cfg (some ((s.core c).mxe.slot (mxSlot w))) w
    let it : ArrItem := .mac (mxSlot w) (mxKg w) (mxKg w) (fld w.w1 31 16) (fld w.w1 15 0) (fld w.w2 31 16) (fld w.w2 15 0)
    (s.mxPasses c w 2 mal → Gives (.mxMac c w) s (fun t => t = ((s.advance c).updMxe c (fun m => m.push it)).mxeRun c)) ∧
    (s.mxTakes c w 2 mal → Gives (.mxMac c w) s (fun t => OnlyCore s t c ∧ t.core c = { s.core c with
      seq := (s.core c).seq.moved s.tsc, mxe := (s.core c).mxe.push it }))) ∧
  (∀ (c : Fin 136) (ecc : List (Nat × Ecc)) (s : State) (n i kg left aa ba as bs : Nat) (rest : List (Nat × ArrItem)),
    (s.core c).mxe.arrQ = (n, .mac i kg left aa ba as bs) :: rest → (s.core c).mxePaused = false → s.clkOn c 1 = true →
    let q := if left ≤ 1 then rest else (n, .mac i kg (left - 1) aa ba as bs) :: rest
    let r := s.groupVals c i kg left aa ba as bs
    (arrHeld (s.core c).mxe n (.mac i kg left aa ba as bs) = false → Gives (.mxeGroupResult ⟨c, ecc⟩) s (fun t =>
      t = ((s.updMxe c (fun m => { m with arrQ := q })).groupStep c i kg left aa ba as bs ecc).mxeRun c)) ∧
    (quiet ecc → rest = [] → (s.core c).mxe.drains = [] → Gives (.mxeGroupResult ⟨c, ecc⟩) s (fun t => OnlyCore s t c ∧
      ∃ fl : FlagReg, fl.v = (s.core c).mxe.flags.v ||| r.2 ∧ t.core c = { s.core c with mxe := { (s.core c).mxe with
        arrQ := q, flags := fl, slots := (s.core c).mxe.slots.set {} i { (s.core c).mxe.slot i with accs := r.1 } } })))

/-- MX.MERGE that passes its checks on an OPEN slot completes: the sequencer moves on and the merge takes its turn in the engine (R71,
R75, R87, R140); in a free engine, with no error in the tile, it adds the FP32 or INT32 tile of the scratchpad to the slot at once,
element by element, and raises the flags of the additions, and nothing else of the module changes. MX.CLOSE that passes its checks on an
OPEN slot completes: the sequencer moves on, the slot is DRAINING and its drain joins the queue of drains (R70, R71, R76, R86, R140). A
drain to the scratchpad in an engine with no other work writes its tile, scale blocks and statistics, raises its flags, and frees the slot
(R77 to R79; the order of overlapping destinations is the model's, log 12); a drain to the hand-off queue whose last row has room enters
it and frees the slot, and one paused on the full queue goes on by one row for each entry taken (R80). Nothing else of the module changes.
-/
def Obligations.MxMergeAndClose : Prop :=
  (∀ (c : Fin 136) (w : Cmd) (ecc : List (Nat × Ecc)) (s : State), ((s.core c).mxe.slot (mxSlot w)).st = 1 →
      let mal := mxMergeMal (s.core c).mxe.cfg w
      let b := (s.core c).mxe.slot (mxSlot w)
      let ws := s.spadWords c (64 * fld w.w1 31 16) ((s.core c).mxe.rows (mxSlot w) * 96)
      let rs := (b.accs.zip ws).map (fun p => if b.acc then addI p.1.toNat p.2.toNat else addF b.strict cFP32 p.1.toNat p.2.toNat)
      (s.mxPasses c w 4 mal → Gives (.mxMerge c ⟨w, ecc⟩) s (fun t =>
        t = ((s.advance c).updMxe c (fun m => m.push (.merge (mxSlot w) (fld w.w1 31 16) ecc))).mxeRun c)) ∧
      (s.mxTakes c w 4 mal → quiet ecc → Gives (.mxMerge c ⟨w, ecc⟩) s (fun t => OnlyCore s t c ∧ ∃ (n : Nat) (fl : FlagReg),
        fl.v = (s.core c).mxe.flags.v ||| orFlags (rs.map Prod.snd) ∧
        t.core c = { s.core c with
          seq := (s.core c).seq.moved s.tsc,
          mxe := { (s.core c).mxe with
            num := n, flags := fl,
            slots := (s.core c).mxe.slots.set {} (mxSlot w) { b with accs := rs.map (fun r => BitVec.ofNat 32 r.1) } } }))) ∧
  ((∀ (c : Fin 136) (w : Cmd) (s : State), ((s.core c).mxe.slot (mxSlot w)).st = 1 →
      let mal := mxCloseMal (s.core c).mxe.cfg (some ((s.core c).mxe.slot (mxSlot w))) w
      let f := fun (m : MxeSt) => { m with
        slots := m.slots.set {} (mxSlot w) { m.slot (mxSlot w) with st := 2 },
        drains := m.drains ++ [{ slot := mxSlot w, w := w, num := m.num }], num := m.num + 1 }
      (s.mxPasses c w 3 mal → Gives (.mxClose c w) s (fun t => t = ((s.advance c).updMxe c f).mxeRun c)) ∧
      (s.mxTakes c w 3 mal → cfgRoute (s.core c).mxe.cfg = false → Gives (.mxClose c w) s (fun t => OnlyCore s t c ∧
        t.core c = { s.core c with seq := (s.core c).seq.moved s.tsc, mxe := f (s.core c).mxe }))) ∧
    (∀ (c : Fin 136) (d : Drain) (s : State), (s.core c).mxe.arrQ = [] → (s.core c).mxe.drains = [d] → s.clkOn c 1 = true →
      (s.core c).mxePaused = false →
      let xs := exitSteps ((s.core c).mxe.slot d.slot) d.w ((s.core c).mxe.rows d.slot)
      let b := (s.core c).mxe.slot d.slot
      let row := exitRow b d.w (((b.accs.drop (96 * d.row)).take 96).map BitVec.toNat)
      let hq := (s.core c).mxe.hq ++ [hqEntry d.slot ((s.core c).mxe.rows d.slot) d.row d.w row]
      let free := (s.core c).mxe.slots.set {} d.slot {}
      (cfgRoute (s.core c).mxe.cfg = false → Gives (.mxDrainDone c) s (fun t => OnlyCore s t c ∧
        ∃ fl : FlagReg, fl.v = (s.core c).mxe.flags.v ||| exitFlags xs ∧ t.core c = { s.core c with
          spad := exitWrite (s.core c).spad xs, mxe := { (s.core c).mxe with slots := free, drains := [], flags := fl } })) ∧
      (cfgRoute (s.core c).mxe.cfg = true → d.row + 1 = (s.core c).mxe.rows d.slot → (s.core c).mxe.hq.length < 64 →
        Gives (.mxDrainDone c) s (fun t => OnlyCore s t c ∧ ∃ fl : FlagReg, fl.v = (s.core c).mxe.flags.v ||| row.fl ∧
          t.core c = { s.core c with mxe := { (s.core c).mxe with slots := free, drains := [], hq := hq, flags := fl } })) ∧
      (cfgRoute (s.core c).mxe.cfg = true → d.row + 1 < (s.core c).mxe.rows d.slot → (s.core c).mxe.hq.length = 63 →
        Gives (.mxDrainResume c) s (fun t => OnlyCore s t c ∧ ∃ fl : FlagReg, fl.v = (s.core c).mxe.flags.v ||| row.fl ∧
          t.core c = { s.core c with mxe := { (s.core c).mxe with drains := [{ d with row := d.row + 1 }], hq := hq, flags := fl } }))))

/-! The vector engine. -/

/-- VX.SETVL that passes its checks completes at issue and sets VL and RLEN (R91, R94). Every other instruction that passes its checks
completes with its place in the VXE, which goes on as far as it can (R94, R95, R140). In a free engine with VL = 0 every instruction but
VX.HQPOP only moves the sequencer on (R92). In a free engine, VX.LD, with no error in the words it reads, fills the first VL elements of
VD from the scratchpad; VX.ST stores those of VA; VX.STT stores the rows of VA transposed, row r as column COUNT + r of a panel (R103).
Each completes at once and changes nothing else. -/
def Obligations.VxLengthsLoadsAndStores : Prop :=
  ((∀ (c : Fin 136) (w : Cmd) (s : State), s.atCmd c w 2 0x01 = true → vxMal w (s.core c).vxe.vl (s.core c).vxe.rlen = false →
      s.clkOn c 2 = true → (s.core c).vxe.q.length < 32 →
      Gives (.vxSetvl c w) s (fun t => OnlyCore s t c ∧ t.core c = { s.core c with
        seq := (s.core c).seq.moved s.tsc, vxe := { (s.core c).vxe with vl := vxVl w, rlen := vxRlen w } })) ∧
    (∀ (c : Fin 136) (w : Cmd) (ecc : List (Nat × Ecc)) (s : State) (p : Instr × Nat),
      p ∈ [(.vxSt c w, 0x03), (.vxStt c w, 0x04), (.vxAdd c w, 0x08), (.vxSub c w, 0x09), (.vxMul c w, 0x0A), (.vxMax c w, 0x0B),
        (.vxMin c w, 0x0C), (.vxFma c w, 0x0D), (.vxCvt c w, 0x10), (.vxQnt c w, 0x11), (.vxDqnt c w, 0x12), (.vxRsum c w, 0x14),
        (.vxRmax c w, 0x15), (.vxFn c w, 0x18), (.vxWelf c w, 0x20), (.vxWmrg c w, 0x21), (.vxWred c w, 0x22), (.vxWfin c w, 0x23)] ∨
        p = (.vxLd c w ecc, 0x02) →
      (s.vxPasses c w p.2 → Gives p.1 s (fun t => ∃ e, (e = ecc ∨ e = []) ∧
        t = ((s.advance c).updVxe c (fun v => { v with q := v.q ++ [{ s.vxItem c w with ecc := e }] })).vxRun vxFuel c)) ∧
      (s.vxTakes c w p.2 → (s.core c).vxe.vl = 0 →
        Gives p.1 s (fun t => OnlyCore s t c ∧ t.core c = { s.core c with seq := (s.core c).seq.moved s.tsc })))) ∧
  (∀ (c : Fin 136) (w : Cmd) (ecc : List (Nat × Ecc)) (s : State), (s.core c).vxe.vl ≠ 0 →
      let v := (s.core c).vxe
      let n := fmtBytes (vxFmt w) v.vl
      let es := fmtBits (vxFmt w) / 8
      let p := if vxPr w then 64 else 128
      (s.vxTakes c w 0x02 → quiet ecc → Gives (.vxLd c w ecc) s (fun t => OnlyCore s t c ∧ t.core c = { s.core c with
        seq := (s.core c).seq.moved s.tsc, vxe := v.setBytes (vxVD w) 0 (s.spadRead c (64 * vxAddr w) n) })) ∧
      (s.vxTakes c w 0x03 → Gives (.vxSt c w) s (fun t => OnlyCore s t c ∧ t.core c = { s.core c with
        seq := (s.core c).seq.moved s.tsc, spad := (s.core c).spad.sets 0 (64 * vxAddr w) (v.bytes (vxVA w) 0 n) })) ∧
      (s.vxTakes c w 0x04 → Gives (.vxStt c w) s (fun t => OnlyCore s t c ∧ t.core c = { s.core c with
        seq := (s.core c).seq.moved s.tsc,
        spad := (List.range v.vl).foldl (fun m k =>
          m.sets 0 (64 * vxAddr w + (k % v.rlen * p + vxCount w + k / v.rlen) * es) (v.bytes (vxVA w) (k * es) es)) (s.core c).spad })))

/-- VX.HQPOP that passes its checks completes with its place in the VXE (R94, R140), and takes COUNT entries of the hand-off queue in
order, each row into VD and each sideband into VB (R108; with VD = VB the sideband last, log 68); in a free engine with the entries there
it does so at once. One that waits takes the entry that arrives and ends with its last. Nothing else of the module changes. -/
def Obligations.VxHqpopTakesEntries : Prop :=
  (∀ (c : Fin 136) (w : Cmd) (s : State),
    let n := fmtBytes (vxFmt w) 96
    (s.vxPasses c w 0x05 → Gives (.vxHqpop c w) s (fun t =>
      t = ((s.advance c).updVxe c (fun v => { v with q := v.q ++ [s.vxItem c w] })).vxRun vxFuel c)) ∧
    (s.vxTakes c w 0x05 → vxCount w ≤ (s.core c).mxe.hq.length →
      Gives (.vxHqpop c w) s (fun t => OnlyCore s t c ∧ t.core c = { s.core c with
        seq := (s.core c).seq.moved s.tsc,
        mxe := { (s.core c).mxe with hq := (s.core c).mxe.hq.drop (vxCount w) },
        vxe := (List.range (vxCount w)).foldl (fun v e =>
          let ent := (s.core c).mxe.hq.getD e []
          (v.setBytes (vxVD w) (n * e) (slice ent 0 n)).setBytes (vxVB w) (16 * e) (slice ent 384 16)) (s.core c).vxe }))) ∧
  (∀ (c : Fin 136) (i : VxItem) (ent : List Byte) (s : State), (s.core c).vxe.pipes = [i] → (s.core c).vxe.q = [] → cmdOp i.w = 0x05 →
    vxCount i.w = (s.core c).vxe.popped + 1 → (s.core c).mxe.hq = [ent] → (s.core c).vxePaused = false → s.clkOn c 2 = true →
    let n := fmtBytes (vxFmt i.w) 96
    let e := (s.core c).vxe.popped
    Gives (.hqpopEntryArrive c) s (fun t => OnlyCore s t c ∧ t.core c = { s.core c with
      mxe := { (s.core c).mxe with hq := [] },
      vxe := { ((s.core c).vxe.setBytes (vxVD i.w) (n * e) (slice ent 0 n)).setBytes (vxVB i.w) (16 * e) (slice ent 384 16) with
        pipes := [], popped := 0 } }))

/-- In a free engine, ADD, SUB, MUL, MAX and MIN combine the elements of VA with operand B pair by pair into VD and raise their flags; FMA
does so with two operands in FP32 (R98, R101); each completes at once. Nothing else of the module changes. -/
def Obligations.VxElementwise : Prop :=
  ∀ (c : Fin 136) (w : Cmd) (s : State), (s.core c).vxe.vl ≠ 0 →
    let v := (s.core c).vxe
    let f := vxFmt w
    let b := v.operand (vxBmode w) (vxVB w) (vxBpos w) f v.vl v.rlen w.w3.toNat
    let y := v.operand (vxBmode w) (vxVB w) (vxBpos w) cFP32 v.vl v.rlen w.w3.toNat
    let z := v.operand (vxCmode w) (vxVC w) (vxCpos w) cFP32 v.vl v.rlen w.w3.toNat
    (∀ p ∈ [(Instr.vxAdd c w, 0x08), (.vxSub c w, 0x09), (.vxMul c w, 0x0A), (.vxMax c w, 0x0B), (.vxMin c w, 0x0C)], s.vxTakes c w p.2 →
      Gives p.1 s (fun t => OnlyCore s t c ∧
        s.vxWrites c (vxVD w) f (((v.elems (vxVA w) f v.vl).zip b).map (fun x => vxBin p.2 (s.strictOf c) f x.1 x.2)) (t.core c))) ∧
    (s.vxTakes c w 0x0D → Gives (.vxFma c w) s (fun t => OnlyCore s t c ∧
      s.vxWrites c (vxVD w) cFP32 (((v.elems (vxVA w) cFP32 v.vl).zip (y.zip z)).map (fun x =>
        fmaV (s.strictOf c) cFP32 (decodeF cFP32 x.1) (decodeF cFP32 x.2.1) (decodeF cFP32 x.2.2))) (t.core c)))

/-- In a free engine, CVT converts element by element to OFMT; QNT writes the quantised elements to VD and each group's scale to VB; DQNT
scales each element by its group's scale in VB (R38, R42, R44, R104; with VD = VB QNT writes its scales last, log 68); each completes at
once. Nothing else of the module changes. -/
def Obligations.VxConvertAndQuantise : Prop :=
  ∀ (c : Fin 136) (w : Cmd) (s : State), (s.core c).vxe.vl ≠ 0 →
    let v := (s.core c).vxe
    let gs := (chunks (rqLen (vxGrp w)) v.vl (v.elems (vxVA w) cFP32 v.vl)).map (quantGroup (s.strictOf c) (vxOfmt w))
    let sc := v.elems (vxVB w) cBF16 (cdiv v.vl (rqLen (vxGrp w)))
    (s.vxTakes c w 0x10 → Gives (.vxCvt c w) s (fun t => OnlyCore s t c ∧
      s.vxWrites c (vxVD w) (vxOfmt w) ((v.elems (vxVA w) (vxFmt w) v.vl).map (cvt (s.strictOf c) (vxFmt w) (vxOfmt w))) (t.core c))) ∧
    (s.vxTakes c w 0x11 → Gives (.vxQnt c w) s (fun t => OnlyCore s t c ∧
      s.vxLeaves c ((v.setElems (vxVD w) (vxOfmt w) (gs.flatMap (fun g => g.2.1))).setElems (vxVB w) cBF16 (gs.map (fun g => g.1)))
        (orFlags (gs.map (fun g => g.2.2))) (t.core c))) ∧
    (s.vxTakes c w 0x12 → Gives (.vxDqnt c w) s (fun t => OnlyCore s t c ∧
      s.vxWrites c (vxVD w) cFP32 (((List.range v.vl).zip (v.elems (vxVA w) (vxFmt w) v.vl)).map (fun x =>
        dequant (s.strictOf c) (vxFmt w) x.2 (sc.getD (x.1 / rqLen (vxGrp w)) 0))) (t.core c)))

/-- In a free engine, RSUM and RMAX reduce each row of VA, widened to FP32 or as INT32, by one balanced pairwise tree into word CPOS of
the row's place in VD (R102), completing at once. Nothing else of the module changes. In a free engine, WELF takes one sample into each
position's triple, WMRG merges triple by triple, WRED merges each row's triples into its first position, and WFIN gives the variance of
each triple (R109 to R112); each completes at once. Nothing else of the module changes. -/
def Obligations.VxRowStatistics : Prop :=
  (∀ (c : Fin 136) (w : Cmd) (s : State), (s.core c).vxe.vl ≠ 0 →
      let v := (s.core c).vxe
      let f := vxFmt w
      let strict := s.strictOf c
      let rows := fun (op : Nat → Nat → Nat × Flags) => (chunks v.rlen v.vl (v.elems (vxVA w) f v.vl)).map (fun row =>
        let ws := row.map (fun x => if decide (f = cINT32) then (x, 0) else widen strict f x)
        let t := pairTree op 12 (ws.map Prod.fst)
        (t.1.headD 0, orFlags (ws.map Prod.snd) ||| t.2))
      let put := fun (rs : List (Nat × Flags)) => ((List.range rs.length).zip rs).foldl (fun v p => v.setWord (vxVD w) (4 * p.1 + vxCpos w) p.2.1) v
      (s.vxTakes c w 0x14 →
        let rs := rows (addF strict cFP32)
        Gives (.vxRsum c w) s (fun t => OnlyCore s t c ∧ s.vxLeaves c (put rs) (orFlags (rs.map Prod.snd)) (t.core c))) ∧
      (s.vxTakes c w 0x15 →
        let rs := rows (fun a b => if decide (f = cINT32) then vxBin 0x0B strict cINT32 a b else maxMinF strict true cFP32 a b)
        Gives (.vxRmax c w) s (fun t => OnlyCore s t c ∧ s.vxLeaves c (put rs) (orFlags (rs.map Prod.snd)) (t.core c)))) ∧
  (∀ (c : Fin 136) (w : Cmd) (s : State), (s.core c).vxe.vl ≠ 0 →
      let v := (s.core c).vxe
      let strict := s.strictOf c
      let one := ((v.triple (vxVD w) v.vl).zip (v.elems (vxVA w) (vxFmt w) v.vl)).map (fun p =>
        let x := widen strict (vxFmt w) p.2
        let t := welf strict p.1 x.1
        if 2 ^ 31 - 1 ≤ p.1.1 then t else (t.1, x.2 ||| t.2))
      let two := ((v.triple (vxVD w) v.vl).zip (v.triple (vxVA w) v.vl)).map (fun p => wmrg strict p.1 p.2)
      let red := (chunks v.rlen v.vl (v.triple (vxVD w) v.vl)).map (fun row => pairTree (wmrg strict) 12 row)
      (s.vxTakes c w 0x20 → Gives (.vxWelf c w) s (fun t => OnlyCore s t c ∧
        s.vxLeaves c (v.setTriple (vxVD w) (one.map Prod.fst)) (orFlags (one.map Prod.snd)) (t.core c))) ∧
      (s.vxTakes c w 0x21 → Gives (.vxWmrg c w) s (fun t => OnlyCore s t c ∧
        s.vxLeaves c (v.setTriple (vxVD w) (two.map Prod.fst)) (orFlags (two.map Prod.snd)) (t.core c))) ∧
      (s.vxTakes c w 0x22 → Gives (.vxWred c w) s (fun t => OnlyCore s t c ∧
        s.vxLeaves c (((List.range red.length).zip red).foldl (fun v p =>
          match p.2.1 with
          | x :: _ => ((v.setWord (vxVD w) (p.1 * v.rlen) x.1).setWord (vxVD w + 1) (p.1 * v.rlen) x.2.1).setWord (vxVD w + 2) (p.1 * v.rlen) x.2.2
          | [] => v) v) (orFlags (red.map Prod.snd)) (t.core c))) ∧
      (s.vxTakes c w 0x23 → Gives (.vxWfin c w) s (fun t => OnlyCore s t c ∧
        s.vxWrites c (vxVD w) cFP32 ((v.triple (vxVA w) v.vl).map (wfin strict (if vxDivsel w then 1 else 0))) (t.core c))))

/-- In a free engine, VX.FN takes each element through the table that FN names and raises the SFU's flags (R116, R117), completing at
once; what the shipped tables hold beyond their format is free (R124, log 4). Nothing else of the module changes. -/
def Obligations.VxFunction : Prop :=
  ∀ (c : Fin 136) (w : Cmd) (s : State), (s.core c).vxe.vl ≠ 0 → s.vxTakes c w 0x18 →
    let k := s.core c
    let xs := (k.vxe.elems (vxVA w) (vxFmt w) k.vxe.vl).map
      (evalFn (k.sfu.word (vxFn w)) (k.sfu.word 0) (s.strictOf c) (vxFmt w) (vxOfmt w))
    Gives (.vxFn c w) s (fun t => OnlyCore s t c ∧ ∃ fl : FlagReg, fl.v = k.sfu.flags.v ||| orFlags (xs.map Prod.snd) ∧
      t.core c = { k with
        seq := k.seq.moved s.tsc, vxe := k.vxe.setElems (vxVD w) (vxOfmt w) (xs.map Prod.fst), sfu := { k.sfu with flags := fl } })

/-! The sequencer. -/

/-- A SEQ command that passes its checks and waits for engines completes its issue: it keeps SEQ_PC and waits (R140, R147, R164): SEGMENT,
SIGNAL, FLAGRD, FLAGCLR and END, and WAIT with an engine of EMASK still at work. Its effect is the row named after it (two rows: log 9).
Nothing else of the module changes. -/
def Obligations.SqCommandsThatWait : Prop :=
  ∀ (c : Fin 136) (w : Cmd) (s : State),
    let waits := fun t => OnlyCore s t c ∧ t.core c = { s.core c with seq := (s.core c).seq.waits s.tsc 1 w }
    (s.sqTakes c w 1 → (idleMask (s.core c) 7 && modeClash (s.core c).mxe (bit w.w0 23)) = false → Gives (.sqSegment c w) s waits) ∧
    (s.sqTakes c w 2 → idleMask (s.core c) (sqEmask w) = false → Gives (.sqWait c w) s waits) ∧
    (s.sqTakes c w 4 → Gives (.sqSignal c w) s waits) ∧
    (s.sqTakes c w 6 → s.engGated c (sqEngsel w) = false → s.clkOn c 4 = true → Gives (.sqFlagrd c w) s waits) ∧
    (s.sqTakes c w 7 → s.engGated c (sqEngsel w) = false → Gives (.sqFlagclr c w) s waits) ∧
    (s.sqTakes c w 10 → Gives (.sqEnd c w) s waits)

/-- At a segment boundary, once every earlier command has retired, the segment before ends with its record, the new one begins at this
tick with the mode, SEGID and prediction of its command, and the sequencer moves on (R142, R170, R171). No other core changes, and with no
segment before it nothing else of the module does. -/
def Obligations.SegmentBoundaryBegins : Prop :=
  ∀ (c : Fin 136) (w : Cmd) (s : State), s.begun c 1 = some w → idleMask (s.core c) 7 = true →
    modeClash (s.core c).mxe (bit w.w0 23) = false →
    Gives (.segmentBoundary c) s (fun t =>
      t = ((s.endSegment c 0).updCore c (fun k => { k with seq := { k.seq with seg := some (segOf w s.tsc) } })).advance c ∧
      (t.core c).seq.seg = some (segOf w s.tsc) ∧ (t.core c).seq.pc = (s.core c).seq.pc + 16 ∧
      (t.core c).seq.st = 1 ∧ (t.core c).seq.cmd = none ∧ (t.core c).mxe = (s.core c).mxe ∧ (t.core c).vxe = (s.core c).vxe ∧
      (t.core c).sfu = (s.core c).sfu ∧ (t.core c).ste = (s.core c).ste ∧ (t.core c).spad = (s.core c).spad ∧
      (∀ d, d ≠ c.val → t.core d = s.core d) ∧
      ((s.core c).seq.seg = none → OnlyCore s t c ∧ t.core c = { s.core c with
        seq := { (s.core c).seq.moved s.tsc with seg := some (segOf w s.tsc) } }))

/-- SQ.WAIT completes at once when the engines of EMASK are idle, and a waiting one completes once they are (R143): the sequencer moves
on, and nothing else of the module changes. SQ.WAITG tests its gate: with the gate at or above TARGET it completes and the sequencer moves
on, and below it, or while the slice cannot serve the test (log 22), the sequencer waits with WAITK GATE; a waiting one repeats the test
(R144, R151). A gate that passes is lowered by TARGET when CONSUME is set. The sequencer is the only part of any core that changes. A
poisoned gate stops the image (R206). -/
def Obligations.WaitsGoOnWhenMet : Prop :=
  ((∀ (c : Fin 136) (w : Cmd) (s : State), s.sqTakes c w 2 → idleMask (s.core c) (sqEmask w) = true →
      Gives (.sqWait c w) s (fun t => OnlyCore s t c ∧ t.core c = { s.core c with seq := (s.core c).seq.moved s.tsc })) ∧
    (∀ (c : Fin 136) (w : Cmd) (s : State), s.begun c 2 = some w → idleMask (s.core c) (sqEmask w) = true →
      Gives (.sqWaitRelease c) s (fun t => OnlyCore s t c ∧ t.core c = { s.core c with seq := (s.core c).seq.moved s.tsc }))) ∧
  (∀ (c : Fin 136) (w : Cmd) (s : State), s.sched.st = 3 →
      let r := s.devRead (sqGoff w) 8
      let cores := fun (q : SeqSt) (t : State) => t.core c = { s.core c with seq := q } ∧ ∀ d, d ≠ c.val → t.core d = s.core d
      (∀ b, s.sliceWaits deviceStream (sqGoff w) = false → r.2 = some b →
        let after := if sqConsume w then r.1.devWrite (sqGoff w) (leBytes 8 (ofLe b - sqTarget w)) else r.1
        (sqTarget w ≤ ofLe b →
          (s.sqTakes c w 3 → Gives (.sqWaitg c w) s (fun t => t = after.advance c ∧ cores ((s.core c).seq.moved s.tsc) t)) ∧
          (s.begun c 3 = some w → Gives (.waitgPoll c) s (fun t => t = after.advance c ∧ cores ((s.core c).seq.moved s.tsc) t))) ∧
        (ofLe b < sqTarget w →
          (s.sqTakes c w 3 → Gives (.sqWaitg c w) s (fun t => t = r.1.seqWait c 3 (some w) ∧ cores ((s.core c).seq.waits s.tsc 3 w) t)) ∧
          (s.begun c 3 = some w → Gives (.waitgPoll c) s (fun t => t = r.1 ∧ t.cores = s.cores)))) ∧
      (s.sliceWaits deviceStream (sqGoff w) = true →
        (s.sqTakes c w 3 → Gives (.sqWaitg c w) s (fun t => t = s.seqWait c 3 (some w))) ∧
        (s.begun c 3 = some w → Gives (.waitgPoll c) s (fun t => t = s))) ∧
      (s.sliceWaits deviceStream (sqGoff w) = false → r.2 = none →
        (s.sqTakes c w 3 → Gives (.sqWaitg c w) s (fun t => t = r.1.stopImage 4)) ∧
        (s.begun c 3 = some w → Gives (.waitgPoll c) s (fun t => t = r.1.stopImage 4))))

/-- The gate addition of an SQ.SIGNAL whose engines are idle completes it: the sequencer moves on, and with a free signal entry the
addition is made, or its ADD packet leaves, with the placement epoch in force (R145, R153, R173, R234). With all 16 signal entries busy,
or others waiting before it, it waits for one. A waiting gate signal leaves when one of the 16 signal entries is free: a local gate is
added to, and a remote one, with a path, by an ADD packet in the fabric with its own TXN, which takes the entry until its answer (R153,
R234). -/
def Obligations.SignalsAddToGates : Prop :=
  (∀ (c : Fin 136) (w : Cmd) (s : State), s.begun c 4 = some w → idleMask (s.core c) (sqEmask w) = true →
      let g : GateAdd := { gaddr := sqGaddr w, add := sqTarget w, epoch := s.sched.placeEpoch }
      ((s.core c).ste.sigBusy < 16 → (s.core c).ste.sigWait = [] → Gives (.signalGateAdd c) s (fun t =>
        t = if s.gaLocal g.gaddr then (s.advance c).gateAdd (gaOff g.gaddr) g.add else (s.advance c).sendAdd c g)) ∧
      (16 ≤ (s.core c).ste.sigBusy ∨ (s.core c).ste.sigWait ≠ [] →
        Gives (.signalGateAdd c) s (fun t => OnlyCore s t c ∧ t.core c = { s.core c with
          seq := (s.core c).seq.moved s.tsc, ste := { (s.core c).ste with sigWait := (s.core c).ste.sigWait ++ [g] } }))) ∧
  (∀ (c : Fin 136) (g : GateAdd) (rest : List GateAdd) (s : State), (s.core c).ste.sigWait = g :: rest → (s.core c).ste.sigBusy < 16 →
      s.clock.lost = false →
      let u := s.updCore c (fun k => { k with ste := { k.ste with sigWait := rest } })
      (s.gaLocal g.gaddr = true → Gives (.gateSignalSend c) s (fun t => t = u.gateAdd (gaOff g.gaddr) g.add)) ∧
      (s.gaLocal g.gaddr = false → Gives (.gateSignalSend c) s (fun t => t = u.sendAdd c g ∧
        (t.core c).ste.sigWait = rest ∧ t.fab.nextTxn = (s.fab.nextTxn + 1) % 65536 ∧
        (∀ d, d ≠ c.val → t.core d = s.core d) ∧ t.mem = s.mem ∧ t.sched = s.sched ∧
        (((t.core c).ste.sigBusy = (s.core c).ste.sigBusy ∧ t.fab.txns = s.fab.txns ∧ t.ports = s.ports) ∨
         ((t.core c).ste.sigBusy = (s.core c).ste.sigBusy + 1 ∧
          ∃ p, t.fab.txns.get none s.fab.nextTxn = some { owner := .gateAdd c, port := p })))))

/-- SQ.BAR of a participant completes its issue: it sends an arrival and waits with WAITK BARRIER (R146, R155). The barrier unit of a hub
in service counts an arrival, and the last one releases the participants and clears the count (R154, R155). Nothing else of the module
changes. -/
def Obligations.BarriersCountAndRelease : Prop :=
  (∀ (c : Fin 136) (w : Cmd) (s : State), s.sqTakes c w 5 → (s.bar (sqBarid w)).mask.contains c.val = true →
    Gives (.sqBar c w) s (fun t => t.core c = { s.core c with seq := (s.core c).seq.waits s.tsc 4 w } ∧ (∀ d, d ≠ c.val → t.core d = s.core d) ∧
      t.bar (sqBarid w) = { s.bar (sqBarid w) with inflight := (s.bar (sqBarid w)).inflight ++ [c.val] } ∧
      (∀ b, b ≠ sqBarid w → t.bar b = s.bar b) ∧ t = { s with cores := t.cores, bars := t.bars })) ∧
  (∀ (b : Fin 64) (c : Nat) (rest : List Nat) (s : State), (s.bar b).inflight = c :: rest → (s.hub (s.barHub b)).fenced = false →
    s.clock.lost = false →
    ((s.bar b).arrived + 1 ≠ (s.bar b).mask.length →
      Gives (.barrierArrival b) s (fun t => t.bar b = { s.bar b with
          inflight := rest, arrived := (s.bar b).arrived + 1, waiting := (s.bar b).waiting ++ [c] } ∧
        (∀ d, d ≠ b.val → t.bar d = s.bar d) ∧ t = { s with bars := t.bars })) ∧
    ((s.bar b).arrived + 1 = (s.bar b).mask.length →
      Gives (.barrierArrival b) s (fun t => t.bar b = { s.bar b with inflight := rest, arrived := 0, waiting := [] } ∧
        (∀ d, d ≠ b.val → t.bar d = s.bar d) ∧ t = { s with cores := t.cores, bars := t.bars } ∧
        ∀ d, t.core d = if (s.begun d 5).isSome = true ∧ d ∈ (s.bar b).waiting ++ [c] then { s.core d with seq := (s.core d).seq.moved s.tsc }
          else s.core d)))

/-- A flag read whose engine is idle completes and writes the 32-bit value of the NUMFLAGS register at byte 64 × ADDR of the scratchpad
(R50, R147); a flag clear whose engines are idle completes and leaves each named register at (current and not MASK) or the sets of the
same cycle (R49, R147; the sets are the row's operand, log 23). The sequencer moves on, and nothing else of the module changes. A store to
a NUMFLAGS register, with the mask it carries, and FlagClear on each register it names whose engine is clocked, leave it at (current and
not MASK) or the sets of the same cycle (R49, R50, R53; the sets are the row's operand, log 23); on a gated engine FlagClear waits for its
clock. Every other register keeps its value. -/
def Obligations.FlagsAreReadAndCleared : Prop :=
  ((∀ (c : Fin 136) (w : Cmd) (s : State), s.begun c 6 = some w → engSelIdle (s.core c) (sqEngsel w) = true →
      Gives (.flagrdRead c) s (fun t => OnlyCore s t c ∧ t.core c = { s.core c with
        seq := (s.core c).seq.moved s.tsc,
        spad := (s.core c).spad.sets 0 (64 * sqFaddr w) (leBytes 4 (s.flagReg (flagUnit c (sqEngsel w))).v.toNat) })) ∧
    (∀ (c : Fin 136) (w : Cmd) (cs : List (FlagUnit × BitVec 4)) (s : State), s.begun c 7 = some w → engSelIdle (s.core c) (sqEngsel w) = true →
      Gives (.flagclrClear c cs) s (fun t => OnlyCore s t c ∧ t.core c = { s.core c with
          seq := (s.core c).seq.moved s.tsc, mxe := { (s.core c).mxe with flags := (t.core c).mxe.flags },
          vxe := { (s.core c).vxe with flags := (t.core c).vxe.flags }, sfu := { (s.core c).sfu with flags := (t.core c).sfu.flags } } ∧
        ∀ u, (t.flagReg u).v = if u ∈ flagUnits c (sqEngsel w) then ((s.flagReg u).v &&& ~~~sqMask w) ||| cosetOf cs u else (s.flagReg u).v))) ∧
  ((∀ (u : FlagUnit) (v : Word) (co : BitVec 4) (s : State), s.busUp = true →
      (match u with | .hub _ => True | _ => s.flagClocked u = true) →
      Gives (.numflagsWindowClear u v co) s (fun t => t = { s with cores := t.cores, hubs := t.hubs, log := t.log } ∧
        (t.flagReg u).v = ((s.flagReg u).v &&& ~~~(BitVec.ofNat 4 v.toNat)) ||| co ∧ ∀ w, w ≠ u → t.flagReg w = s.flagReg w)) ∧
    (∀ (q : OdReq) (v : Word) (co : List (FlagUnit × BitVec 4)) (s : State), s.admits q 0x0701 (leBytes 4 v.toNat) →
      fld v 31 29 ≠ 6 → (fld v 28 23 ≤ 33 ∨ fld v 28 23 = 0x3F) → fld v 18 4 = 0 → clearUnits v ≠ [] →
      let mask := BitVec.ofNat 4 (fld v 3 0)
      Acts (.flagClear q v co) q s (fun t => t.sched = s.sched ∧
        ∀ w, if w ∈ clearUnits v then
            if s.flagClocked w then (t.flagReg w).v = ((s.flagReg w).v &&& ~~~mask) ||| cosetOf co w
            else t.flagReg w = { s.flagReg w with pendClr := (s.flagReg w).pendClr ||| mask }
          else t.flagReg w = s.flagReg w)))

/-- SQ.LOOP that passes its checks completes and opens a loop at the command after it; SQ.ENDLOOP of the innermost loop goes back to its
body while passes remain, which is fetched anew (log 69), and ends it with the last (R148, R149). Nothing else of the module changes. -/
def Obligations.LoopsRepeatTheirBody : Prop :=
  (∀ (c : Fin 136) (w : Cmd) (s : State), s.sqTakes c w 8 →
    Gives (.sqLoop c w) s (fun t => OnlyCore s t c ∧ t.core c = { s.core c with
      seq := { (s.core c).seq.moved s.tsc with
        loops := { body := (s.core c).seq.pc + 16, count := w.w1.toNat, done := 0 } :: (s.core c).seq.loops } })) ∧
  (∀ (c : Fin 136) (w : Cmd) (l : LoopSt) (ls : List LoopSt) (s : State), s.sqTakes c w 9 → (s.core c).seq.loops = l :: ls →
    Gives (.sqEndloop c w) s (fun t => OnlyCore s t c ∧ t.core c = { s.core c with
      seq := if l.done + 1 < l.count then
          { (s.core c).seq.moved s.tsc with pc := l.body, buf := [], loops := { l with done := l.done + 1 } :: ls }
        else { (s.core c).seq.moved s.tsc with loops := ls } }))

/-- SQ.END with every engine idle completes: the sequencer is DONE and ends its segment (R149, R170), and the last sequencer of the entry
completes the image, which posts a schedule-complete event (R136). A sequencer that has issued nothing for StallLimit posts one stall
event (R167). A faulted image halts its sequencers that run or wait with PEER and, once its engines are at rest, is FAULTED (R163). -/
def Obligations.EndsOfAnImage : Prop :=
  (∀ (c : Fin 136) (w : Cmd) (s : State), s.begun c 10 = some w → idleMask (s.core c) 7 = true → s.sched.st = 3 →
    Gives (.sqEndComplete c) s (fun t =>
      t = ((s.endSegment c 1).updCore c (fun k => { k with seq := { k.seq with st := 3, waitk := 0, cmd := none } })).completeIfDone ∧
      (t.core c).seq.st = 3 ∧ (t.core c).seq.cmd = none ∧ (t.core c).seq.seg = none ∧
      (∀ d, d ≠ c.val → (t.core d).seq = (s.core d).seq) ∧
      ((∀ d ∈ s.imageCores, d ≠ c.val → (s.core d).seq.st = 3) → t.sched.st = 4 ∧
        ∃ e ∈ t.log.raised, e.code = 0x0601 ∧ e.tsc = s.tsc ∧ e.args = [BitVec.ofNat 32 s.sched.entry]) ∧
      ((∃ d ∈ s.imageCores, d ≠ c.val ∧ (s.core d).seq.st ≠ 3) → t.sched = s.sched))) ∧
  (∀ (c : Fin 136) (s : State), s.sched.st = 3 → s.clock.lost = false → (s.core c).seq.st = 1 ∨ (s.core c).seq.st = 2 →
    (s.core c).seq.stallPosted = false → s.sched.stallLimit * 400 ≤ s.tsc - (s.core c).seq.lastIssue →
    Gives (.stall c) s (fun t => OnlyCore s t c ∧ t.core c = { s.core c with seq := { (s.core c).seq with stallPosted := true } } ∧
      ∃ e, t.log.raised = s.log.raised ++ [e] ∧ e.code = 0x0603 ∧ e.tsc = s.tsc)) ∧
  (∀ s : State, s.sched.st = 3 → s.sched.faulting = true → s.clock.lost = false → s.faultHalt.haltDone = true →
    Gives .imageFaulted s (fun t => t.sched.st = 7 ∧ t.sched.faulting = false ∧ t.sched.recCode = s.sched.recCode ∧
      t = ({ s.faultHalt.freeCancelled with sched := { s.faultHalt.sched with faulting := false } } : State).setSched 7 ∧
      (s.sched.halted = false → ∀ d ∈ s.imageCores, (s.core d).seq.st = 1 ∨ (s.core d).seq.st = 2 →
        (t.core d).seq.st = 4 ∧ (t.core d).seq.fcode = 5)))

/-- A command that fails a check faults its sequencer: MALFORMED before GATED before STATE (R162). SEQ_PC stays at the command, SEQ_FAULT
holds its engine and operation, and the image is faulting (R159 to R163, R166). Within the tick no other core changes, so that another may
fault too; at its end (log 71) every sequencer of the image that runs or waits halts with PEER. -/
def Obligations.FailedChecksFault : Prop :=
  ∀ (c : Fin 136) (w : Cmd) (s : State) (mal gated bad full : Bool) (e o : Nat) (eff : State → State),
    s.atCmd c w e o = true → (mal || gated || bad) = true →
    let t := s.issue c w e o mal gated bad full eff
    (t.core c).seq.st = 5 ∧ (t.core c).seq.pc = (s.core c).seq.pc ∧ (t.core c).seq.fault = faultWord w ∧
    (t.core c).seq.fcode = (if mal then 1 else if gated then 3 else 2) ∧ t.sched.faulting = true ∧ t.sched.recValid = true ∧
    (∀ d, d ≠ c.val → t.core d = s.core d) ∧
    (s.sched.halted = false → ∀ d ∈ s.imageCores, d ≠ c.val → (s.core d).seq.st = 1 ∨ (s.core d).seq.st = 2 →
      (t.faultHalt.core d).seq.st = 4 ∧ (t.faultHalt.core d).seq.fcode = 5)

/-! The stream engine. -/

/-- ST.ISSUE that passes its checks completes and joins the issue queue with the passes completed in each open loop, outermost first
(R216, R220); with 64 commands in the queue it waits with WAITK QUEUE (R140, R213). Nothing else of the module changes. -/
def Obligations.StIssueJoinsItsQueue : Prop :=
  ∀ (c : Fin 136) (w : Cmd) (d : List Word) (s : State), s.atCmd c w 3 1 = true → s.clkOn c 3 = true →
    s.stIssueMal s.sched.secs s.sched.imgOff c w = false → s.descAt s.sched.secs s.sched.imgOff c (stDesc w) = some d →
    let passes := ((s.core c).seq.loops.map (fun l => l.done)).reverse
    s.descBad s.sched.secs s.sched.imgOff d passes = false →
    ((s.core c).ste.q.length < 64 → Gives (.stIssue c w) s (fun t => OnlyCore s t c ∧ t.core c = { s.core c with
      seq := (s.core c).seq.moved s.tsc,
      ste := { (s.core c).ste with q := (s.core c).ste.q ++ [{ w := w, passes := passes }] } })) ∧
    (64 ≤ (s.core c).ste.q.length → Gives (.stIssue c w) s (fun t => OnlyCore s t c ∧ t.core c = { s.core c with
      seq := { (s.core c).seq with
        st := 2, waitk := 2, cmd := none,
        stallPosted := if (s.core c).seq.st = 2 then (s.core c).seq.stallPosted else false } }))

/-- The head of the issue queue takes the lowest free slot with its descriptor as it is read then (R213, R217), its pass (R220) and the
placement epoch in force (R173); a FWDLAND of a direction and tag not yet armed arms its landing (R223); with a descriptor that has become
illegal since its issue the sequencer faults (the model's reading, log 73), and one that is poisoned ends the stream with status POISON
(R235). No other core changes. -/
def Obligations.StreamTakesTheLowestSlot : Prop :=
  ∀ (c : Fin 136) (i : Fin 16) (q : StCmd) (rest : List StCmd) (off : Nat) (s : State),
    (s.core c).ste.q = q :: rest → (s.strm c i).busy = false → (∀ j, j < i.val → (s.strm c j).busy = true) →
    s.sched.st = 3 → s.sched.faulting = false → s.clkOn c 3 = true →
    descOff s.sched.secs s.sched.imgOff c (stDesc q.w) = some off →
    let r := s.memRead (streamNo c i) off 64 0 noErr
    let d := wordsLe 16 (r.2.getD [])
    let p := passOf d q.passes
    let e := (s.scaleAt s.sched.secs s.sched.imgOff (dSidx d)).getD { base := 0, nv := 0, ng := 0 }
    let x : Strm := {
      busy := true, desc := d, descNo := stDesc q.w, pass := p, sig := stSig q.w, gaddr := sqGaddr q.w, add := q.w.w3.toNat, t0 := s.tsc,
      epoch := s.sched.placeEpoch, order := (s.core c).ste.order, secs := if dType d = 4 then panelSecs d e p else [], sbase := e.base,
      snv := e.nv, sng := e.ng, status := if r.2.isSome then 0 else 3 }
    let takes := fun (t : State) => t.core c = { s.core c with ste := { (s.core c).ste with
        q := rest, order := (s.core c).ste.order + 1, slots := (s.core c).ste.slots.set {} i x } } ∧
      (∀ k, k ≠ c.val → t.core k = s.core k) ∧ t.ports = s.ports ∧ t.sched = s.sched
    (r.2.isSome = true → s.descFault c d q.passes = none →
      (dType d ≠ 5 → Gives (.streamSlotTake c) s (fun t => takes t ∧ t.landings = s.landings ∧ t.fab = s.fab)) ∧
      (dType d = 5 → s.landingFor (dIndir d) (dTag d) = none → (s.landings.filter (fun l => l.indir = dIndir d)).length < 16 →
        Gives (.streamSlotTake c) s (fun t => takes t ∧ t.fab = { s.fab with landNo := s.fab.landNo + 1 } ∧
          t.landings = s.landings ++ [{
            no := s.fab.landNo, hint := dDhint d, core := c, slot := i, indir := dIndir d, tag := dTag d, fwd := dFwd d,
            outdir := dOutdir d, dst := gaOff (gaAdd (dDst d) (64 * p * dDlstr d)), len := 64 * dRun d }]))) ∧
    (∀ f, r.2.isSome = true → s.descFault c d q.passes = some f → dType d ≠ 5 →
      Gives (.streamSlotTake c) s (fun t => t = r.1.seqFault c f q.w)) ∧
    (r.2 = none → Gives (.streamSlotTake c) s (fun t => takes t ∧ t.landings = s.landings ∧ t.fab = s.fab))

/-- A grant moves the chosen stream one unit on and leaves it no starvation (R214, R215, R228, R230; the row's grant is one unit, log 21):
a unit whose source is in local HBM becomes a read request of the region that homes it, and an index sector in local HBM one with no hint.
Every other busy stream of the core counts one grant more that passed it over. No other core and no other region changes. Streams whose
next index is illegal end first (R221), and with no eligible stream there is no grant (R229). -/
def Obligations.SteGrantSendsARequest : Prop :=
  ∀ (c : Fin 136) (ecc : List (Nat × Ecc)) (s : State), s.sched.st = 3 → s.sched.faulting = false → s.clkOn c 3 = true →
    let v := s.indexEnds c
    (chooseSlot (v.core c) s.tsc = none → Gives (.steGrant ⟨c, ecc⟩) s (fun t => t = v)) ∧
    (∀ i, chooseSlot (v.core c) s.tsc = some i → Gives (.steGrant ⟨c, ecc⟩) s (fun t => t = v.grantTo c i ecc)) ∧
    (∀ i a : Nat, (s.core c).ste.slots.all (fun x => decide (strmNext x.2 ≠ .badIndex)) = true → SMap.wf {} (s.core c).ste.slots = true →
      (s.strm c i).busy = true → chooseSlot (s.core c) s.tsc = some i →
      let x := s.strm c i
      let r := s.resolve a
      let pool := fun (k : ReqKind) => if dedicatedFree x then x.shared else x.shared ++ [k]
      let asks := fun (k : ReqKind) (hint : Nat) (x' : Strm) (t : State) =>
        t = { s with cores := t.cores, mem := { s.mem with regions := t.mem.regions } } ∧ t.strm c i = x' ∧
        (∀ j, j ≠ i → t.strm c j = { s.strm c j with starve := if (s.strm c j).busy then (s.strm c j).starve + 1 else 0 }) ∧
        t.region r.1 = { s.region r.1 with q := (s.region r.1).q ++
          [{ owner := .stream c i k, band := bandOf a, addr := r.2, op := .read, hint := hint }] } ∧
        (∀ d, d ≠ r.1 → t.region d = s.region d) ∧ ∀ d, d ≠ c.val → t.core d = s.core d
      (∀ u src dst, strmNext x = .unit u src dst → s.gaLocal src = true → placeOf (gaOff src) = .hbm a →
        Gives (.steGrant ⟨c, ecc⟩) s (asks (.unit u dst) (dShint x.desc) { x with
          starve := 0, g := x.g + 1, outst := x.outst ++ [.unit u dst], shared := pool (.unit u dst) })) ∧
      (∀ sec, strmNext x = .index sec → s.gaLocal (64 * sec) = true → placeOf (gaOff (64 * sec)) = .hbm a →
        Gives (.steGrant ⟨c, ecc⟩) s (asks (.index sec) 0 { x with
          starve := 0, idxWait := true, outst := x.outst ++ [.index sec], shared := pool (.index sec) })))

/-- A response that a live request of the core's streams awaits arrives: the acknowledgement of a write of a strided stream frees its
request's entry (R215, R233); a response with a status ends the stream's grants with the first status that came (R235, R236); one of a
cancelled stream frees its entry, and one that no stream awaits is discarded (R237). Each leaves the responses of the core, and no other
core changes. A stream that has moved everything retires and frees its slot, with its landing (R232); its signal adds to its gate (R234).
A stream ended by a status frees its slot too, leaves STE_ERR with the first such status, slot and descriptor, counts in StreamErrors and
stops the running image (R236, R238). -/
def Obligations.ResponsesAndRetirement : Prop :=
  (∀ (c : Fin 136) (k : Nat) (r : Resp) (s : State), (s.core c).ste.resp[k]? = some r → s.clock.lost = false →
      let x := s.strm c r.slot
      let left := { (s.core c).ste with resp := (s.core c).ste.resp.eraseIdx k }
      let u := s.updCore c (fun x => { x with ste := left })
      let live := x.busy = true ∧ x.outst.contains r.kind = true
      (live → x.status ≠ 1 → Gives (.steResponse c k) s (fun t => t = (u.steArrive c r).indexEnds c)) ∧
      (live → x.held = [] → dType x.desc = 1 → x.status = 0 → ∀ n dst, r.kind = .unit n dst → r.data = [] ∨ r.status ≠ 0 →
        Gives (.steResponse c k) s (fun t => (∀ d, d ≠ c.val → t.core d = s.core d) ∧ (t.core c).ste.resp = left.resp ∧
          t.strm c r.slot = { x with outst := x.outst.erase r.kind, shared := x.shared.erase r.kind, status := r.status })) ∧
      (live → x.status = 1 → Gives (.steResponse c k) s (fun t => t = u.reqDone c r.slot r.kind)) ∧
      (¬ live → Gives (.steResponse c k) s (fun t => t = u))) ∧
  (∀ (c : Fin 136) (i : Fin 16) (s : State), s.strmOver c i = true → s.clock.lost = false →
      let x := s.strm c i
      let free := fun (t : State) => (t.strm c i) = {} ∧ t.landings = s.landings.filter (fun l => ¬ (l.core = c.val ∧ l.slot = i.val))
      (x.status = 0 → x.sig = false → Gives (.streamRetire c i) s (fun t => free t ∧
        t = { s with cores := t.cores, landings := t.landings } ∧ ∀ d, d ≠ c.val → t.core d = s.core d)) ∧
      (x.status = 0 → x.sig = true → Gives (.streamRetire c i) s (fun t =>
        t = (s.slotFree c i).signalGate c { gaddr := x.gaddr, add := x.add, epoch := s.sched.placeEpoch } ∧ free (s.slotFree c i))) ∧
      (x.status ≠ 0 → Gives (.streamRetire c i) s (fun t => (t.strm c i).busy = false ∧
        (t.core c).ste.err = (if (s.core c).ste.err = 0 then steErrWord x.status i x.descNo else (s.core c).ste.err) ∧
        t.mem.streamErrors = s.mem.streamErrors + 1 ∧ t.sched.st = (if s.sched.st = 3 then 5 else s.sched.st))))

/-- A held Reel packet whose landing has been armed leaves the hold and, when its epoch is the one in force and it fits its landing, lands
(R223, R254, R255); one that waits ReelHoldLimit raises its event once for its direction and tag, with the port that holds it as its
source (R256; log 19). -/
def Obligations.HeldReelPackets : Prop :=
  (∀ (p : Fin 40) (pk : Packet) (t0 : Nat) (l : Landing) (s : State), s.fab.reelHeld = [(p.val, pk, t0)] → s.clock.lost = false →
    s.landingFor (p.val / 6) pk.tag = some l →
    let u := ({ s with fab := { s.fab with reelHeld := [] } }).freePackets 4 [(p.val, pk)]
    (pk.epoch % 65536 = s.sched.placeEpoch % 65536 → pk.addr + pk.payload.length ≤ l.len →
      Gives (.reelPacketLand p) s (fun t => t = u.reelLand p l pk)) ∧
    (pk.epoch % 65536 ≠ s.sched.placeEpoch % 65536 → s.sched.placeEpoch < 65536 →
      Gives (.reelPacketLand p) s (fun t => t = (u.epochCheck pk.epoch).1 ∧ t.landings = s.landings ∧ t.cores = s.cores ∧ t.mem = s.mem))) ∧
  (∀ (p : Fin 40) (pk : Packet) (t0 : Nat) (s : State), s.fab.reelHeld = [(p.val, pk, t0)] → (p.val / 6, pk.tag) ∉ s.fab.reelPosted →
    s.fab.reelHoldLimit * 400 ≤ s.tsc - t0 → s.clock.lost = false →
    Gives (.reelHold p) s (fun t =>
      t = { s with fab := { s.fab with reelPosted := (p.val / 6, pk.tag) :: s.fab.reelPosted }, log := t.log } ∧
      ∃ e, t.log = { s.log with raised := s.log.raised ++ [e] } ∧ e.code = 0x0902 ∧ e.tsc = s.tsc ∧ e.src = srcHub (portHub p) p))

/-! The schedule image. -/

/-- LoadSchedule is accepted in EMPTY and in every state that holds an image at rest: it discards the held image, the loadable function
slots become invalid, and the image is LOADING (R113, R131, R134). The load ends in HELD with the image committed (every core with a
CORECFG has its configuration and reset engines, every other core no clock), or in EMPTY with the code of the first failed check in
LoadResult (R131 to R133); the image is read as any requester reads it, and a poisoned one fails its digest (log 14). -/
def Obligations.LoadsCommitOrRefuse : Prop :=
  (∀ (q : OdReq) (off : BitVec 64) (s : State), s.admits q 0x0601 (leBytes 8 off.toNat) → (s.sched.st = 0 ∨ schedIdle s.sched.st = true) →
    Acts (.loadSchedule q off) q s (fun u => u.bars = [] ∧ (u.hub 0).coll.table = [] ∧ (u.hub 1).coll.table = [] ∧
      (∀ c, c < 136 → u.core c = { s.core c with sfu := { (s.core c).sfu with valid := 0 } }) ∧ u.mem = s.mem ∧
      u.sched = { s.sched with
        st := 1, loadOff := off.toNat, secs := [], nentry := 0, logn := 0, digest := [], imgLen := 0 })) ∧
  (∀ s : State, s.sched.st = 1 → s.clock.lost = false → (∀ c, c < 136 → (s.core c).sfu.checking = none) →
    let off := s.sched.loadOff
    let m := s.imageRead off
    let v := m.1
    let h := v.hdrAt off
    let secs := (List.range h.nsec).map (fun i => secOf (v.secWords off i))
    let r := (v.loadCheck off).1
    let code := if m.2 = true ∨ (r ≠ 0 ∧ r < 4) then r else 4
    Gives .loadComplete s (fun t => t.sched.loadResult = code ∧
      (code ≠ 0 → t.sched = { s.sched with st := 0, loadResult := code } ∧ t.mem = v.mem ∧
        ∀ c, (t.core c).seq = (s.core c).seq ∧ (t.core c).mxe = (s.core c).mxe ∧ (t.core c).clken = (s.core c).clken) ∧
      (code = 0 → t.sched.st = 2 ∧ t.sched.secs = secs ∧ t.sched.nentry = h.nentry ∧ t.sched.imgOff = off ∧
        ∀ c, c < 136 → (t.core c).ste.err = 0 ∧
          (∀ cfg clk, v.corecfg secs off c = some (cfg, clk) → (t.core c).clken = BitVec.ofNat 5 (fld clk 4 0) ∧
            (t.core c).mxe.cfg = cfg ∧ (t.core c).mxe.slots = [] ∧ (t.core c).vxe.vl = 0 ∧ (t.core c).vxe.rlen = 96 ∧
            (t.core c).seq.seqno = 0) ∧
          (v.corecfg secs off c = none → (t.core c).clken = 0))))

/-- StartSchedule of an entry of the held image at rest runs it: every sequencer is IDLE, but each core with one command stream for the
entry starts at byte 0 of it (R134, R135). Arrivals counted by the barriers since their last release stay (the model's reading, log 16).
-/
def Obligations.StartsRunTheirEntry : Prop :=
  ∀ (q : OdReq) (e : BitVec 8) (s : State), s.admits q 0x0602 (leBytes 1 e.toNat) → schedIdle s.sched.st = true → e.toNat < s.sched.nentry →
    Acts (.startSchedule q e) q s (fun u =>
      u.sched = { s.sched with st := 3, entry := e.toNat, faulting := false, halted := false, recValid := false } ∧ u.mem = s.mem ∧
      (∀ (c : Nat) (x : Section), c < 136 →
        s.sched.secs.filter (fun y => decide (y.typ = 1 ∧ y.sub = e.toNat ∧ y.core = c)) = [x] →
        (u.core c).seq = startSeq e.toNat (s.sched.imgOff + x.off) x.len s.tsc (s.core c).seq) ∧
      (∀ c, c < 136 → (∀ x ∈ s.sched.secs, x.core ≠ c) →
        u.core c = { s.core c with seq := { (s.core c).seq with st := 0, fcode := 0, waitk := 0 } }) ∧
      ∀ b, u.bar b = { s.bar b with waiting := [], inflight := [] })

/-- StopSchedule halts every sequencer of the running image that runs or waits with FCODE STOPPED, its engines abandon their work, and the
image is STOPPING (R134, R137); it is STOPPED once no request of its cores is inside a slice, with its cancelled streams' slots free
(R138, R237). What a scratchpad drain in progress had written is a free part of it (log 12). PlaceEpochAdvance to the next epoch takes
effect at once, and to any other is refused as INVALID (R175). -/
def Obligations.StopsAndEpochs : Prop :=
  ((∀ (q : OdReq) (v : BitVec 8) (s : State), s.admits q 0x0603 (leBytes 1 v.toNat) → s.sched.st = 3 →
      Acts (.stopSchedule q v) q s (fun u => u.sched = { s.sched with st := 5, halted := true } ∧
        (∀ c ∈ s.imageCores, (u.core c).mxe.arrQ = [] ∧ (u.core c).mxe.drains = [] ∧ (u.core c).vxe.q = [] ∧ (u.core c).vxe.pipes = [] ∧
          (u.core c).ste.q = [] ∧
          ((s.core c).seq.st = 1 ∨ (s.core c).seq.st = 2 → (u.core c).seq.st = 4 ∧ (u.core c).seq.fcode = 4 ∧ (u.core c).seq.cmd = none ∧
            (u.core c).seq.pc = (s.core c).seq.pc)) ∧
        ∀ c, c ∉ s.imageCores → u.core c = s.core c)) ∧
    (∀ s : State, s.sched.st = 5 → s.haltDone = true → s.clock.lost = false →
      Gives .stopComplete s (fun t => t.sched = { s.sched with st := 6, faulting := false } ∧ t.mem = s.mem ∧
        (∀ c ∈ s.imageCores, t.core c = { s.core c with ste := { (s.core c).ste with slots := [] } }) ∧
        ∀ c, c ∉ s.imageCores → t.core c = s.core c))) ∧
  (∀ (q : OdReq) (e : BitVec 16) (s : State), s.admits q 0x0621 (leBytes 2 e.toNat) →
      (e.toNat = (s.sched.placeEpoch + 1) % 65536 → s.sched.st ≠ 1 →
        Acts (.placeEpochAdvance q e) q s (fun u => u = { s.taken 0x0621 0 (leBytes 2 e.toNat) with
          sched := { s.sched with placeEpoch := e.toNat } })) ∧
      (e.toNat ≠ (s.sched.placeEpoch + 1) % 65536 →
        Gives (.placeEpochAdvance q e) s (fun t => t = (s.noteAct .act 0x0621 0 3).answer q 3)))

/-! Function tables, flags and control windows. -/

/-- FN_LOAD of a loadable slot completes by starting the check of the staged table, with RESULT as it was until the check ends (log 68),
and is refused while a sequencer runs, a check runs or for a fixed slot, with its code in FN_STAT (R120, R121); the check ends with its
code, and a table that passes is committed to its slot and valid (R120). Nothing else of the module changes. -/
def Obligations.FunctionTablesLoad : Prop :=
  (∀ (c : Fin 136) (v : Word) (s : State), s.busUp = true → s.clkOn c 2 = true →
    Gives (.fnLoad c v) s (fun t => OnlyCore s t c ∧ t.core c = { s.core c with
      sfu := if (s.core c).sfu.checking.isSome = true ∨ (s.core c).seq.st = 1 ∨ (s.core c).seq.st = 2 then
        { (s.core c).sfu with lastSlot := fld v 3 0, result := 1 }
      else if fld v 3 0 < 8 then { (s.core c).sfu with lastSlot := fld v 3 0, result := 2 }
      else { (s.core c).sfu with lastSlot := fld v 3 0, checking := some (fld v 3 0) } })) ∧
  (∀ (c : Fin 136) (f : Nat) (s : State), (s.core c).sfu.checking = some f → s.clkOn c 2 = true →
    Gives (.fnCheckDone c) s (fun t => OnlyCore s t c ∧
      t.core c = { s.core c with sfu := (t.core c).sfu } ∧ (t.core c).sfu.checking = none ∧ (t.core c).sfu.lastSlot = f ∧
      (t.core c).sfu.result = stageCheck (s.core c).sfu.stage ∧ (t.core c).sfu.stage = (s.core c).sfu.stage ∧
      (t.core c).sfu.flags = (s.core c).sfu.flags ∧
      (stageCheck (s.core c).sfu.stage ≠ 0 → (t.core c).sfu.tables = (s.core c).sfu.tables ∧ (t.core c).sfu.valid = (s.core c).sfu.valid) ∧
      (stageCheck (s.core c).sfu.stage = 0 → (t.core c).sfu.valid = (s.core c).sfu.valid ||| BitVec.ofNat 8 (2 ^ (f - 8)) ∧
        ∀ k, k < 16 + 8 * tN (stageWord (s.core c).sfu.stage) →
          (t.core c).sfu.tables.get 0 (f * 4096 + k) = stageWord (s.core c).sfu.stage k)))

/-- A store to MXE_CFG takes effect when every tile slot is FREE, the partition exists and a divided array stands in a core that can
divide it; otherwise it is ignored (R69). A store to CORE_CLKEN takes effect when the sequencer neither runs nor waits and no engine is
left clocked without its scratchpad; otherwise it is ignored (R169). A store of a control core that executes to a control window completes
with the effect of its register, and with no register there, no effect (R188 to R190, R198); one to a gated block, of another width or
misaligned is a bus error that changes only the core's outcome (R189). -/
def Obligations.ControlWindowStores : Prop :=
  ((∀ (c : Fin 136) (v : Word) (s : State), s.busUp = true → s.clkOn c 1 = true →
      let ok := ¬ ((s.core c).mxe.slots.any (fun x => decide (x.2.st ≠ 0)) = true) ∧ fld v 7 4 ≤ 3 ∧ (fld v 7 4 ≠ 0 → isWide c = true)
      Gives (.mxeCfgStore c v) s (fun t =>
        (ok → OnlyCore s t c ∧ t.core c = { s.core c with mxe := { (s.core c).mxe with cfg := BitVec.ofNat 32 (fld v 7 4 * 16 + fld v 0 0) } }) ∧
        (¬ ok → t = s))) ∧
    (∀ (c : Fin 136) (v : Word) (s : State), s.busUp = true →
      let ok := (s.core c).seq.st ≠ 1 ∧ (s.core c).seq.st ≠ 2 ∧ (bit v 4 = true ∨ fld v 3 1 = 0)
      Gives (.coreClkenStore c v) s (fun t =>
        (ok → t = s.setClken c (BitVec.ofNat 5 (fld v 4 0)) ∧ OnlyCore s t c ∧ (t.core c).clken = BitVec.ofNat 5 (fld v 4 0) ∧ (t.core c).seq = (s.core c).seq ∧
          (t.core c).spad = (s.core c).spad ∧ (t.core c).ste = (s.core c).ste ∧ (t.core c).mxe.slots = (s.core c).mxe.slots ∧
          (t.core c).mxe.cfg = (s.core c).mxe.cfg ∧ (t.core c).vxe.v = (s.core c).vxe.v) ∧
        (¬ ok → t = s)))) ∧
  (∀ (cpu : Fin 16) (off : BitVec 40) (width : Nat) (v : BitVec 64) (s : State), s.cpuRuns cpu = true →
      (∀ (c : Nat) (x : Nat), placeOf off.toNat = .coreCtl c x → x = 0x40 → s.clkOn c 4 = true → width = 4 →
        Gives (.controlWindowWrite cpu off width v) s (fun t => t = { s with cores := t.cores, cpus := t.cpus } ∧
          t.core c = { s.core c with ue := (s.core c).ue && !bit (BitVec.ofNat 32 v.toNat) 0 } ∧ (∀ d, d ≠ c → t.core d = s.core d) ∧
          t.cpu cpu = { s.cpu cpu with bus := false, value := 0 })) ∧
      (∀ (r x : Nat), placeOf off.toNat = .mscCtl r x → x = 0x10 → (s.region r).clken.getLsbD 1 = true → width = 4 → (s.region r).op = none →
        Gives (.controlWindowWrite cpu off width v) s (fun t => t.region r = { s.region r with len := BitVec.ofNat 32 v.toNat } ∧
          (∀ d, d ≠ r → t.region d = s.region d) ∧ t = { s with mem := { s.mem with regions := t.mem.regions }, cpus := t.cpus })) ∧
      (∀ (h x : Nat), placeOf off.toNat = .hubCtl h x → x = 0x100 → (s.hub h).clken.getLsbD 2 = true → width = 4 →
        Gives (.controlWindowWrite cpu off width v) s (fun t =>
          t.hub h = { s.hub h with coll := { (s.hub h).coll with tbaseLo := BitVec.ofNat 32 v.toNat } } ∧
          (∀ d, d ≠ h → t.hub d = s.hub d) ∧ t = { s with hubs := t.hubs, cpus := t.cpus })) ∧
      (∀ u, s.windowStore (placeOf off.toNat) width v = some u →
        Gives (.controlWindowWrite cpu off width v) s (fun t => t = u.cpuOut cpu false 0)) ∧
      (s.gatedAt (placeOf off.toNat) = true ∨ (width ≠ 4 ∧ width ≠ 8) →
        Gives (.controlWindowWrite cpu off width v) s (fun t => t = { s with cpus := t.cpus } ∧
          t.cpu cpu = { s.cpu cpu with bus := true, value := 0 } ∧ ∀ d, d ≠ cpu.val → t.cpu d = s.cpu d)))

/-- A control core that executes loads and stores scratchpad and HBM bytes in little-endian order (R3, R179): a load returns them, an
atomic returns the old value and leaves the combined one, and an access that is misaligned, too narrow for a scratchpad or into a gated
block is a bus error (R179, R185). One to HBM goes through the slice that homes it (R191), and one that the slice cannot serve yet has no
effect until it is sent again (log 22). -/
def Obligations.ControlCoreAccesses : Prop :=
  ∀ (cpu : Fin 16) (a : Access) (off : BitVec 40) (width : Nat) (v : BitVec 64) (ecc : Ecc) (err : HbmErr) (s : State), s.cpuRuns cpu = true →
    (∀ (c x : Nat), placeOf off.toNat = .spad c x → (width = 4 ∨ width = 8) → off.toNat % width = 0 → s.clkOn c 4 = true → ecc = .clean →
      let old := ofLe (s.spadRead c x width)
      Gives (.controlCoreAccess cpu a off width v ecc err) s (fun t => t = { s with cores := t.cores, cpus := t.cpus } ∧
        (∀ d, d ≠ c → t.core d = s.core d) ∧
        t.core c = (if a = .load then s.core c else { s.core c with
          spad := (s.core c).spad.sets 0 x (leBytes width (amoNext a width old v.toNat)) }) ∧
        t.cpu cpu = { s.cpu cpu with bus := false, value := if a = .store then 0 else old })) ∧
    (∀ (o : Nat), placeOf off.toNat = .hbm o → naturally off.toNat width = true → s.gatedAt (.hbm o) = false →
      (s.sliceWaits (cpuStream (cpu / 8)) o = true → Gives (.controlCoreAccess cpu a off width v ecc err) s (fun t => t = s)) ∧
      (s.sliceWaits (cpuStream (cpu / 8)) o = false →
        Gives (.controlCoreAccess cpu a off width v ecc err) s (fun t => t = s.hbmAccess cpu a o width v ecc err) ∧
        (∀ b, a = .load → ecc = .clean → (s.memRead (cpuStream (cpu / 8)) o width 0 err).2 = some b →
          Gives (.controlCoreAccess cpu a off width v ecc err) s (fun t =>
            t = (s.memRead (cpuStream (cpu / 8)) o width 0 err).1.cpuOut cpu false (ofLe b) ∧ t.cores = s.cores ∧
            t.cpu cpu = { s.cpu cpu with bus := false, value := ofLe b })))) ∧
    (∀ p, placeOf off.toNat = p → p ≠ .unmapped →
      s.gatedAt p = true ∨ (∃ x, (p = .hbm x ∨ ∃ c, p = .spad c x) ∧ naturally off.toNat width = false) ∨ (∃ c x, p = .spad c x ∧ width < 4) →
      Gives (.controlCoreAccess cpu a off width v ecc err) s (fun t => t = { s with cpus := t.cpus } ∧
        t.cpu cpu = { s.cpu cpu with bus := true, value := 0 }))

/-! Device memory and die-to-die ports. -/

/-- HbmBandSet of a band that holds nothing of the image completes by beginning a change to the other mode (R183), which ends, once no
request of the band is inside a stack, with the band's mode changed and its bytes zero on every stack, and the rest of memory as it was.
MSC_CLEAN, MSC_FLUSH, MSC_DROP and MSC_UNKEEP start their operation on an idle slice with a legal range, or leave their result code
(R198); when the operation has passed every set, the lines of its range are clean, gone or unmarked, and RESULT stays (log 75). A slice
serves the first request of its queue whose band is not changing and whose line no earlier request waits for: a read of a stream that hits
answers it with the line's data (R193, R197), and one that misses goes to the stack, admitted when its bank has room, or held (R200,
R201). A freed slot admits a held request in turn (R201), and the completion of an admitted one serves it and answers its stream (R203,
R206). A refresh closes the rows (R202), and a scrub moves to the next sector (R208). A scratchpad word with a single error is counted,
and one with a double error is lost and marks SPAD_ERR (R187). A stack's temperature sets its throttle level (R210). -/
def Obligations.MemoryServesAndIsMaintained : Prop :=
  ((∀ (q : OdReq) (v : BitVec 16) (s : State), s.admits q 0x0501 (leBytes 2 v.toNat) → v.toNat % 64 ≤ 35 → nfld v.toNat 14 6 = 0 →
      s.schedBusy = false → s.bandInUse (v.toNat % 64) = false → s.bandBusy (v.toNat % 64) = false →
      Acts (.hbmBandSet q v) q s (fun u => u.sched = s.sched ∧ u.cores = s.cores ∧ u.mem.bandMap = s.mem.bandMap ∧
        u.mem.bandChg = if s.homed (v.toNat % 64) = v.toNat.testBit 15 then s.mem.bandChg
          else s.mem.bandChg ++ [(v.toNat % 64, v.toNat.testBit 15)])) ∧
    (∀ (b : Fin 36) (h : Bool) (s : State), s.mem.bandChg = [(b.val, h)] → s.clock.lost = false →
      (∀ r, r < 24 → ∀ x ∈ (s.region r).adm, x.band ≠ b.val) →
      Gives (.bandChangeDone b) s (fun t => t = { s with mem := t.mem } ∧ t.mem.bandChg = [] ∧
        (∀ k, t.homed k = if k = b.val then h else s.homed k) ∧
        (∀ k, t.mem.hbm.get 0 k = if inBand b (k % 2 ^ 40) then 0 else s.mem.hbm.get 0 k) ∧
        ∀ r, (t.region r).adm = (s.region r).adm ∧ (t.region r).clken = (s.region r).clken)) ∧
    (∀ (r : Fin 24) (i : Instr) (op : Nat) (s : State),
      (i, op) ∈ [(.mscClean r, 1), (.mscFlush r, 2), (.mscDrop r, 3), (.mscUnkeep r, 4)] →
      (s.region r).clken.getLsbD 1 = true → s.clock.lost = false →
      Gives i s (fun t => OnlyRegion s t r ∧ t.region r =
        if (s.region r).op.isSome = true ∨ (op = 3 ∧ (s.sched.st = 3 ∨ s.sched.st = 5)) then { s.region r with result := 1 }
        else if fld (s.region r).baseHi 31 8 ≠ 0 ∨
            ((s.region r).len ≠ 0 ∧ hbmTop < (s.region r).base + 64 * (s.region r).len.toNat) then { s.region r with result := 2 }
        else { s.region r with op := some op, result := 0 })) ∧
    (∀ (r : Fin 24) (op : Nat) (s : State), (s.region r).op = some op → s.clock.lost = false →
      Gives (.mscOpDone r) s (fun t => (t.region r).op = none ∧ (t.region r).result = (s.region r).result ∧ (∀ d, d ≠ r.val → t.region d = s.region d) ∧
        t.cores = s.cores ∧ ∀ x ∈ (t.region r).sets, ∀ l ∈ x.2, s.inMscRange r l = true →
          (op = 1 → l.dirty = false) ∧ (op = 4 → l.keep = false) ∧ op ≠ 2 ∧ op ≠ 3))) ∧
  ((∀ (r : Fin 24) (x : MemReq) (s : State),
      (s.region r).q.find? (fun q => !s.bandBusy q.band && !heldLine (s.region r) q) = some x →
      (s.region r).clken.getLsbD 1 = true → s.clock.lost = false →
      let g := { s.region r with q := (s.region r).q.erase x }
      let u := s.updRegion r (fun _ => g)
      (s.servedHere r x = true → Gives (.mscRequest r .clean) s (fun t => t = u.serveReq r { x with policy := s.mem.eccPolicy } noErr)) ∧
      (∀ c i k l, x.owner = .stream c i k → x.op = .read → s.findLine r x.addr = some l → Gives (.mscRequest r .clean) s (fun t =>
        (t.region r).q = (s.region r).q.erase x ∧ t.core c = { s.core c with ste := { (s.core c).ste with
          resp := (s.core c).ste.resp ++ [{ slot := i, kind := k, data := l.data, status := 0 }] } } ∧
        t.mem.hbm = s.mem.hbm ∧ (∀ d, d ≠ r.val → t.region d = s.region d) ∧ ∀ d, d ≠ c → t.core d = s.core d)) ∧
      (s.servedHere r x = false → Gives (.mscRequest r .clean) s (fun t => OnlyRegion s t r ∧ t.region r =
        if s.canAdmit g.adm (s.reqStream x) x.addr && !s.behindHeld g.held (s.reqStream x) x.addr then { g with
          adm := g.adm ++ [{ x with policy := s.mem.eccPolicy }],
          banks := g.banks.upd {} (bankKey x.addr) (fun b => { b with lastAdm := s.reqStream x }) }
        else { g with held := g.held ++ [x] }))) ∧
    (∀ (r : Fin 24) (pc : Fin 32) (bank : Fin 48) (x : MemReq) (s : State), s.clock.lost = false →
      let key := pc.val * 48 + bank.val
      s.nextRobin ((s.region r).banks.get {} key).lastAdm (s.admissible (s.region r) key) = some x →
      Gives (.hbmAdmit r pc bank) s (fun t => OnlyRegion s t r ∧ t.region r = { s.region r with
        held := (s.region r).held.erase x, adm := (s.region r).adm ++ [{ x with policy := s.mem.eccPolicy }],
        banks := (s.region r).banks.upd {} key (fun b => { b with lastAdm := s.reqStream x }) })) ∧
    (∀ (r : Fin 24) (k : Nat) (e : HbmErr) (x : MemReq) (s : State), (s.region r).adm[k]? = some x → bankTurn (s.region r) x = true →
      (s.region r).clken.getLsbD 0 = true → s.clock.lost = false →
      let oldest := decide (((s.region r).adm.find? (fun y => bankKey y.addr = bankKey x.addr)) = some x)
      Gives (.hbmRequestComplete r k e) s (fun t => t = (s.updRegion r (fun g => { g with
        adm := g.adm.eraseIdx k,
        banks := g.banks.upd {} (bankKey x.addr) (fun b =>
          { b with row := some (rowOf x.addr), streak := if oldest then 0 else b.streak + 1 }) })).serveReq r x e) ∧
      (∀ c i kd, x.owner = .stream c i kd → x.op = .read → Gives (.hbmRequestComplete r k e) s (fun t =>
        (∀ d, d ≠ r.val → t.region d = s.region d) ∧ (∀ d, d ≠ c → t.core d = s.core d) ∧
        ∃ a : Resp, a.slot = i ∧ a.kind = kd ∧ (a.status = 0 ∨ a.status = 3 ∧ a.data = []) ∧ t.core c = { s.core c with
          ste := { (s.core c).ste with resp := (s.core c).ste.resp ++ [a] } }))) ∧
    (∀ (r : Fin 24) (s : State), s.clock.lost = false → Gives (.hbmRefresh r) s (fun t => OnlyRegion s t r ∧ t.region r = { s.region r with
        refreshes := (s.region r).refreshes + 1, banks := (s.region r).banks.mapV {} (fun _ b => { b with row := none }) })) ∧
    (∀ (r : Fin 24) (e : HbmErr) (s : State), (s.region r).clken.getLsbD 0 = true → s.clock.lost = false →
      Gives (.hbmScrub r e) s (fun t =>
        t = (s.stackRead r ((s.region r).scrubPos * 64) e).1.updRegion r (fun g => { g with scrubPos := (g.scrubPos + 1) % stackSectors }) ∧
        (t.region r).scrubPos = ((s.region r).scrubPos + 1) % stackSectors ∧ t.cores = s.cores ∧
        ∀ d, d ≠ r.val → t.region d = s.region d)) ∧
    (∀ (c : Fin 136) (w : Nat) (s : State), 8 * w < spadBytes → s.clkOn c 4 = true →
      Gives (.spadScrub c w .clean) s (fun t => t = s) ∧
      Gives (.spadScrub c w .single) s (fun t => t.core c = { s.core c with ceCnt := min ((s.core c).ceCnt + 1) 0xFFFF } ∧
        (∀ d, d ≠ c.val → t.core d = s.core d) ∧ t.mem.spadCe.get 0 (dieOf c) = s.mem.spadCe.get 0 (dieOf c) + 1) ∧
      Gives (.spadScrub c w .double) s (fun t => (t.core c).ue = true ∧ t.spadRead c (8 * w) 8 = List.replicate 8 0 ∧
        t.sched.st = (if s.sched.st = 3 then 5 else s.sched.st))) ∧
    (∀ (r : Fin 24) (m : Int) (s : State), s.busUp = true → (m < 110000 ∨ (0x80 + r.val) ∉ s.power.hot) →
      Gives (.stackTempSample r m) s (fun t => t = { s with mem := { s.mem with regions := t.mem.regions }, power := t.power } ∧
        t.region r = { s.region r with temp := m, throttle := throttleNext (s.region r).throttle m } ∧
        ∀ d, d ≠ r.val → t.region d = s.region d)))

/-- A trained adapter numbers from 0 (R13). A good flit of the SEQ expected is taken: it is delivered to the die that it names, or goes on
by its route (R12, R15); a good one of another SEQ is discarded (log 66); a bad one starts the discard and asks for replay of the flit
expected (R12, R13). A replay request resends from the flit it names; one that times out goes out again (R13); the eighth for one position
in succession fails the port (R14). -/
def Obligations.FlitsAreDeliveredInOrder : Prop :=
  (∀ (a : Fin 24) (s : State), s.clock.lost = false →
    Gives (.d2dTrained a) s (fun t => t = { s with adapters := t.adapters } ∧ t.adapter a = { up := true } ∧
      ∀ d, d ≠ a.val → t.adapter d = s.adapter d)) ∧
  (∀ (a : Fin 24) (s : State), (s.adapter a).up = true → s.clock.lost = false →
    let x := s.adapter a
    let u := s.updAdapter a (fun x => { x with rxExp := (x.rxExp + 1) % 64, discarding := false, reqCount := 0 })
    let asks := fun (t : State) =>
      let q := mkFlit (farDie a) (a / 4) 0 (x.txCount % 64) [0xFF, BitVec.ofNat 8 x.rxExp]
      t = { s with adapters := t.adapters, out := .flit a q :: s.out } ∧ (∀ d, d ≠ a.val → t.adapter d = s.adapter d) ∧
      t.adapter a = { x with
        discarding := true, reqCount := x.reqCount + 1, txCount := x.txCount + 1,
        replay := (x.replay ++ [q]).drop (x.replay.length + 1 - 64) }
    (∀ f : List Byte,
      (flitOk f = true → flSeq f = x.rxExp → isReplay f = false → Gives (.d2dFlitReceive a f) s (fun t => t = u.takeFlit a f ∧
        (flDst f = a / 4 → t = { s with adapters := t.adapters } ∧ (∀ d, d ≠ a.val → t.adapter d = s.adapter d) ∧
          t.adapter a = { x with rxExp := (x.rxExp + 1) % 64, discarding := false, reqCount := 0, delivered := f :: x.delivered }))) ∧
      (flitOk f = true → flSeq f = x.rxExp → isReplay f = true →
        Gives (.d2dFlitReceive a f) s (fun t => t = u.replayFrom a (leAt f 3 1 % 64))) ∧
      (flitOk f = true → flSeq f ≠ x.rxExp → Gives (.d2dFlitReceive a f) s (fun t => t = s)) ∧
      (flitOk f = false → x.discarding = true → Gives (.d2dFlitReceive a f) s (fun t => t = s)) ∧
      (flitOk f = false → x.discarding = false → x.reqCount < 7 → Gives (.d2dFlitReceive a f) s asks)) ∧
    (∀ n : Fin 64,
      let k := if x.askPos = some (x.flitPos n) then x.askCount + 1 else 1
      (k < 8 → Gives (.d2dReplayRequest a n) s (fun t => t = { s with adapters := t.adapters, out := t.out } ∧
        t.adapter a = { x with askPos := some (x.flitPos n), askCount := k } ∧ (∀ d, d ≠ a.val → t.adapter d = s.adapter d) ∧
        t.out = ((x.replay.dropWhile (fun f => decide (flSeq f ≠ n))).map (fun f => Out.flit a f)).reverse ++ s.out)) ∧
      (8 ≤ k → x.failed = false → Gives (.d2dReplayRequest a n) s (fun t => (t.adapter a).up = false ∧ (t.adapter (farEnd a)).up = false))) ∧
    (x.discarding = true → x.reqCount < 7 → Gives (.d2dReplayTimeout a) s asks))

/-! Links. -/

/-- A port that frames sends the next frame of a resend, counted by its group, the eighth in succession of which fails the port (R275,
R276), or a new frame with its FSEQ, the ACKSEQ of the last frame taken and its NAK, kept in the replay buffer, the first one after lane
training empty and with the frame word's reset values (R268, R273). A resend begins at a group boundary. A good frame with the next FSEQ
joins the group in hand; the fourth of an unencrypted port passes the group on and acknowledges it, and that of an encrypted one waits for
its tag (R277); a bad codeword fails the group and asks for a resend, what follows is discarded, and so is a frame seen before (R267,
R275; the last is the model's reading, log 81). No other port changes. -/
def Obligations.FramesAreSentAndTaken : Prop :=
  ∀ (p : Fin 40) (s : State), (s.port p).framing = true → s.clock.lost = false →
    let q := s.port p
    let q0 := q.startResend
    let others := fun (t : State) => ∀ d, d ≠ p.val → t.port d = s.port d
    (∀ f rest, q0.resend = f :: rest →
      let q1 := { q0.countResent f with resend := rest }
      (f.word.fseq % 4 = 0 ∧ 8 ≤ q1.resentOf f.word.fseq →
        Gives (.frameTransmit p) s (fun t => t = (s.updPort p (fun _ => q1)).portDown p 3)) ∧
      (¬ (f.word.fseq % 4 = 0 ∧ 8 ≤ q1.resentOf f.word.fseq) → Gives (.frameTransmit p) s (fun t =>
        t = { s with ports := t.ports, out := .frame p f :: s.out } ∧ t.port p = q1 ∧ others t))) ∧
    (q0.resend = [] → Gives (.frameTransmit p) s (fun t => t = (s.updPort p (fun _ => q0)).sendNew p)) ∧
    (q0.resend = [] → (∀ x ∈ q.txBulk, x.land = none) → Gives (.frameTransmit p) s (fun t => ∃ f : Frame,
      t = { s with ports := t.ports, out := .frame p f :: s.out } ∧ f.word.fseq = q.fseq ∧ f ∈ (t.port p).buf ∧
      (q.begun = true → f.word.ackseq = q.ack ∧ f.word.nak = q.nak) ∧
      (q.begun = false → f.word.ackseq = 0 ∧ f.word.nak = false ∧ f.word.slotc = List.replicate 20 0) ∧
      (t.port p).begun = true ∧ (t.port p).fseq = (q.fseq + 1) % 4096 ∧ others t)) ∧
    ∀ (f : Frame) (o : FrameObs),
      let n := badLanes o
      let q1 := { q with fecC := q.fecC + correctedLanes o, fecU := q.fecU + n }
      let only := fun (q' : PortSt) (t : State) => t = { s with ports := t.ports } ∧ t.port p = q' ∧ others t
      (n = 0 → f.word.fseq = q.rxNext → q.rxGroup.length < 3 → Gives (.frameReceive p f o) s (only { q1 with
        rxBad := false, nak := false, rxNext := (q.rxNext + 1) % 4096, rxGroup := q.rxGroup ++ [f] })) ∧
      (n = 0 → f.word.fseq = q.rxNext → q.rxGroup.length = 3 → q.enc = false → Gives (.frameReceive p f o) s (fun t =>
        t = { s with ports := t.ports } ∧ (t.port p).rxGroup = [] ∧ (t.port p).ack = f.word.fseq ∧ (t.port p).nak = false ∧
        (t.port p).rxNext = (q.rxNext + 1) % 4096 ∧ (t.port p).st = q.st ∧ others t)) ∧
      (n = 0 → f.word.fseq = q.rxNext → q.rxGroup.length = 3 → q.enc = true → q.rxHeld = [] → Gives (.frameReceive p f o) s (only { q1 with
        rxBad := false, nak := false, rxNext := (q.rxNext + 1) % 4096, rxGroup := [], rxHeld := q.rxGroup ++ [f] })) ∧
      (n = 0 → f.word.fseq = q.rxNext → Gives (.frameReceive p f o) s (fun t =>
        let r := q1.goodFrame f
        let s1 := s.updPort p (fun _ => r.1)
        t = if r.2 = true ∧ (q.st = 5 ∨ q.st = 6) then s1.portHold p 3 else s1)) ∧
      (n ≠ 0 ∨ f.word.fseq ≠ q.rxNext → Gives (.frameReceive p f o) s (only
        (if q.rxBad = true ∨ (n = 0 ∧ q.seenFrame f = true) then q1
         else { q1 with rxGroup := [], rxHeld := [], rxBad := true, nak := true, rxNext := (q.ack + 1) % 4096 / 4 * 4 })))

/-- A KEEPALIVE goes out with the TSC, and one that arrives is recorded with its own and the local TSC, which aligns the TSC of a follower
(R278, R404, R405); a malformed one leaves the ingress buffer and has no effect. A framing port without one for 2 µs, or with two working
lanes without signal, goes DOWN (R278). A DOWN port trains again after WaltzRetryInterval when it may (R279). Lane training ends in HELLO
with a fresh nonce, in the spare lane's place when one lane failed, and in DOWN when two did (R282); a step of the Waltz that exceeds its
bound ends in HELD with TIMEOUT, and lane training in DOWN (R280). A message counts as the event only with its own TYPE (log 42).
PortControl: DISABLE takes a port to DISABLED; ENABLE of a DISABLED port and RETRAIN of a DOWN, HELD or UP one begin lane training where
ports may train (R289). A new ExpectedPeer is kept, and checked at once on an UP port, which leaves for HELD with NEIGHBOUR when it fails,
while a port in CHECK or held with NEIGHBOUR or NOMAP runs step 6 again (R287, R289). SliceSet takes a block that holds the module and
fits the system (R300), and SliceStop stops the image and floods STOP (R309). -/
def Obligations.PortsAndSlices : Prop :=
  (∀ (p : Fin 40) (s : State), s.clock.lost = false →
      let q := s.port p
      let others := fun (t : State) => ∀ d, d ≠ p.val → t.port d = s.port d
      let down := fun (t : State) => (t.port p).st = 1 ∧ (t.port p).downTick = s.tsc ∧ (q.st ≠ 8 → others t)
      (q.framing = true →
        Gives (.keepaliveSend p) s (fun t => t = { s with ports := t.ports } ∧ others t ∧ t.port p = { q with
          mseqTx := q.mseqTx + 1, txLink := q.txLink ++
            [{ code := 5, slots := slotsOf (linkBytes (if q.ver = 0 then 1 else q.ver) 1 q.mseqTx (leBytes 8 s.tsc)), entry := false }] })) ∧
      (∀ m : LinkMsg, q.framing = true → m.typ = 1 →
        (linkShape m = false ∨ m.body.length ≠ 8 → Gives (.keepalive p m) s (fun t => t = s.linkTaken p m)) ∧
        (linkShape m = true → m.body.length = 8 →
          let u := (s.linkTaken p m).updPort p (fun q => { q with lastKa := s.tsc, kaRemote := ofLe m.body, kaLocal := s.tsc })
          (s.align.mode = 2 ∧ s.align.parent = p.val → Gives (.keepalive p m) s (fun t =>
            t = u.alignBy (tscErr (ofLe m.body) q.linkDelay s.tsc))) ∧
          (¬ (s.align.mode = 2 ∧ s.align.parent = p.val) → Gives (.keepalive p m) s (fun t => t = u ∧ t = { s with ports := t.ports } ∧
            others t ∧ (t.port p).st = q.st ∧ (t.port p).lastKa = s.tsc ∧ (t.port p).kaRemote = ofLe m.body ∧ (t.port p).kaLocal = s.tsc)))) ∧
      (q.framing = true → q.lastKa + 800 ≤ s.tsc → Gives (.keepaliveTimeout p) s (fun t => t = s.portDown p 2 ∧ down t)) ∧
      (∀ l : BitVec 9, q.framing = true → 2 ≤ ((List.range 9).filter (fun i => l.getLsbD i && q.laneUsed i)).length →
        Gives (.laneSignalLoss p l) s (fun t => t = s.portDown p 1 ∧ down t)) ∧
      (q.st = 1 → q.downTick + s.fab.waltzRetry * 400 ≤ s.tsc → Gives (.waltzRetry p) s (fun t => others t ∧
        if s.mayTrain p then t = s.startTrain p ∧ (t.port p).st = 2 ∧ (t.port p).stepStart = s.tsc ∧ t.out = .train p :: s.out
        else t = { s with ports := t.ports } ∧ t.port p = { q with downTick := s.tsc })) ∧
      (∀ (r : BitVec 3) (f : BitVec 9) (n : Nat), q.st = 2 →
        (2 ≤ popcount f.toNat 9 → Gives (.laneTrainingDone p r f n) s (fun t =>
          t = (s.portDown p 1).post 0x0803 2 (srcPort p) [p.val, f.toNat] ∧ down t)) ∧
        (popcount f.toNat 9 < 2 → topRate r = 0 → Gives (.laneTrainingDone p r f n) s (fun t => t = s.portDown p 1 ∧ down t)) ∧
        (popcount f.toNat 9 < 2 → topRate r ≠ 0 → (portHub p) ∈ s.sec.entropyBad → Gives (.laneTrainingDone p r f n) s (fun t =>
          others t ∧ (t.port p).st = 7 ∧ (t.port p).hold = 3)) ∧
        (popcount f.toNat 9 < 2 → topRate r ≠ 0 → (portHub p) ∉ s.sec.entropyBad → Gives (.laneTrainingDone p r f n) s (fun t =>
          t = { s with ports := t.ports, rndCtr := s.rndCtr + 1 } ∧ others t ∧ (t.port p).st = 3 ∧ (t.port p).rate = topRate r ∧
          (t.port p).linkDelay = n ∧ (t.port p).nonce = Config.random32 s.rndCtr ∧
          (t.port p).sent = q.sent ++ [(2, Config.random32 s.rndCtr ++ [1, 3])] ∧
          (t.port p).laneMap = (match (List.range 8).find? (fun l => f.getLsbD l) with | some l => 16 + l | none => 0)))) ∧
      (q.st = 2 → q.stepStart + 16000000 ≤ s.tsc → Gives (.waltzStepTimeout p) s (fun t => t = s.portDown p 1 ∧ down t)) ∧
      (3 ≤ q.st ∧ q.st ≤ 6 → q.stepStart + (if q.st = 3 then 5 else if q.st = 6 then 1 else 2) * 400000 ≤ s.tsc →
        Gives (.waltzStepTimeout p) s (fun t => t = s.portHold p 9 ∧ others t ∧ (t.port p).st = 7 ∧ (t.port p).hold = 9))) ∧
  (∀ (q : OdReq) (p : Fin 40) (s : State),
      let others := fun (u : State) => ∀ d, d ≠ p.val → u.port d = s.port d
      let begun := fun (u : State) => (u.port p).st = 2 ∧ (u.port p).stepStart = s.tsc
      (s.admits q 0x0812 [2] → Acts (.portDisable q p) q s (fun u => u = (s.taken 0x0812 (p.val + 1) [2]).portDisable p ∧
        (u.port p).st = 0 ∧ ((s.port p).st ≠ 8 → others u))) ∧
      (s.admits q 0x0812 [1] → s.mayTrain p = true → (s.port p).st = 0 → Acts (.portEnable q p) q s (fun u => others u ∧
        begun u ∧ u.out = .train p :: s.out)) ∧
      (s.admits q 0x0812 [3] → s.mayTrain p = true → (s.port p).st = 1 → Acts (.portRetrain q p) q s (fun u => others u ∧
        begun u ∧ u.out = .train p :: s.out)) ∧
      (s.admits q 0x0812 [3] → s.mayTrain p = true → (s.port p).st = 7 ∨ (s.port p).st = 8 → Acts (.portRetrain q p) q s (fun u =>
        u = ((s.taken 0x0812 (p.val + 1) [3]).portDown p 4).startTrain p ∧ begun u ∧ ((s.port p).st = 7 → others u))) ∧
      (∀ v : Word, s.admits q 0x0813 (leBytes 4 v.toNat) → expPeerBad v = false →
        let s1 := s.updPort p (fun k => { k with expPeer := v })
        let n := { s.port p with expPeer := v }
        let again := n.st = 6 ∨ (n.st = 7 ∧ (n.hold = 6 ∨ n.hold = 7))
        (again → Acts (.expectedPeerWrite q p (.peer v)) q s (fun u => u = s1.stepSix p)) ∧
        (¬ again → (n.st = 8 → n.neighbourCheck = 0) → Acts (.expectedPeerWrite q p (.peer v)) q s (fun u =>
          u = s1.lifeRefresh ∧ others u ∧ u.port p = n)) ∧
        (n.st = 8 → n.neighbourCheck ≠ 0 → Acts (.expectedPeerWrite q p (.peer v)) q s (fun u => u = s1.portHold p 6 ∧
          (u.port p).expPeer = v ∧ (u.port p).st = 7 ∧ (u.port p).hold = 6))) ∧
      (∀ b : List Byte, s.admits q 0x0814 b → b.length = 32 →
        let s1 := s.updPort p (fun k => { k with expKey := b })
        let n : PortSt := { s.port p with expKey := b }
        Acts (.expectedPeerWrite q p (.key b)) q s (fun u => u = if (n.st = 7 ∧ (n.hold = 6 ∨ n.hold = 7)) ∨ n.st = 6 then s1.stepSix p
          else if n.st = 8 ∧ n.neighbourCheck ≠ 0 then s1.portHold p 6 else s1.lifeRefresh)) ∧
      (∀ v : BitVec 64, s.admits q 0x0902 (leBytes 8 v.toNat) → s.schedBusy = false → (actSliceSet s v).inv = false →
        Acts (.sliceSet q v) q s (fun u => u.fab = { s.fab with sliceW := v } ∧ u.ports = s.ports ∧ u.sched = s.sched)) ∧
      (∀ v : BitVec 8, s.admits q 0x0906 (leBytes 1 v.toNat) → Acts (.sliceStop q v) q s (fun u =>
        u.sched.st = (if s.sched.st = 3 then 5 else s.sched.st) ∧ u.fab.cseq = (s.fab.cseq + 1) % 2 ^ 32 ∧
        u.fab.flood = ((s.devNum, s.fab.cseq) :: s.fab.flood).take 256)))

/-- A Waltz message in its step is kept and moves the Waltz on (R282): HELLO is answered by a report over its nonce; a report that holds
takes the port to step 4 with a fresh KEMEK, one that fails holds it with ATTEST, and one of firmware not in the accept list with
FIRMWARE; KEMEK is answered by a ciphertext, and KEMCT begins encryption and sends the capability block; a block that fails holds with
CAPS, and one that holds runs the neighbour check of step 6, from which the chosen version stands in every message (R281). One out of its
step, malformed or repeated holds with CAPS (R281, R286). The peer's verdict in step 6 brings the port UP or holds it with PEERHELD
(R283), a reserved code of it with CAPS; an accept to a port held with PEERHELD runs step 6 again (R287). A reserved type in the Waltz
holds with CAPS. A message counts as the event only with its own TYPE (log 42). -/
def Obligations.TheWaltzSteps : Prop :=
  ∀ (p : Fin 40) (m : LinkMsg) (s : State), s.clock.lost = false →
    let q := s.port p
    let others := fun (t : State) => ∀ d, d ≠ p.val → t.port d = s.port d
    let held := fun (r : Nat) (t : State) => others t ∧ (t.port p).st = 7 ∧ (t.port p).hold = r
    let takes := fun (typ step len : Nat) => q.st = step ∧ linkShape m = true ∧ m.body.length = len ∧ bodyOf q.rcvd typ = none
    let kept := fun (typ : Nat) (t : State) => others t ∧ (t.port p).rcvd = q.rcvd ++ [(typ, m.body)]
    (∀ (i : Instr) (typ step len : Nat),
      (i, typ, step, len) ∈ [(.hello p m, 2, 3, 34), (.attest p m, 3, 3, 9216), (.kemek p m, 4, 4, 1184), (.kemct p m, 5, 4, 1088),
        (.caps p m, 6, 5, 3584)] → m.typ = typ → 3 ≤ q.st → q.st ≤ 6 → ¬ takes typ step len → Gives i s (held 4)) ∧
    (m.typ = 2 → takes 2 3 34 → Gives (.hello p m) s (fun t => t = { s with ports := t.ports } ∧ kept 2 t ∧ (t.port p).st = 3 ∧
      (t.port p).peerMin = leAt m.body 32 1 ∧ (t.port p).peerMax = leAt m.body 33 1 ∧
      (t.port p).sent = q.sent ++ [(3, s.reportOver (m.body.take 32))])) ∧
    (m.typ = 3 → takes 3 3 9216 → (portHub p) ∉ s.sec.entropyBad → Gives (.attest p m) s (fun t =>
      kept 3 t ∧ (t.port p).seenFw = rpFw m.body ∧
      (s.reportOk q.nonce m.body = false → held 1 t) ∧
      (s.reportOk q.nonce m.body = true → s.fab.fwAccept ≠ [] → rpFw m.body ∉ s.fab.fwAccept → held 2 t) ∧
      (s.reportOk q.nonce m.body = true → s.fab.fwAccept = [] ∨ rpFw m.body ∈ s.fab.fwAccept → (t.port p).st = 4 ∧
        (t.port p).ekSeed = Config.random32 s.rndCtr ∧ (t.port p).sent = q.sent ++ [(4, Config.kemPublic (Config.random32 s.rndCtr))]))) ∧
    (m.typ = 4 → takes 4 4 1184 → (portHub p) ∉ s.sec.entropyBad → Gives (.kemek p m) s (fun t =>
      t = { s with ports := t.ports, rndCtr := s.rndCtr + 1 } ∧ kept 4 t ∧ (t.port p).st = 4 ∧
      (t.port p).secretOut = Config.kemShared m.body (Config.random32 s.rndCtr) ∧
      (t.port p).sent = q.sent ++ [(5, Config.kemCipher m.body (Config.random32 s.rndCtr))])) ∧
    (m.typ = 5 → takes 5 4 1088 → q.secretOut ≠ [] → Gives (.kemct p m) s (fun t => t = { s with ports := t.ports } ∧ kept 5 t ∧
      (t.port p).st = 5 ∧ (t.port p).enc = true ∧ (t.port p).txCtr = 0 ∧ (t.port p).rxCtr = 0 ∧ (t.port p).ekSeed = [] ∧
      (t.port p).secretOut = [] ∧ ∃ b, (t.port p).sent = q.sent ++ [(6, b)])) ∧
    (m.typ = 6 → takes 6 5 3584 → Gives (.caps p m) s (fun t => kept 6 t ∧
      let q1 := { q with rcvd := q.rcvd ++ [(6, m.body)] }
      let v := ({ q1 with seenPeer := seenOf m.body } : PortSt).neighbourCheck
      let bad := min 3 q.peerMax < max 1 q.peerMin ∨ q.rate ≠ min 3 q.peerMax
      (q1.capsOk m.body = false → held 4 t) ∧
      (q1.capsOk m.body = true → (t.port p).peerFlags = cbFlags m.body ∧ (t.port p).seenPeer = seenOf m.body) ∧
      (q1.capsOk m.body = true → bad → held 5 t) ∧
      (q1.capsOk m.body = true → ¬ bad → (t.port p).ver = min 3 q.peerMax ∧ (t.port p).sent = q.sent ++ [(7, [BitVec.ofNat 8 v])] ∧
        (v ≠ 0 → held v t) ∧ (v = 0 → q.peerVerdict = none → (t.port p).st = 6) ∧
        (v = 0 → q.peerVerdict = some 0 → (t.port p).st = 8) ∧
        (∀ r, v = 0 → q.peerVerdict = some r → r ≠ 0 → held 8 t)))) ∧
    (m.typ = 7 →
      let c := leAt m.body 0 1
      (3 ≤ q.st ∧ q.st ≤ 5 → Gives (.verdict p m) s (held 4)) ∧
      (q.st = 6 → linkShape m = false ∨ m.body.length ≠ 1 ∨ 10 ≤ c → Gives (.verdict p m) s (held 4)) ∧
      (q.st = 6 → linkShape m = true → m.body.length = 1 → c < 10 → Gives (.verdict p m) s (fun t => others t ∧
        (t.port p).peerVerdict = some c ∧ (c = 0 → (t.port p).st = 8 ∧ (t.port p).ver = min 3 q.peerMax) ∧ (c ≠ 0 → held 8 t))) ∧
      (q.st = 7 → q.hold = 8 → linkShape m = true → m.body.length = 1 → c = 0 → Gives (.verdict p m) s (fun t =>
        t = ((s.linkTaken p m).updPort p (fun q => { q with peerVerdict := some 0 })).stepSix p))) ∧
    (m.typ = 0 ∨ 7 < m.typ → q.framing = true → Gives (.linkmsgReserved p m) s (fun t =>
      (3 ≤ q.st ∧ q.st ≤ 6 → held 4 t) ∧ (7 ≤ q.st → t = s.linkTaken p m)))

/-! The fabric, collectives, training. -/

/-- A packet that passes its port's checks leaves the ingress buffer (R272, R302, R305). For another module of the block it goes on by the
next port (R296, R297), a COLL packet in the form of the port's version (R322; the INT8 wire is known by the TAG, log 78). For this module
it is put to the placement epoch, and a request of an earlier one is answered with STALE (R174, R295); a request in whole sectors of
device memory becomes requests of its slices, and any other is answered at once (R294, R295); a response ends the request of its TXN, and
one that no request awaits is discarded (R294). A Reel packet lands at its landing, or is held for want of one or behind one that is held
(R223, R254, R255); a collective packet for an idle sequencer is held (R321). An open merged packet closes on its timer (R294). A flooded
packet that is not known acts on the module, is noted and goes on when it came by the torus, and a known one does neither (R306, R308);
one of fabric-manager control acts only with a sequence number in its window (R457). STOP stops the running image (R309); FENCE LOSS adds
its device to the lost ones and takes a module that holds a generation to FENCED, with the decision pending from that tick (R367); FENCE
SEAL of the generation folded applies it, and one of a module that has nothing to seal is counted (R362, R369); RECOVER RESUME brings a
FENCED module back to SEALED at its generation (R375). -/
def Obligations.PacketsAndFloods : Prop :=
  ((∀ (p : Fin 40) (pk q : Packet) (s v : State), s.arrives p pk q v →
      let u := v.freePackets pk.code [(p.val, pk)]
      let age := (q.epoch + 65536 - s.sched.placeEpoch) % 65536
      let now := q.epchk = false ∨ q.epoch = s.sched.placeEpoch
      let old := q.epchk = true ∧ 32768 ≤ age
      (q.dstdev ≠ s.devNum → ∀ (i : Instr) (ty : Nat) (ecc : List (Nat × Ecc)),
        (i, ty) ∈ [(.pktRead p ⟨pk, ecc⟩, 0x10), (.pktWrite p pk, 0x11), (.pktAdd p pk, 0x12), (.pktData p pk, 0x20), (.pktAck p pk, 0x21),
          (.pktErr p pk, 0x22), (.pktColl p pk, 0x31), (.pktObjreq p pk, 4), (.pktObjrsp p pk, 5)] → pk.ptype = ty →
        Gives i s (fun t => t = u.forwardPkt p q) ∧
        ∀ d out, u.inBlock q.dstdev = true → u.nextDir q.dstdev = some d → u.pickPort d (pktCode ty) (some (p.val % 6)) = some out →
          q.epchk = false → ty ≠ 0x31 ∨ 3 ≤ (s.port out).ver →
          Gives i s (fun t => t = u.queueAt out q (decide (d ≠ (if p.val / 6 % 2 = 0 then p.val / 6 + 1 else p.val / 6 - 1))))) ∧
      (q.dstdev = s.devNum → q.ptype = pk.ptype →
        (old → ∀ (i : Instr) (ty : Nat) (ecc : List (Nat × Ecc)), (i, ty) ∈ [(.pktRead p ⟨pk, ecc⟩, 0x10), (.pktWrite p pk, 0x11), (.pktAdd p pk, 0x12)] →
          pk.ptype = ty → Gives i s (fun t => t = u.staleSeen.reply q 0x22 5 [])) ∧
        (old → ∀ (i : Instr) (ty : Nat), (i, ty) ∈ [(.pktData p pk, 0x20), (.pktAck p pk, 0x21), (.pktErr p pk, 0x22), (.pktObjreq p pk, 4),
          (.pktObjrsp p pk, 5)] → pk.ptype = ty → Gives i s (fun t => t = u.staleSeen)) ∧
        (pk.ptype = 0x10 → now → ∀ ecc, Gives (.pktRead p ⟨pk, ecc⟩) s (fun t =>
          let r := u.localRead (remoteStream q.srcdev q.stream) q.addr (64 * q.arg) q.hint ecc
          t = if inSectors q.addr (64 * q.arg) then u.jobStart q (List.replicate q.arg .read)
            else if r.2.2 = 0 then r.1.reply q 0x20 0 r.2.1 else r.1.reply q 0x22 r.2.2 [])) ∧
        (pk.ptype = 0x11 → now → Gives (.pktWrite p pk) s (fun t =>
          let r := u.localWrite (remoteStream q.srcdev q.stream) q.addr q.payload q.hint
          t = if inSectors q.addr q.payload.length then u.jobStart q ((chunks 64 64 q.payload).map .write)
            else if r.2 = 0 then r.1.reply q 0x21 (q.payload.length / 64) [] else r.1.reply q 0x22 r.2 [])) ∧
        (pk.ptype = 0x12 → now → Gives (.pktAdd p pk) s (fun t =>
          t = if q.addr % 64 ≠ 0 ∨ hbmTop < q.addr + 8 then u.reply q 0x22 4 [] else u.jobStart q [.add q.arg])) ∧
        (now → ∀ (x : Txn) (c slot : Nat) (kinds : List ReqKind), s.fab.txns.get none q.txn = some x → x.owner = .stream c slot kinds →
          let gets := fun (data : List (List Byte)) (st : Nat) (t : State) => t.fab.txns.get none q.txn = none ∧
            t.mem = s.mem ∧ (∀ d, d ≠ c → t.core d = s.core d) ∧
            t.core c = { s.core c with ste := { (s.core c).ste with resp := (s.core c).ste.resp ++
              (kinds.zip ((List.range kinds.length).map (fun i => data.getD i []))).map (fun k => ⟨slot, k.1, k.2, st⟩) } }
          (pk.ptype = 0x20 → q.payload.length = 64 * kinds.length → Gives (.pktData p pk) s (gets (chunks 64 64 q.payload) 0)) ∧
          (pk.ptype = 0x21 → Gives (.pktAck p pk) s (gets [] 0)) ∧
          (pk.ptype = 0x22 → Gives (.pktErr p pk) s (gets [] q.arg))) ∧
        (now → s.fab.txns.get none q.txn = none → (pk.ptype = 0x20 → Gives (.pktData p pk) s (fun t => t = u)) ∧
          (pk.ptype = 0x21 → Gives (.pktAck p pk) s (fun t => t = u)) ∧ (pk.ptype = 0x22 → Gives (.pktErr p pk) s (fun t => t = u))) ∧
        (pk.ptype = 0x05 → now → Gives (.pktObjrsp p pk) s (fun t => t = u)) ∧
        (pk.ptype = 0x04 → now → q.fm = false → s.life = 0 → Gives (.pktObjreq p pk) s (fun t => t = u.reply q 0x22 7 [])) ∧
        (pk.ptype = 0x04 → now → q.fm = false → s.odAnswers = true → 4 ≤ q.payload.length → beAt q.payload 2 1 = 0 →
          beAt q.payload 3 1 = 0x10 → reqShape false (q.payload.drop 4) = true →
          Gives (.pktObjreq p pk) s (fun t => t = u.reply q 5 0
            (q.payload.take 4 ++ u.serveGet { role := .observer, cpu := none } (q.payload.drop 4)))) ∧
        (pk.ptype = 0x31 → now → Gives (.pktColl p pk) s (fun t => t = v.collArrive p q)) ∧
        (pk.ptype = 0x31 → old → Gives (.pktColl p pk) s (fun t => t = v.staleSeen.freePackets 4 [(p.val, q)])) ∧
        (pk.ptype = 0x31 → now → (s.hub (portHub p)).coll.st ≠ 2 → Gives (.pktColl p pk) s (fun t =>
          t = { v with hubs := t.hubs } ∧ t.hub (portHub p) = { s.hub (portHub p) with coll := { (s.hub (portHub p)).coll with
            held := (s.hub (portHub p)).coll.held ++ [(p.val, q)], heldCount := (s.hub (portHub p)).coll.heldCount + 1 } } ∧
          ∀ d, d ≠ portHub p → t.hub d = s.hub d)))) ∧
    (∀ (p : Fin 40) (pk : Packet) (s : State), s.arrives p pk pk s → pk.ptype = 0x30 →
      let dir := p.val / 6
      let held := fun (n : Nat) => { s with fab := { s.fab with
        reelHeld := s.fab.reelHeld ++ [(p.val, pk, s.tsc)], reelHeldCount := s.fab.reelHeldCount.upd 0 dir (fun x => x + n) } }
      (32768 ≤ (pk.epoch + 65536 - s.sched.placeEpoch) % 65536 →
        Gives (.pktReel p pk) s (fun t => t = s.staleSeen.freePackets 4 [(p.val, pk)])) ∧
      (pk.epoch = s.sched.placeEpoch → s.landingFor dir pk.tag = none → s.fab.reelOff = false →
        Gives (.pktReel p pk) s (fun t => t = held 1)) ∧
      (pk.epoch = s.sched.placeEpoch → s.landingFor dir pk.tag = none → s.fab.reelOff = true →
        Gives (.pktReel p pk) s (fun t => t = s.freePackets 4 [(p.val, pk)])) ∧
      (∀ l, pk.epoch = s.sched.placeEpoch → s.landingFor dir pk.tag = some l →
        (s.reelBehind dir pk.tag = true → Gives (.pktReel p pk) s (fun t => t = held 0)) ∧
        (s.reelBehind dir pk.tag = false → l.len < pk.addr + pk.payload.length →
          Gives (.pktReel p pk) s (fun t => t = s.freePackets 4 [(p.val, pk)])) ∧
        (s.reelBehind dir pk.tag = false → pk.addr + pk.payload.length ≤ l.len →
          Gives (.pktReel p pk) s (fun t => t = (s.reelLand p l pk).freePackets 4 [(p.val, pk)])))) ∧
    (∀ (n : Nat) (o : OpenPk) (s : State), s.fab.opens.get none n = some o → s.clock.lost = false → Gives (.packetCloseTimer n) s (fun t =>
      t.fab.opens.get none n = none ∧ t.fab.nextTxn = (s.fab.nextTxn + 1) % 65536 ∧
      t = ({ s with fab := { s.fab with opens := s.fab.opens.set none n none } }).sendOpen o))) ∧
  (∀ (p : Fin 40) (pk q : Packet) (s v : State), s.arrives p pk q v → q.ptype = pk.ptype →
      let u := v.freePackets 1 [(p.val, pk)]
      let known := (q.srcdev, q.arg) ∈ s.fab.flood
      let g := leAt q.payload 8 8
      let d := leAt q.payload 4 4
      let acts := fun (i : Instr) (act : State → State) (P : State → Prop) =>
        (known → Gives i s (fun t => t = u)) ∧
        (¬ known → q.fm = true → s.fab.fmWin.ok (fmSeq q) = false → Gives i s (fun t => t = u.fmFail)) ∧
        (¬ known → q.fm = false ∨ s.fab.fmWin.ok (fmSeq q) = true → Gives i s (fun t =>
          let w := if q.fm then { u with fab := { u.fab with fmWin := u.fab.fmWin.take (fmSeq q) } } else u
          let x := act (w.floodNote q.srcdev q.arg)
          t = (if p.val < 36 then x.floodCopies q (some (p.val / 6)) else x) ∧
          t.fab.flood = ((q.srcdev, q.arg) :: s.fab.flood).take 256 ∧ P t))
      (pk.ptype = 1 → acts (.pktStop p pk) (fun s => s.stopImage 4) (fun t =>
        t.sched.st = (if s.sched.st = 3 then 5 else s.sched.st))) ∧
      (pk.ptype = 2 → fencePlOk q = true → fenceKind q = 1 → acts (.fenceLoss p pk) (fun s => s.fenceLoss d) (fun t =>
        t.sched.st = (if s.sched.st = 3 then 5 else s.sched.st) ∧
        t.husk.lost = (if d ∈ s.husk.lost ∨ 64 ≤ s.husk.lost.length then s.husk.lost else s.husk.lost ++ [d]) ∧
        (3 ≤ s.husk.st → s.husk.st ≤ 8 → s.husk.fenced = false → t.husk.st = 9 ∧ t.husk.fencedFrom = s.husk.st ∧ t.husk.decision = 3 ∧
          t.husk.settleAt = some s.tsc ∧ t.husk.fenced = true))) ∧
      (pk.ptype = 2 → fencePlOk q = true → fenceKind q = 2 → s.husk.flushing = false → s.husk.flushed = false → s.devNum ∉ s.husk.lost →
        acts (.fenceSeal p pk) (fun s => s.sealAct g) (fun t =>
          (s.husk.st = 7 → g = s.husk.openGen → t.husk.st = 8 ∧ t.husk.gen = g) ∧
          (s.husk.st = 3 → t.husk = { s.husk with staleSeals := s.husk.staleSeals + 1 }))) ∧
      (pk.ptype = 3 → fencePlOk q = true → acts (.recoverResume p pk) (fun s => s.resumeAct (leAt q.payload 0 2) g) (fun t =>
        (s.husk.st = 9 ∨ s.husk.st = 1 → t.husk = { s.husk with
          gen := g, lost := [], decision := 0, st := 3, fenced := false, settleAt := none, sealSeen := false }) ∧
        (s.husk.st ≠ 9 → s.husk.st ≠ 1 → t.husk = s.husk))))

/-- COLL_LOAD checks the table and keeps it when it passes (R311). A descriptor runs once its start gate reaches STARTT, which is
consumed, and waits otherwise; when all it wrote is visible, the next of the entry follows, or the sequencer is DONE (R312). A gate whose
slice waits is tested later, and one whose add waits is added to by its slice (log 22). OptPrepare of the next step writes the coefficient
records, and names the first group that fails; its end adds 1 to the gate (R339). OptCommit of the prepared step takes it, and
TrainStepSet any step outside a run (R340, R341). -/
def Obligations.CollectivesAndSteps : Prop :=
  (∀ (h : Fin 2) (v : Word) (s : State), (s.hub h).clken.getLsbD 2 = true → s.clock.lost = false →
    let k := (s.hub h).coll
    let base := k.tbaseLo.toNat + fld k.tbaseHi 7 0 * 2 ^ 32
    let n := fld k.tcount 8 0
    let r := s.collCheck h
    (bit v 0 = false → Gives (.collLoad h v) s (fun t => t = s)) ∧
    (bit v 0 = true → Gives (.collLoad h v) s (fun t =>
      t = { (if r = 1 ∨ r = 5 then s else s.devTouch base (128 * n)) with hubs := t.hubs } ∧ (∀ d, d ≠ h.val → t.hub d = s.hub d) ∧
      t.hub h = { s.hub h with coll := { k with result := r, err := 0, table := if r = 0 then s.entriesAt base n else k.table } }))) ∧
  (∀ (h : Fin 2) (b : List Byte) (s : State), (s.hub h).coll.st = 1 → s.sched.st = 3 → (s.hub h).clken.getLsbD 2 = true →
    s.clock.lost = false →
    let d := s.collDesc h
    let r := s.devRead (cStartG d) 8
    (s.sliceWaits deviceStream (cStartG d) = true → Gives (.collStartGate h) s (fun t => t = s)) ∧
    (s.sliceWaits deviceStream (cStartG d) = false → r.2 = some b →
      (ofLe b < cStartT d → Gives (.collStartGate h) s (fun t => t = r.1)) ∧
      (cStartT d ≤ ofLe b →
        let w := r.1.devWrite (cStartG d) (leBytes 8 (ofLe b - cStartT d))
        let u := (if cOp d = 5 then w.devTouch (cSrc d) (32 * cCount d) else w).updColl h (fun k =>
          { k with st := 2, prog := s.collProg d, queue := k.queue.drop 1 })
        Gives (.collStartGate h) s (fun t => t = u.collGo h ∧ ((s.hub h).clken.getLsbD 0 = false → t = u))))) ∧
  (∀ (h : Fin 2) (s : State), (s.hub h).coll.st = 2 → (s.hub h).coll.prog = [] → (s.hub h).coll.acks = 0 → s.sched.st = 3 →
    s.clock.lost = false → (cDoneAdd (s.collDesc h) = 0 ∨ (s.devRead (cDoneG (s.collDesc h)) 8).2 ≠ none) →
    Gives (.collDescriptorDone h) s (fun t => (t.hub h).coll = collNext (s.hub h).coll ∧ t.cores = s.cores ∧ t.sched = s.sched ∧
      t.mem = (if cDoneAdd (s.collDesc h) = 0 then s.mem else (s.gateAdd (cDoneG (s.collDesc h)) (cDoneAdd (s.collDesc h))).mem) ∧
      ((s.hub h).coll.queue = [] → (t.hub h).coll.st = 3) ∧
      ∀ i r, (s.hub h).coll.queue = i :: r → (t.hub h).coll.st = 1 ∧ (t.hub h).coll.index = i)) ∧
  ∀ (q : OdReq) (n : BitVec 64) (s : State), s.opt.running = none →
    (s.admits q 0x0B05 (leBytes 8 n.toNat) → n.toNat = (s.opt.step + 1) % 2 ^ 64 → s.sched.st ≠ 0 → s.sched.st ≠ 1 → s.sched.st ≠ 5 →
      ((∀ i, i < s.opt.count → s.groupFails n.toNat i = false) → s.opt.gate + 8 ≤ hbmTop →
        Acts (.optPrepare q n) q s (fun u => u.cores = s.cores ∧ u.sched = s.sched ∧
          u = { (s.taken 0x0B05 0 (leBytes 8 n.toNat)).writeCoefs n.toNat with
            opt := { s.opt with failGroup := 0xFFFF, running := some n.toNat } })) ∧
      (∀ i, i < s.opt.count → s.groupFails n.toNat i = true → (∀ j, j < i → s.groupFails n.toNat j = false) →
        Gives (.optPrepare q n) s (fun t => t.opt = { s.opt with failGroup := i } ∧ t.mem = s.mem))) ∧
    (s.admits q 0x0B06 (leBytes 8 n.toNat) → n.toNat = (s.opt.step + 1) % 2 ^ 64 → s.opt.prepared = n.toNat → s.sched.st ≠ 1 →
      s.sched.st ≠ 5 → Acts (.optCommit q n) q s (fun u => u.cores = s.cores ∧
        u = { (s.taken 0x0B06 0 (leBytes 8 n.toNat)).forEach (List.range s.opt.count) (fun s i =>
          let o := gCoef (s.groupAt i) + 52
          ((s.devTouch (s.groupOff i) 128).devTouch o 8).devWrite (s.groupOff i + 76) (s.peek o 8)) with
            opt := { s.opt with step := n.toNat, prepared := 0 } })) ∧
    (s.admits q 0x0B07 (leBytes 8 n.toNat) → s.schedBusy = false → Acts (.trainStepSet q n) q s (fun u =>
      u = { s.taken 0x0B07 0 (leBytes 8 n.toNat) with opt := { s.opt with step := n.toNat, prepared := 0 } })) ∧
    (s.clock.lost = false → ∀ m,
      let w : State := { s with opt := { s.opt with running := some m } }
      Gives .optPrepareDone w (fun t => t = { w.gateAdd s.opt.gate 1 with opt := { s.opt with running := none, prepared := m } }))

/-! The Husk. -/

/-- Each Husk action moves HuskState from the state it needs (R357 to R362, R371, R372, R375): HuskMapLoad begins the check of the map,
HuskInit leads to INIT, HuskOpen of the next generation to OPENING, HuskFold of the open one to FOLDING, HuskSeal on a coordinator whose
members have all signalled to APPLYING, HuskRestore after a decision BACK to RESTORING, HuskRebuild of a list that checks to REBUILDING,
and HuskResume to SEALED at its generation. HuskDeclareLost adds the module's own number to the lost ones and stops the image (R370). One
in another state, of another generation, or with the parity engines gated leaves its code in HuskResult and the state as it was (R358; a
module that has declared itself lost is the model's reading, log 76). The action log takes a record (R376). The engines' local work takes
effect at the action (log 41). The ends of the Husk's work (R357 to R363, R368, R371, R372, R378): a map that checks is MAPPED and one
that fails leaves its code; INIT ends in SEALED at its generation, OPENING in OPEN, FOLDING in READY once the coordinator is signalled,
APPLYING in SEALED, RESTORING in FENCED, and REBUILDING where it came from, or in FAILED, while a FENCED module stays so; the settle timer
fixes the decision; a flush ends FLUSHED. A trailer that is awaited is read again on its poll. A map whose action was overtaken is not
taken (log 76). -/
def Obligations.HuskActionsAndTheirEnds : Prop :=
  (∀ (q : OdReq) (g : BitVec 64) (v : BitVec 8) (s : State),
      let b8 := leBytes 8 g.toNat
      let b1 := leBytes 1 v.toNat
      let n := g.toNat
      let k := s.husk
      let done := fun (w : State) => ({ w with husk := { w.husk with result := 0 } } : State)
      let refused := fun (i : Instr) (c : Nat) => Gives i s (fun t => t.husk = { k with result := c } ∧ t.mem = s.mem)
      (s.parityGated = true ∨ s.huskShut = true →
        (s.admits q 0x0A20 b1 → refused (.huskMapLoad q v) 1) ∧ (s.admits q 0x0A21 b8 → refused (.huskInit q g) 1) ∧
        (s.admits q 0x0A22 b8 → refused (.huskOpen q g) 1) ∧ (s.admits q 0x0A23 b8 → refused (.huskFold q g) 1) ∧
        (s.admits q 0x0A25 b1 → refused (.huskRestore q v) 1) ∧ (s.admits q 0x0A26 b8 → refused (.huskRebuild q g) 1)) ∧
      (s.parityGated = false → s.huskShut = false →
        (s.admits q 0x0A20 b1 → k.st = 0 ∨ k.st = 1 ∨ k.st = 3 ∨ k.st = 12 → Acts (.huskMapLoad q v) q s (fun u =>
          let w := (s.taken 0x0A20 0 b1).forEach [0, 1] (fun s h => s.updPar h (fun p => { p with err := 0, fail := false }))
          u = done { w with husk := { w.husk with loading := true } } ∧ u.husk.st = k.st ∧ u.cores = s.cores)) ∧
        (s.admits q 0x0A21 b8 → k.st = 1 → n ≠ 0 → Acts (.huskInit q g) q s (fun u =>
          let r := s.taken 0x0A21 0 b8
          let w : State := { r with husk := { r.husk with st := 2, openGen := n } }
          u = done (w.parStart 1 (w.parityEntries.map Prod.fst)) ∧ u.husk.st = 2 ∧ u.husk.openGen = n ∧ u.sched = s.sched)) ∧
        (s.admits q 0x0A22 b8 → k.st = 3 → n = k.gen + 1 → Acts (.huskOpen q g) q s (fun u =>
          let r := s.taken 0x0A22 0 b8
          let w : State := { r with husk := { r.husk with st := 4, openGen := n } }
          u = done ((w.parBegin 2 []).journalOld n) ∧ u.husk.st = 4 ∧ u.husk.openGen = n ∧ u.sched = s.sched)) ∧
        (s.admits q 0x0A22 b8 → k.st = 3 → n ≠ k.gen + 1 → refused (.huskOpen q g) 6) ∧
        (s.admits q 0x0A22 b8 → k.st ≠ 3 → refused (.huskOpen q g) 1) ∧
        (s.admits q 0x0A23 b8 → k.st = 5 → n = k.openGen → Acts (.huskFold q g) q s (fun u =>
          let r := s.taken 0x0A23 0 b8
          let w : State := { r with husk := { r.husk with st := 6, foldEpoch := s.sched.placeEpoch } }
          let x := (w.parBegin 3 []).journalDelta n
          u = done (if (x.par 0).fail || (x.par 1).fail then x else x.parStart 4 (x.parityEntries.map Prod.fst)) ∧ u.husk.st = 6 ∧
          u.husk.foldEpoch = s.sched.placeEpoch ∧ u.sched = s.sched)) ∧
        (s.admits q 0x0A25 b1 → k.st = 9 → k.decision = 1 → Acts (.huskRestore q v) q s (fun u =>
          u = done ((((s.taken 0x0A25 0 b1).setHusk 10).parBegin 6 []).restoreAll k.openGen) ∧ u.husk.st = 10 ∧ u.sched = s.sched)) ∧
        (s.admits q 0x0A26 b8 → k.st = 1 ∨ (k.st = 9 ∧ k.decision ≠ 3) → s.listCheck n = 0 → Acts (.huskRebuild q g) q s (fun u =>
          let r := s.taken 0x0A26 0 b8
          let l := r.rebuildList n
          let x := (r.devTouch n 4).devTouch ((n + 4 + 127) / 128 * 128) (128 * l.length)
          let w : State := { x with husk := { r.husk with st := 11, from_ := k.st, list := l } }
          u = done (w.parStart 7 (List.range l.length)) ∧ u.husk.st = 11 ∧ u.husk.from_ = k.st ∧ u.sched = s.sched))) ∧
      (∀ b, s.parityGated = false → s.admits q 0x0A24 b8 → k.st = 7 → n = k.openGen → (s.devRead k.sealGate 8).2 = some b →
        (ofLe b < k.members → refused (.huskSeal q g) 7) ∧
        (k.flushing = false → k.flushed = false → s.devNum ∉ k.lost → k.members ≤ ofLe b → Acts (.huskSeal q g) q s (fun u =>
          let r := (s.taken 0x0A24 0 b8).devRead k.sealGate 8
          u = done (((r.1.devWrite k.sealGate (leBytes 8 (ofLe (r.2.getD []) - k.members))).floodNew 2 (fencePayload 2 0 0 n)).sealAct n) ∧
          u.husk.st = 8 ∧ u.husk.gen = n))) ∧
      (s.admits q 0x0A27 b1 → Acts (.huskDeclareLost q v) q s (fun u => u = done ((s.taken 0x0A27 0 b1).declareLost s.devNum) ∧
        u.husk.lost = (if s.devNum ∈ k.lost ∨ 64 ≤ k.lost.length then k.lost else k.lost ++ [s.devNum]) ∧
        u.sched.st = (if s.sched.st = 3 then 5 else s.sched.st))) ∧
      (s.parityGated = false → s.admits q 0x0A28 b8 → k.st = 9 ∨ k.st = 1 → Acts (.huskResume q g) q s (fun u =>
        let e := n / 2 ^ 48
        let h := n % 2 ^ 48
        u = done (((s.taken 0x0A28 0 b8).floodNew 3 (fencePayload 1 e 0 h)).resumeAct e h) ∧
        u.husk.st = 3 ∧ u.husk.gen = h ∧ u.husk.lost = [] ∧ u.husk.decision = 0 ∧ u.husk.fenced = false ∧ u.husk.settleAt = none)) ∧
      (∀ b : List Byte, s.admits q 0x0A33 b → b.length ≤ 32 → s.schedBusy = false → Acts (.actionLogAppend q b) q s (fun u =>
        u = s.taken 0x0A33 0 b ∧ u.husk = { k with logNext := if k.logLen = 0 then k.logNext else (k.logNext + 1) % 2 ^ 32 }))) ∧
  (∀ s : State, s.clock.lost = false →
      let k := s.husk
      let moves := fun (n : Nat) (t : State) => t = (s.parIdle 0).setHusk n ∧ t.husk = { k with st := n } ∧ t.cores = s.cores ∧ t.mem = s.mem
      let failed := (s.par 0).fail = true ∨ (s.par 1).fail = true
      let halted := (s.par 0).halt = true ∨ (s.par 1).halt = true
      (k.loading = true → Gives .huskMapLoadDone s (fun t =>
        let m := s.entriesAt k.mapBase k.mapCount
        let r := if k.st = 0 ∨ k.st = 1 ∨ k.st = 3 ∨ k.st = 12 then s.mapCheck m else 1
        t = { s.devTouch k.mapBase (128 * k.mapCount) with husk :=
          if r ≠ 0 then { k with loading := false, result := r }
          else { k with loading := false, result := 0, st := 1, map := m, gen := if k.st = 3 then 0 else k.gen, fenced := false } })) ∧
      (k.st = 2 → s.parDone 1 = true → Gives .huskInitDone s (fun t =>
        t = { s.parIdle 0 with husk := { k with st := 3, gen := k.openGen } } ∧ t.cores = s.cores ∧ t.mem = s.mem)) ∧
      (s.parDone 2 = true → (k.st = 4 → Gives .huskOpenDone s (moves 5)) ∧ (k.st = 9 → Gives .huskOpenDone s (fun t => t = s.parIdle 0))) ∧
      (s.parDone 5 = true → (k.st = 8 → Gives .huskApplyDone s (moves 3)) ∧ (k.st = 9 → Gives .huskApplyDone s (fun t => t = s.parIdle 0))) ∧
      (k.st = 10 → s.parDone 6 = true → Gives .huskRestoreDone s (moves 9)) ∧
      (k.st = 6 → s.parDone 4 = true → ¬ failed →
        (k.coord = s.devNum → Gives .huskFoldDone s (fun t => t = ((s.parIdle 0).gateAdd k.sealGate 1).setHusk 7 ∧ t.husk = { k with st := 7 })) ∧
        (k.coord ≠ s.devNum → Gives .huskFoldDone s (fun t =>
          let u := (s.parIdle 0).sealSignal
          t = (if (u.par 0).fail || (u.par 1).fail then u else u.setHusk 7) ∧ (t.husk = { k with st := 7 } ∨ t.husk = k)))) ∧
      (s.parStopped = false → (∀ h, h = 0 ∨ h = 1 → (s.hub h).fenced = true ∨ ((s.par h).work = 7 ∧ (s.par h).todo = [] ∧ (s.par h).cur = none)) →
        (failed → ¬ halted → Gives .huskRebuildDone s (moves 12)) ∧
        (¬ failed → ¬ halted → Gives .huskRebuildDone s (moves (if k.st = 11 then k.from_ else k.st))) ∧
        (halted → Gives .huskRebuildDone s (fun t => ∃ n, t = { s.parIdle 0 with husk := { k with st := n, result := 1 } } ∧
          (failed → n = 12) ∧ (¬ failed → n = if k.st = 11 then k.from_ else k.st)))) ∧
      (∀ t0, k.settleAt = some t0 → t0 + k.settle * 400 ≤ s.tsc → Gives .recoverySettleExpire s (fun t =>
        t = { s with husk := { k with settleAt := none, decision := huskDecide k } })) ∧
      (k.flushing = true → Gives .huskFlushDone s (fun t => t = { s.parIdle 8 with husk := { k with flushing := false, flushed := true } } ∧
        (t.par 0).work = 8 ∧ (t.par 1).work = 8 ∧ t.mem = s.mem)) ∧
      ∀ h : Fin 2, (s.par h).wait ≠ [] → (s.par h).cur ≠ none →
        ((s.par h).work ≠ 4 → Gives (.huskTrailerPoll h) s (fun t => t = (s.updPar h (fun q => { q with wait := [] })).parGo h)) ∧
        ((s.par h).work = 4 → Gives (.huskTrailerPoll h) s (fun t =>
          let w := s.curEntry h
          t = ((s.updPar h (fun q => { q with asked := (s.par h).wait, wait := [] })).forEach (s.par h).wait (fun s m =>
            s.pull h m (hRec w m).2.1 ((hRec w m).2.2 + hLen w) (hLen w) 64)).parGo h)))

/-! Clocks and power. -/

/-- Sources qualify once, each after its count of good windows, and the PLL locks with the TSC at 0 (R381 to R385, R403); below READY the
PLL moves up to the best good source (R384). A crystal that leaves its window against the internal oscillator fails without a rack
reference to judge by, and an active source that fails gives way to the internal oscillator in holdover; a source that failed counts again
from the start (R386, R387). ClockReselect takes the best source when no image runs and no port is past TRAIN (R384). Lost lock stops the
clocks, and its return takes the ports that had left DOWN back to it and stops the image (R388). That the crystal qualifies between two of
its windows is the model's reading (log 79). -/
def Obligations.ClocksQualifyAndFail : Prop :=
  ∀ s : State,
    let k := s.clock
    let clock := fun (k' : ClockSt) (t : State) => t = { s with clock := k' }
    let good := fun (b : BitVec 3) (i : Instr) => Gives i s (fun t => t.clock.good = k.good ||| b ∧
      (2 ≤ s.life → t = { s with clock := { k with good := k.good ||| b } }) ∧
      (s.life < 2 → k.locked = true → t.clock.active = max k.active t.bestRef))
    (s.powered = true → k.trimmed = false → Gives .ioscTrim s (clock { k with trimmed := true, good := k.good ||| 1 })) ∧
    (s.powered = true → k.locked = false → k.lost = false → Gives .pllFirstLock s (fun t => t.tsc = 0 ∧
      t.clock.locked = true ∧ t.clock.active = (if s.life < 2 then s.bestRef else 0) ∧ t.clock.good = k.good)) ∧
    (s.powered = true → k.good.getLsbD 1 = false →
      (65536 ≤ k.xtalRun + 1055 → good 2 .xtalQualify) ∧ (k.xtalRun + 1055 < 65536 → Gives .xtalQualify s (fun t => t = s))) ∧
    (s.powered = true → k.good.getLsbD 1 = true → k.good.getLsbD 2 = false →
      (k.rackSeen = true → 4 ≤ k.rackLong → good 4 .rackrefQualify) ∧
      (k.rackSeen = false ∨ k.rackLong < 4 → Gives .rackrefQualify s (fun t => t = s))) ∧
    (∀ (n : Nat) (d x i : Bool), s.powered = true →
      (k.good.getLsbD 1 = true → within n 1024 31 = true → Gives (.clockWindow .xtal .iosc n d x i) s (fun t => t = s)) ∧
      (k.good.getLsbD 1 = true → within n 1024 31 = false → Gives (.clockWindow .xtal .iosc n d x i) s (fun t => t = s.disagree x i)) ∧
      (k.good.getLsbD 1 = true → within n 1024 31 = false → k.good.getLsbD 2 = false →
        Gives (.clockWindow .xtal .iosc n d x i) s (fun t =>
          t.clock.good.getLsbD 1 = false ∧ t.clock.failCount = (k.failCount + 1) % 2 ^ 32 ∧ t.clock.xtalRun = 0 ∧
          t.clock.active = (if k.active = 1 then 0 else k.active) ∧
          (k.active = 1 → t.clock.holdover = true ∧ t.align.aligned = false))) ∧
      (k.good.getLsbD 1 = false → Gives (.clockWindow .xtal .iosc n d x i) s (clock (k.xtalWindow n))) ∧
      (k.good.getLsbD 1 = true → k.trimmed = true → k.good.getLsbD 0 = false → Gives (.clockWindow .iosc .xtal n d x i) s (clock
        (if within n 1024 31 = false then { k with ioscRun := 0 }
         else if 65536 ≤ k.ioscRun + n then { k with ioscRun := 0, good := k.good ||| 1 } else { k with ioscRun := k.ioscRun + n }))) ∧
      (k.good.getLsbD 1 = true → k.good.getLsbD 2 = false → Gives (.clockWindow .rack .xtal n d x i) s (clock (k.rackWindow n d))) ∧
      (k.good.getLsbD 1 = true → k.good.getLsbD 2 = true → Gives (.clockWindow .rack .xtal n d x i) s (fun t =>
        t = if within n 3200 32 = true ∧ d = true then s else s.sourceFails 2))) ∧
    (∀ (q : OdReq) (v : BitVec 8), s.admits q 0x0302 (leBytes 1 v.toNat) → s.sched.st ≠ 3 → (∀ p, p < 40 → (s.port p).st ≤ 2) →
      Acts (.clockReselect q v) q s (fun u => u.clock.active = s.bestRef ∧ u.clock.good = k.good ∧
        ∀ p, p < 40 → (s.port p).st = 2 → (u.port p).st = 1)) ∧
    (k.locked = true → Gives .refEdgesMissing s (clock { k with holdover := true })) ∧
    (k.locked = true → k.good.getLsbD k.active = true → Gives .pllRelock s (clock { k with holdover := false })) ∧
    (k.locked = true → Gives .pllUnlock s (clock { k with locked := false, lost := true, outLow := true })) ∧
    (∀ us, k.lost = true → Gives (.pllLockReturn us) s (fun t => t.clock.locked = true ∧ t.clock.lost = false ∧
      t.clock.unlockCount = (k.unlockCount + 1) % 2 ^ 32 ∧ t.sched.st = (if s.sched.st = 3 then 5 else s.sched.st) ∧
      ∀ p, p < 40 → 2 ≤ (s.port p).st → (t.port p).st = 1))

/-- A die's level moves toward the largest requested: at once when it is not below the one in force, otherwise once the rail has reached
its set point, level by level for a request that came during a ramp (R389, R390; what the event stands for is log 79). The block enables,
the control-core enables and the clock output take a write that clears nothing in use (R392 to R394, R402). -/
def Obligations.LevelsAndEnables : Prop :=
  (∀ (d : Fin 4) (s : State), s.clock.lost = false →
    let k := s.die d
    let r := s.wantLevel d
    let sets := fun (k' : DieSt) (t : State) => t = { s with power := t.power } ∧ t.die d = k' ∧ (∀ e, e ≠ d.val → t.die e = s.die e) ∧
      t.power = { s.power with dies := t.power.dies }
    (s.powered = true → Gives (.levelRequest d) s (sets
      (if r = k.target then k
       else if k.level ≤ r then { k with level := r, target := r, ramping := true, byLevel := false }
       else { k with target := r, ramping := true, byLevel := k.ramping }))) ∧
    (k.ramping = true → Gives (.railSetpointReached d) s (sets
      (if k.level ≤ k.target then { k with ramping := false }
       else if k.byLevel = true then { k with level := k.level - 1, ramping := decide (k.target + 1 < k.level) }
       else { k with level := k.target, ramping := false })))) ∧
  ∀ (q : OdReq) (s : State),
    (∀ (r : Fin 24) (v : BitVec 8), s.admits q 0x0310 (leBytes 1 v.toNat) → v.toNat ≤ 3 → v.toNat ≠ 2 →
      (s.region r).clken.toNat &&& (v.toNat ^^^ 3) = 0 → Acts (.regionClkenWrite q r v) q s (fun u => OnlyRegion s u r ∧
        u.region r = { s.region r with clken := BitVec.ofNat 2 v.toNat })) ∧
    (∀ (h : Fin 2) (v : BitVec 16), s.admits q 0x0311 (leBytes 2 v.toNat) → v.toNat ≤ 0xFF → (h = 1 → v.toNat ≤ 0x1F) →
      (∀ i, clears (s.hub h).clken.toNat v.toNat i = false) → (s.hub h).fenced = false →
      Acts (.hubClkenWrite q h v) q s (fun u => (u.hub h).clken = v ∧ (u.hub h).cpuEn = (s.hub h).cpuEn)) ∧
    (∀ (h : Fin 2) (v : BitVec 8), s.admits q 0x0312 (leBytes 1 v.toNat) → clears (s.hub h).cpuEn.toNat v.toNat 0 = false →
      (∀ c, q.cpu = some c → c.val / 8 = h.val → clears (s.hub h).cpuEn.toNat v.toNat (c.val % 8) = false) → (s.hub h).fenced = false →
      Acts (.ctlCoreEnableWrite q h v) q s (fun u => OnlyHub s u h ∧ u.hub h = { s.hub h with cpuEn := v })) ∧
    (∀ v : Word, s.admits q 0x0306 (leBytes 4 v.toNat) → (actClockOutSel s v).inv = false → (s.hub 0).clken.getLsbD 7 = true →
      Acts (.clockOutSelWrite q v) q s (fun u => u = { s with clock := { s.clock with outSel := v } }))

/-- A supply sample enters every shed stage its voltage asks for (R395, R396), one below 30 V or above 63 V for 11 samples stage 5 (R398),
and a stage is left after 1,001 good samples (R396, R398; times counted in samples, log 51). A rail sample sets the die's requests and the
pauses of its matrix engines (R397); the power cap rises on the average of 100 samples and falls on that of 1,000 (R401); the hottest
sensor sets a die's throttle level (R399), and a sensor critical twice takes the module to stage 5 (R400); coolant samples are kept
(R505). The safe state keeps only the pins, the flash, the fuses and the cause (R398). -/
def Obligations.SupplyAndTemperature : Prop :=
  ∀ s : State, s.busUp = true →
    (∀ mv, 30000 ≤ mv → mv ≤ 63000 → Gives (.vinSample mv) s (fun t => t.power.vin = mv ∧ t.power.low = 0 ∧
      t.power.high = 0 ∧ t.power.stage = max s.power.stage (vinStage mv))) ∧
    (∀ mv, (mv < 30000 ∧ 10 ≤ s.power.low) ∨ (63000 < mv ∧ 10 ≤ s.power.high) → Gives (.vinSample mv) s (fun t => t.power.vin = mv ∧
      t.power.stage = max s.power.stage 5)) ∧
    (∀ mv, mv < 30000 → s.power.low < 10 → Gives (.vinSample mv) s (fun t => t.power.vin = mv ∧ t.power.low = s.power.low + 1 ∧
      t.power.stage = max s.power.stage 4)) ∧
    (1 ≤ s.power.stage → s.power.stage ≤ 4 → 1001 ≤ s.power.good.getD (s.power.stage - 1) 0 → 100 ≤ s.power.sinceLeave →
      Gives .shedStageLeave s (fun t => t.power = { s.power with stage := s.power.stage - 1, sinceLeave := 0 })) ∧
    (∀ (d : Fin 4) (mv : Nat), Gives (.railSample d mv) s (fun t =>
      let sp := setPoint (s.die d).level
      let good := if 97 * sp ≤ 100 * mv then (s.die d).railGood + 1 else 0
      t.die d = { s.die d with
        rail := mv, railGood := good, railReq := decide (100 * mv < 95 * sp) || ((s.die d).railReq && decide (good < 1001)),
        railPause := decide (100 * mv < 90 * sp) || ((s.die d).railPause && decide (good < 1001)) } ∧
      (∀ e, e ≠ d.val → t.die e = s.die e) ∧ t.power.stage = s.power.stage ∧
      ∀ c, c < 136 → (t.core c).mxePaused = (decide (2 ≤ s.power.stage) || (t.die (dieOf c)).railPause))) ∧
    (∀ mw, Gives (.powerSample mw) s (fun t => t = { s with power := t.power } ∧
      let w := (mw :: s.power.watts).take 1000
      let high := 300000000 < (w.take 100).sum
      t.power.watts = w ∧
      (high → 99 ≤ s.power.sinceRise → s.power.capLevel < 3 → t.power.capLevel = s.power.capLevel + 1) ∧
      (¬ high → w.sum / 1000 < 2850000 → 999 ≤ s.power.sinceFall → 0 < s.power.capLevel → t.power.capLevel = s.power.capLevel - 1) ∧
      (¬ high → 2850000 ≤ w.sum / 1000 → t.power.capLevel = s.power.capLevel))) ∧
    (∀ ts : List (List Int), (∀ l ∈ ts, ∀ x ∈ l, x < 110000) → Gives (.dieTempSample ts) s (fun t =>
      t = { s with power := t.power } ∧ t.power.stage = s.power.stage ∧ (∀ d, d < 6 → ts.getD d [] ≠ [] →
        t.power.temps.get 0 d = maxTemp (ts.getD d [])) ∧
      ∀ d, d < 4 → t.die d = if ts.getD d [] = [] then s.die d else
        { s.die d with therm := throttleNext (s.die d).therm (maxTemp (ts.getD d [])) })) ∧
    (∀ (ts : List (List Int)) (d i : Nat) (x : Int), d < 6 → (ts.getD d [])[i]? = some x → 110000 ≤ x → d * 16 + i ∈ s.power.hot →
      (∀ e, e ≠ d → ts.getD e [] = []) → Gives (.dieTempSample ts) s (fun t => t.power.stage = max s.power.stage 5 ∧
        t.power.temps.get 0 d = maxTemp (ts.getD d []))) ∧
    (∀ a b : Int, Gives (.coolantSample a b) s (fun t =>
      t = { s with power := { s.power with coolantIn := a, coolantOut := b } })) ∧
    (5 ≤ s.power.stage → (s.hub 0).fenced = true ∨ (s.box.writing = none ∧ s.box.waiting = none) → s.husk.flushing = false →
      Gives .safeStateEntry s (fun t => t = s.cold .safe s.boot.resetCause ∧ t.boot.phase = .safe ∧ t.life = 0 ∧ t.cores = [] ∧
        t.mem.hbm = [] ∧ t.fuses = s.fuses ∧ t.flash.bytes = s.flash.bytes))

/-! The object dictionary. -/

/-- A write request answers in the order of R412: no such index, no such sub-index, not authorised, read-only, wrong length; a value out
of range is INVALID, a write that the lifecycle does not admit is STATE, and StallLimit takes any legal value and nothing else changes
(R142, R412, R413). The status of a refused write of an action object is what a read of it returns (R5; log 80). -/
def Obligations.ObjectWrites : Prop :=
  ∀ (q : OdReq) (i : BitVec 16) (j : BitVec 8) (b : List Byte) (s : State), s.odAnswers = true →
    let idx := i.toNat
    let sub := j.toNat
    let none_ := objectsAt idx = [] ∨ (banked idx = true ∧ q.cpu = none)
    (none_ → Gives (.odWrite q i j b) s (fun t => t = s.answer q 4)) ∧
    (¬ none_ → objOf idx sub = none → Gives (.odWrite q i j b) s (fun t => t = s.answer q 5)) ∧
    (∀ o, ¬ none_ → objOf idx sub = some o →
      (denied q.role true idx = true → Gives (.odWrite q i j b) s (fun t => t = (s.noteAct o.acc idx sub 7).answer q 7)) ∧
      (denied q.role true idx = false → o.acc = .ro → Gives (.odWrite q i j b) s (fun t => t = s.answer q 1)) ∧
      (denied q.role true idx = false → o.acc ≠ .ro → o.ty.fits b.length = false →
        Gives (.odWrite q i j b) s (fun t => t = (s.noteAct o.acc idx sub 6).answer q 6))) ∧
    (idx = 0x0607 → sub = 0 → b.length = 4 → denied q.role true idx = false →
      let legal := 1 ≤ ofLe b ∧ ofLe b ≤ 60000000
      (¬ legal → Gives (.odWrite q i j b) s (fun t => t = s.answer q 3)) ∧
      (legal → admitted s.life idx b = false → Gives (.odWrite q i j b) s (fun t => t = s.answer q 2)) ∧
      (legal → admitted s.life idx b = true → Gives (.odWrite q i j b) s (fun t =>
        t = State.answer { s with sched := { s.sched with stallLimit := ofLe b } } q 0)))

/-- In the window a load at byte 0 of a slot reads the object and latches its value for the loads of its other bytes; a store of a
scalar's width at its byte 0 is a write with its status in WindowStatus, another store to a scalar is refused for its length; a store to a
longer object is staged; WindowCommit writes the staged bytes, and is refused with nothing staged; an access that no object answers is a
bus error (R415, R416). -/
def Obligations.WindowAccesses : Prop :=
  ∀ (c : Fin 16) (off : BitVec 40) (width : Nat) (v : BitVec 64) (s : State), s.cpuRuns c = true →
    (∀ rel, placeOf off.toNat = .od rel →
      let idx := rel / 65536
      let sub := rel / 256 % 256
      let byte := rel % 256
      let slot := idx * 256 + sub
      let k := s.cpu c
      let val := if byte ≠ 0 ∧ k.latchSlot = some slot then k.latch else (s.odRead (cpuReq c) idx sub).2.2
      (naturally byte width = true → s.odAnswers = true → (objOf idx sub).isSome = true →
        Gives (.odWindowLoad c off width) s (fun t => t = { s with cpus := t.cpus } ∧ (∀ d, d ≠ c.val → t.cpu d = s.cpu d) ∧
          t.cpu c = { k with
            bus := false, value := ofLe (slice val byte width), latchSlot := if byte = 0 then some slot else k.latchSlot,
            latch := if byte = 0 then val else k.latch })) ∧
      (naturally byte width = false ∨ s.odAnswers = false ∨ objOf idx sub = none →
        Gives (.odWindowLoad c off width) s (fun t => t = s.cpuOut c true 0)) ∧
      (s.odAnswers = false ∨ objOf idx sub = none → Gives (.odWindowStore c off width v) s (fun t => t = s.cpuOut c true 0)) ∧
      (∀ o, s.odAnswers = true → objOf idx sub = some o →
        (∀ w, o.ty.width = some w → idx ≠ 0x0D71 → byte = 0 → width = w →
          let r := s.odWrite (cpuReq c) idx sub (leBytes w v.toNat)
          Gives (.odWindowStore c off width v) s (fun t => t = r.1.windowDone c r.2 ∧ (t.cpu c).status = r.2 ∧ (t.cpu c).bus = false)) ∧
        (∀ w, o.ty.width = some w → (byte ≠ 0 ∨ width ≠ w) →
          Gives (.odWindowStore c off width v) s (fun t => t = s.windowDone c 6)) ∧
        (o.ty.width = none → naturally byte width = false → Gives (.odWindowStore c off width v) s (fun t => t = s.windowDone c 6)) ∧
        (o.ty.width = none → naturally byte width = true →
          Gives (.odWindowStore c off width v) s (fun t => t = { s with cpus := t.cpus } ∧ (∀ d, d ≠ c.val → t.cpu d = s.cpu d) ∧
            t.cpu c = { k with
              bus := false, value := 0, status := 0, staged := some slot,
              stage := (if k.staged = some slot then k.stage else []).sets 0 byte (leBytes width v.toNat) })))) ∧
    (∀ n : Word, s.odAnswers = true →
      let u := s.updCpu c (fun k => { k with staged := none, stage := [] })
      (256 < n.toNat → Gives (.windowCommit c n) s (fun t => t = u.windowDone c 3)) ∧
      (n.toNat ≤ 256 → (s.cpu c).staged = none → Gives (.windowCommit c n) s (fun t => t = u.windowDone c 2)) ∧
      (∀ slot, n.toNat ≤ 256 → (s.cpu c).staged = some slot →
        let r := u.odWrite (cpuReq c) (slot / 256) (slot % 256) ((s.cpu c).stage.gets 0 0 n.toNat)
        Gives (.windowCommit c n) s (fun t => t = r.1.windowDone c r.2 ∧ (t.cpu c).status = r.2)))

/-! The management port. -/

/-- A READ or WRITE of a session, with a SEQ not below its window, is served once with the session's role: its RESULT is sealed, sent and
kept, and a repeat of the SEQ sends the kept RESULT again (R421, R425); a READ with session number 0 is answered in plaintext with no role
(R424). A PING is answered by a PING with the same SEQ; SUBSCRIBE starts event delivery at its EVSEQ and severity; EVACK acknowledges the
events up to its EVSEQ; CLOSE ends the session; a message of no open session is discarded and counted (R418, R420, R423, R435). -/
def Obligations.SessionRequestsAndMessages : Prop :=
  ((∀ (d : Datagram) (x : Session) (b : List Byte) (s : State), s.hears d 0x10 x b → d.session ≠ 0 → x.high ≤ d.seq + 15 →
      let y := x.heard s.tsc
      let u := s.putSession y
      (∀ p, x.done.find? (fun p => decide (p.1 = d.seq)) = some p →
        Gives (.toaRead d) s (fun t => t = u.tell { p.2 with client := d.client, cport := d.cport })) ∧
      (x.done.find? (fun p => decide (p.1 = d.seq)) = none → b.length = 4 →
        let g := backTo (u.seal y 0x12 d.seq (u.serveGet { role := x.role, cpu := none } b)) d
        let h := max x.high d.seq
        Gives (.toaRead d) s (fun t => t = (s.putSession { y with
          high := h, done := ((d.seq, g) :: x.done).filter (fun p => decide (h ≤ p.1 + 15)) }).tell g))) ∧
    (∀ (d : Datagram) (s : State), s.mgmtOn = true → d.typ = 0x10 → d.session = 0 → s.dgramOk d = true → d.tag = [] → d.body.length = 4 →
      Gives (.toaRead d) s (fun t => t = s.plainMsg d 0x12 0 d.seq (s.serveGet { role := .none, cpu := none } d.body))) ∧
    (∀ (d : Datagram) (x : Session) (b : List Byte) (s : State), s.hears d 0x11 x b → x.high ≤ d.seq + 15 →
      let y := x.heard s.tsc
      let u := s.putSession y
      (∀ p, x.done.find? (fun p => decide (p.1 = d.seq)) = some p →
        Gives (.toaWrite d) s (fun t => t = u.tell { p.2 with client := d.client, cport := d.cport })) ∧
      (x.done.find? (fun p => decide (p.1 = d.seq)) = none → 8 ≤ b.length → b.length = 8 + beAt b 6 2 →
        let r := u.servePut { role := x.role, cpu := none } b
        let g := backTo (r.1.seal y 0x12 d.seq r.2) d
        let h := max x.high d.seq
        Gives (.toaWrite d) s (fun t => t = (r.1.putSession { y with
          high := h, done := ((d.seq, g) :: x.done).filter (fun p => decide (h ≤ p.1 + 15)) }).tell g)))) ∧
  (∀ (d : Datagram) (x : Session) (b : List Byte) (s : State),
      let y := x.heard s.tsc
      (s.hears d 0x16 x b → Gives (.toaPing d) s (fun t => t = (s.putSession y).tell (backTo ((s.putSession y).seal y 0x16 d.seq []) d))) ∧
      (s.hears d 0x13 x b → b.length = 9 → beAt b 8 1 ≤ 3 → Gives (.toaSubscribe d) s (fun t => t = s.putSession { y with
        client := d.client, cport := d.cport, subscribed := true, cursor := beAt b 0 8, acked := beAt b 0 8, minSev := beAt b 8 1, sent := [] })) ∧
      (s.hears d 0x15 x b → b.length = 8 → Gives (.toaEvack d) s (fun t => ∃ z, t = s.putSession z ∧
        z = { y with acked := max x.acked (beAt b 0 8 + 1), sent := z.sent } ∧
        ∀ n e, (∃ m ∈ z.sent, m.1 = n ∧ e ∈ m.2.2.1) ↔ (∃ m ∈ x.sent, m.1 = n ∧ e ∈ m.2.2.1) ∧ beAt b 0 8 < e)) ∧
      (s.hears d 0x17 x b → Gives (.toaClose d) s (fun t => t = s.dropSession d.session)) ∧
      (s.mgmtOn = true → s.dgramOk d = true → s.session d.session false = none →
        (d.typ = 0x16 → Gives (.toaPing d) s (fun t => t = s.mgmtDrop)) ∧ (d.typ = 0x17 → Gives (.toaClose d) s (fun t => t = s.mgmtDrop))))

/-- A first segment of a HELLO waits for the others (R418). A complete HELLO, with room and a version in common, opens a half-open session
and is answered by CHALLENGE, or by REFUSE with BUSY when the entropy source has failed; a complete AUTH with a credential the device
accepts opens the session with its role, and otherwise ends it with DENIED; a half-open session ends 2 s after its HELLO, an open one
after its idle limit, and a message whose segments have not come in 100 ms is discarded and counted (R418, R419, R423, R441). -/
def Obligations.SessionsOpenAndEnd : Prop :=
  (∀ (d : Datagram) (s : State), s.mgmtOn = true → d.typ = 1 → s.dgramOk d = true → d.session = 0 → d.tag = [] → d.nseg ≠ 1 →
    (∀ e ∈ s.mgmt.asm, e.of d = false) → Gives (.toaHello d) s (fun t => t.mgmt.sessions = s.mgmt.sessions ∧
      t.mgmt.asm = s.purgeAsm.mgmt.asm ++ [{
        session := 0, seq := d.seq, typ := 1, client := d.client, cport := d.cport, nseg := d.nseg, since := s.tsc,
        segs := [(d.seg, d.body)] }])) ∧
  (∀ (d : Datagram) (b : List Byte) (s : State), s.mgmtOn = true → d.typ = 1 → s.dgramOk d = true → d.session = 0 → d.tag = [] →
    (s.gather d).2 = some b → b.length = 1218 → leAt b 1216 1 ≤ 3 → 1 ≤ leAt b 1217 1 → leAt b 1216 1 ≤ leAt b 1217 1 →
    (s.mgmt.hellos.filter (fun n => decide (s.tsc < n + 1000 * msTicks))).length < 16 → s.purge.mgmt.sessions.length < 8 →
    Gives (.toaHello d) s (fun t =>
      ((0 : Nat) ∉ s.sec.entropyBad → t.rndCtr = s.rndCtr + 2 ∧ ∃ x : Session, t.mgmt.sessions = s.purge.mgmt.sessions ++ [x] ∧
        x.half = true ∧ x.client = d.client ∧ x.since = s.tsc ∧ x.id = s.purge.freshSession) ∧
      ((0 : Nat) ∈ s.sec.entropyBad → t.rndCtr = s.rndCtr ∧ t.mgmt.sessions = s.purge.mgmt.sessions))) ∧
  (∀ (d : Datagram) (x : Session) (b : List Byte) (s : State), s.mgmtOn = true → d.typ = 3 → s.dgramOk d = true → d.tag = [] →
    (s.gather d).2 = some b → s.session d.session true = some x →
    Gives (.toaAuth d) s (fun t =>
      (∀ r, s.credential x b = some r → t.mgmt.sessions = (s.putSession { x with
        half := false, role := r, client := d.client, cport := d.cport, idle := s.mgmt.idle, last := s.tsc }).mgmt.sessions) ∧
      (s.credential x b = none → t.mgmt.sessions = s.mgmt.sessions.filter (fun z => decide (z.id ≠ x.id))))) ∧
  (∀ (id : Nat) (s : State), s.clock.lost = false → Gives (.authTimeout id) s (fun t => t = { s with mgmt := { s.mgmt with sessions := t.mgmt.sessions } } ∧
    ∀ x, x ∈ t.mgmt.sessions ↔ x ∈ s.mgmt.sessions ∧ ¬ (x.id = id ∧ x.half = true ∧ x.since + 800000000 ≤ s.tsc))) ∧
  (∀ (id : Nat) (s : State), s.clock.lost = false → Gives (.sessionIdleTimeout id) s (fun t => t = { s with mgmt := { s.mgmt with sessions := t.mgmt.sessions } } ∧
    ∀ x, x ∈ t.mgmt.sessions ↔ x ∈ s.mgmt.sessions ∧ ¬ (x.id = id ∧ x.half = false ∧ x.last + x.idle * 400000 ≤ s.tsc))) ∧
  (∀ (id seq : Nat) (s : State), s.clock.lost = false → Gives (.reassemblyTimeout id seq) s (fun t =>
    t = { s with mgmt := { s.mgmt with asm := t.mgmt.asm, drops := t.mgmt.drops } } ∧
    t.mgmt.drops = s.mgmt.drops + ((s.mgmt.asm.filter (fun e => e ∉ t.mgmt.asm)).map (fun e => e.segs.length)).sum ∧
    ∀ e, e ∈ t.mgmt.asm ↔ e ∈ s.mgmt.asm ∧ ¬ (e.session = id ∧ e.seq = seq ∧ e.since + 40000000 ≤ s.tsc)))

/-- A subscribed session is sent the next events it has not been sent, at most 16 in one message and 64 unacknowledged, and a message not
acknowledged for 250 ms is sent again as it was (R435); the port answers a neighbour solicitation and an echo request for its address, and
counts a frame that is too long (R417). -/
def Obligations.EventsAreDelivered : Prop :=
  (∀ (id : Nat) (x : Session) (s : State), s.mgmtOn = true → s.session id false = some x → x.subscribed = true →
    let waiting := (x.sent.map (fun m => m.2.2.1.length)).sum
    let start := max x.cursor s.log.oldest
    let es := (s.eventsFrom start x.minSev).take (min 16 (64 - waiting))
    (64 ≤ waiting → Gives (.eventSend id) s (fun t => t = s)) ∧
    (∀ l, waiting < 64 → es.getLast? = some l → x.evSeq + 1 ≠ 0xFFFFFFFF →
      let g := s.seal x 0x14 (x.evSeq + 1) (beBytes 1 es.length ++ zeros 3 ++ beBytes 4 (start - x.cursor) ++ es.flatMap Ev.be)
      Gives (.eventSend id) s (fun t => t = (s.putSession { x with
        cursor := l.evseq + 1, evSeq := x.evSeq + 1, sent := x.sent ++ [(x.evSeq + 1, s.tsc, es.map (·.evseq), g)] }).tell g))) ∧
  (∀ (id seq : Nat) (x : Session) (m : Nat × Nat × List Nat × Datagram) (s : State), s.mgmtOn = true → s.session id false = some x →
    x.sent.find? (fun m => decide (m.1 = seq ∧ m.2.1 + 100000000 ≤ s.tsc)) = some m →
    Gives (.eventResend id seq) s (fun t => t = (s.putSession { x with
      sent := x.sent.map (fun y => if y.1 = seq then (y.1, s.tsc, y.2.2) else y) }).tell { m.2.2.2 with client := x.client, cport := x.cport })) ∧
  (∀ (f : MgmtFrame) (s : State), s.mgmtOn = true →
    (1518 < f.len → Gives (.managementPortFrame f) s (fun t => t = s.mgmtDrop)) ∧
    (f.len ≤ 1518 → s.reachesAddr f.client = true →
      (∀ a, f.kind = .neighbourSolicit a → s.ownAddr a = true →
        Gives (.managementPortFrame f) s (fun t => t = { s with out := .advert f.client a :: s.out })) ∧
      (∀ b, f.kind = .echoRequest b → s.ownAddr f.host = true →
        Gives (.managementPortFrame f) s (fun t => t = { s with out := .echo f.client b :: s.out }))))

/-! Events, configuration, reset. -/

/-- An event that comes more than 4 µs late is committed at once with LATE set, any other is held (R431); the held event with the smallest
key is committed once 4 µs have passed, with the next EVSEQ (R431, R432); EventPost of a code from 0xF000 posts its event, and any other
code or a reserved bit set is INVALID (R436). -/
def Obligations.EventsReachTheLog : Prop :=
  (∀ (e : Ev) (rest : List Ev) (s : State), s.log.raised = e :: rest → s.clock.lost = false →
    (e.tsc + 1600 < s.tsc → s.log.next - s.log.oldest < 8192 → Gives .eventRaise s (fun t => t = { s with log := { s.log with
      raised := rest, next := s.log.next + 1,
      recs := s.log.recs.set {} (s.log.next % 8192) { e with late := true, evseq := s.log.next } } })) ∧
    (s.tsc ≤ e.tsc + 1600 → Gives .eventRaise s (fun t => t = { s with log := { s.log with raised := rest, held := s.log.held ++ [e] } }))) ∧
  (∀ (e : Ev) (s : State), e ∈ s.log.held → (∀ x ∈ s.log.held, x ≠ e → e.key < x.key) → s.clock.lost = false →
    (s.tsc < e.tsc + 1600 → Gives .eventCommit s (fun t => t = s)) ∧
    (e.tsc + 1600 ≤ s.tsc → Gives .eventCommit s (fun t => t = { s with log := t.log } ∧ t.log.held = s.log.held.erase e ∧
      t.log.next = s.log.next + 1 ∧ t.log.recs.get {} (s.log.next % 8192) = { e with evseq := s.log.next } ∧
      (s.log.next - s.log.oldest < 8192 → t.log.oldest = s.log.oldest ∧ t.log.lost = s.log.lost ∧ t.log.raised = s.log.raised) ∧
      (8192 ≤ s.log.next - s.log.oldest → t.log.oldest = s.log.oldest + 1)))) ∧
  (∀ (q : OdReq) (b : List Byte) (s : State), s.admits q 0x0D03 b → b.length = 44 →
    (leAt b 0 2 < 0xF000 ∨ 3 < leAt b 2 1 ∨ leAt b 3 1 ≠ 0 → Gives (.eventPost q b) s (fun t => t = (s.noteAct .act 0x0D03 0 3).answer q 3)) ∧
    (0xF000 ≤ leAt b 0 2 → leAt b 2 1 ≤ 3 → leAt b 3 1 = 0 →
      Acts (.eventPost q b) q s (fun u => u = { s.taken 0x0D03 0 b with log := { s.log with raised := s.log.raised ++
        [{ code := leAt b 0 2, sev := leAt b 2 1, src := 0x610, tsc := s.tsc,
           args := (List.range 10).map (fun i => BitVec.ofNat 32 (leAt b (4 + 4 * i) 4)) }] } })))

/-- ConfigSave and ConfigErase begin with the values as they stand and are refused as STATE while one is in progress; when it ends without
a failure both devices hold the two records, or erased bytes (R429); with the north hub fenced the flash is lost and does not change (R17;
the result is the model's choice, log 80). The inactive slot is erased, takes pages of 256 bytes in turn at FwSlotOffset into erased
flash, and is activated when its image passes the checks of R443; a page that fails leaves FwSlotOffset, and an action out of its state is
refused as STATE (R443, R469, R487). With the north hub fenced the flash does not change (R17; the result is the model's choice, log 80).
-/
def Obligations.FlashRecordsAndSlots : Prop :=
  ((∀ (q : OdReq) (v : BitVec 8) (s : State),
      (s.admits q 0x0203 (leBytes 1 v.toNat) → s.flash.cfgBusy = none → Acts (.configSave q v) q s (fun u =>
        u = { s.taken 0x0203 0 (leBytes 1 v.toNat) with flash := { s.flash with cfgBusy := some (some (s.cfgRecord ++ s.secRecord)) } })) ∧
      (s.admits q 0x0203 (leBytes 1 v.toNat) → s.flash.cfgBusy ≠ none → Gives (.configSave q v) s (fun t =>
        t = (s.noteAct .act 0x0203 0 2).answer q 2)) ∧
      (s.admits q 0x0204 (leBytes 1 v.toNat) → s.flash.cfgBusy = none → Acts (.configErase q v) q s (fun u =>
        u = { s.taken 0x0204 0 (leBytes 1 v.toNat) with flash := { s.flash with cfgBusy := some none } })) ∧
      (s.admits q 0x0204 (leBytes 1 v.toNat) → s.flash.cfgBusy ≠ none → Gives (.configErase q v) s (fun t =>
        t = (s.noteAct .act 0x0204 0 2).answer q 2))) ∧
    ∀ s : State, s.busUp = true →
      (s.flash.cfgBusy ≠ none → (s.hub 0).fenced = true → ∀ ok, Gives (.configDone ok) s (fun t =>
        t = { s with flash := { s.flash with cfgBusy := none, cfgResult := 1 } })) ∧
      (∀ b, s.flash.cfgBusy = some (some b) → b.length = 2100 → (s.hub 0).fenced = false → Gives (.configDone true) s (fun t => t = { s with flash := t.flash } ∧
        t.flash = { s.flash with bytes := t.flash.bytes, cfgBusy := none, cfgResult := 0 } ∧
        ∀ d, d < 2 → t.flashRead d 0x1810000 75 = b.take 75 ∧ t.flashRead d 0x1820000 2025 = b.drop 75)) ∧
      (s.flash.cfgBusy = some none → (s.hub 0).fenced = false → Gives (.configDone true) s (fun t => t = { s with flash := t.flash } ∧
        t.flash = { s.flash with bytes := t.flash.bytes, cfgBusy := none, cfgResult := 0 } ∧
        ∀ d i, d < 2 → i < 0x10000 → t.flashRead d (0x1810000 + i) 1 = [0xFF] ∧ t.flashRead d (0x1820000 + i) 1 = [0xFF])) ∧
      (s.flash.cfgBusy ≠ none → Gives (.configDone false) s (fun t => t.flash.cfgBusy = none ∧ t.flash.cfgResult = 1 ∧ t.mgmt = s.mgmt ∧
        t.sec = s.sec))) ∧
  ((∀ (q : OdReq) (v : BitVec 8) (s : State), s.admits q 0x0E81 (leBytes 1 v.toNat) →
      (s.fwBusy = false → Acts (.fwSlotErase q v) q s (fun u =>
        u = { s.taken 0x0E81 0 (leBytes 1 v.toNat) with flash := { s.flash with fwErasing := true } })) ∧
      (s.fwBusy = true → Gives (.fwSlotErase q v) s (fun t => t = (s.noteAct .act 0x0E81 0 2).answer q 2))) ∧
    (∀ (ok : Bool) (s : State), s.flash.fwErasing = true → s.busUp = true → (s.hub 0).fenced = true → Gives (.fwSlotEraseDone ok) s (fun t =>
      t = { s with flash := { s.flash with fwErasing := false, fwResult := 1 } })) ∧
    (∀ (ok : Bool) (s : State), s.flash.fwErasing = true → s.busUp = true → (s.hub 0).fenced = false → Gives (.fwSlotEraseDone ok) s (fun t =>
      t = { s with flash := t.flash, freeCtr := t.freeCtr } ∧
      t.flash = { s.flash with bytes := t.flash.bytes, fwErasing := false, fwResult := if ok then 0 else 1 } ∧
      (ok = true → t.flashErased s.flash.fwTarget 0 0x1800000 = true))) ∧
    (∀ (q : OdReq) (b : List Byte) (ok : Bool) (s : State), s.admits q 0x0E83 b → b.length = 256 →
      let o := s.flash.fwOffset
      let tgt := s.flash.fwTarget
      (0x1800000 < o + 256 → Gives (.fwSlotData q b ok) s (fun t => t = (s.noteAct .act 0x0E83 0 3).answer q 3)) ∧
      (o + 256 ≤ 0x1800000 → s.fwBusy = true ∨ s.flashErased tgt o 256 = false →
        Gives (.fwSlotData q b ok) s (fun t => t = (s.noteAct .act 0x0E83 0 2).answer q 2)) ∧
      (o + 256 ≤ 0x1800000 → s.fwBusy = false → s.flashErased tgt o 256 = true → Acts (.fwSlotData q b ok) q s (fun u =>
        (ok = true → (s.hub 0).fenced = false → u.flashRead tgt o 256 = b ∧
          u.flash = { s.flash with bytes := u.flash.bytes, fwOffset := o + 256, fwResult := 0 }) ∧
        (ok = false → (s.hub 0).fenced = false → u.flash = { s.flash with bytes := u.flash.bytes, fwResult := 1 }) ∧
        ((s.hub 0).fenced = true → u = { s.taken 0x0E83 0 b with flash := { s.flash with fwResult := 1 } })))) ∧
    ∀ (q : OdReq) (v : BitVec 8) (s : State), s.admits q 0x0E84 (leBytes 1 v.toNat) → s.fwBusy = false → Acts (.fwActivate q v) q s (fun u =>
      ((s.hub 0).fenced = true → u = { s.taken 0x0E84 0 (leBytes 1 v.toNat) with flash := { s.flash with fwResult := 1 } }) ∧
      ((s.hub 0).fenced = false → s.fwOk s.flash.fwTarget = false →
        u = { s.taken 0x0E84 0 (leBytes 1 v.toNat) with flash := { s.flash with fwResult := 2 } }) ∧
      ((s.hub 0).fenced = false → s.fwOk s.flash.fwTarget = true → u.flash = { s.flash with bytes := u.flash.bytes, fwResult := 0 } ∧
        ∀ d, d < 2 → u.flashRead d 0x1800000 1 = leBytes 1 s.flash.fwTarget)))

/-- DeviceReset of 0xA5 begins a record with cause RESET and waits for it before the reset with cause OBJECT; with the north hub fenced no
record can be written and the reset acts at once (R437, R466, R485); another value is refused as INVALID. DebugLock, and an open debug
state whose time has passed, reset in the same way with cause DEBUG (R461). -/
def Obligations.ResetsWaitForTheirRecord : Prop :=
  (∀ (q : OdReq) (v : BitVec 8) (s : State), s.admits q 0x0202 (leBytes 1 v.toNat) →
    let u0 := s.taken 0x0202 0 (leBytes 1 v.toNat)
    (v = 0xA5 → (s.hub 0).fenced = false → s.box.writing = none → Acts (.deviceReset q v) q s (fun u =>
      u = { u0 with boot := { s.boot with resetWait := some 2 }, box := { s.box with writing := some (5, s.boxBytes 5 s.box.next) } })) ∧
    (v = 0xA5 → (s.hub 0).fenced = true → Acts (.deviceReset q v) q s (fun u => u = s.cold .on 2)) ∧
    (v ≠ 0xA5 → Gives (.deviceReset q v) s (fun t => t = (s.noteAct .act 0x0202 0 3).answer q 3))) ∧
  (∀ (q : OdReq) (v : BitVec 8) (s : State), s.admits q 0x0C34 (leBytes 1 v.toNat) → (s.hub 0).fenced = false → s.box.writing = none →
    Acts (.debugLock q v) q s (fun u => u = { s.taken 0x0C34 0 (leBytes 1 v.toNat) with
      boot := { s.boot with resetWait := some 3 }, box := { s.box with writing := some (5, s.boxBytes 5 s.box.next) } })) ∧
  ∀ s : State, s.busUp = true → s.sec.dbgOpen = true →
    (s.tsc < s.sec.dbgEnd → Gives .debugExpire s (fun t => t = s)) ∧
    (s.sec.dbgEnd ≤ s.tsc → s.boot.resetWait = none → (s.hub 0).fenced = false → s.box.writing = none → Gives .debugExpire s (fun t =>
      t = { s with boot := { s.boot with resetWait := some 3 }, box := { s.box with writing := some (5, s.boxBytes 5 s.box.next) } }))

/-! Security. -/

/-- OwnerCommit of a voucher that passes its checks burns the new owner's digest into its slot, or the slot's release fuse; the job key,
FmKey and JobImageList are erased, CredEpochFloor is 0, and every port that trains or is up goes DOWN; a voucher that fails is INVALID,
and a good one is refused as STATE while an image or the Husk is in use (R449 to R451). SvnRaise burns SvnFloor up to RunningSvn and
extends MR2, and is INVALID when it would not raise it (R444, R445). -/
def Obligations.OwnershipMovesFuses : Prop :=
  (∀ (q : OdReq) (v : BitVec 8) (s : State), s.admits q 0x0C05 (leBytes 1 v.toNat) → Gives (.ownerCommit q v) s (fun t =>
    let busy := s.schedBusy = true ∨ ¬ (s.husk.st = 0 ∨ s.husk.st = 12)
    (s.voucherOk = false → t = (s.noteAct .act 0x0C05 0 3).answer q 3) ∧
    (s.voucherOk = true → busy → t = (s.noteAct .act 0x0C05 0 2).answer q 2) ∧
    (s.voucherOk = true → ¬ busy →
      t.fuses = (if vKind s.sec.voucher = 3 then { s.fuses with released := s.fuses.released ++ [vSlot s.sec.voucher] }
        else { s.fuses with slots := s.fuses.slots ++ [vNew s.sec.voucher] }) ∧
      t.jobKey = [] ∧ t.sec.jobId = 0 ∧ t.jobImages = [] ∧ t.sec.fmKey = zeros 32 ∧ t.sec.credFloor = 0 ∧
      ∀ p, p < 40 → 2 ≤ (s.port p).st → (t.port p).st = 1))) ∧
  (∀ (q : OdReq) (v : BitVec 8) (s : State), s.admits q 0x0C24 (leBytes 1 v.toNat) →
    (s.fuses.svnFloor < s.sec.runningSvn → Acts (.svnRaise q v) q s (fun u => u.fuses = { s.fuses with svnFloor := s.sec.runningSvn } ∧
      u.sec = { s.sec with mr2 := extendMr s.sec.mr2 u.mr2Input } ∧ u.cores = s.cores ∧ u.mem = s.mem)) ∧
    (s.sec.runningSvn ≤ s.fuses.svnFloor → Gives (.svnRaise q v) s (fun t => t = (s.noteAct .act 0x0C24 0 3).answer q 3)))

/-- JobKey sets the job key and its identifier, and the counts of tree packets start anew; JobRelease erases the key and zeroes HBM and
the scratchpads; both are refused as STATE while an image or the Husk is in use (R452, R458). A JobImageList entry extends MR2 (R445,
R453). -/
def Obligations.JobsTakeAndReleaseTheModule : Prop :=
  (∀ (q : OdReq) (b : List Byte) (s : State), s.admits q 0x0C10 b → b.length = 40 →
    (s.jobBusy = false → Acts (.jobKey q b) q s (fun u => u = { s with
      jobKey := b.take 32, sec := { s.sec with jobId := leAt b 32 8 }, fab := { s.fab with tseq := 0, wins := [] }, log := u.log })) ∧
    (s.jobBusy = true → Gives (.jobKey q b) s (fun t => t = s.answer q 2))) ∧
  (∀ (q : OdReq) (v : BitVec 8) (s : State), s.admits q 0x0C12 (leBytes 1 v.toNat) →
    (s.jobBusy = false → Acts (.jobRelease q v) q s (fun u => u.jobKey = [] ∧ u.sec = { s.sec with jobId := 0 } ∧ u.mem.hbm = [] ∧
      (∀ c, (u.core c).spad = [] ∧ (u.core c).vxe = (s.core c).vxe ∧ (u.core c).seq = (s.core c).seq) ∧
      (∀ r, (u.region r).sets = [] ∧ (u.region r).poison = []) ∧ u.fuses = s.fuses)) ∧
    (s.jobBusy = true → Gives (.jobRelease q v) s (fun t => t = (s.noteAct .act 0x0C12 0 2).answer q 2))) ∧
  ∀ (q : OdReq) (k : Fin 16) (b : List Byte) (s : State), s.admits q 0x0C13 b → b.length = 32 →
    Acts (.jobImageListWrite q k b) q s (fun u => u = { s with jobImages := u.jobImages, sec := { s.sec with mr2 := u.sec.mr2 } } ∧
      u.jobImages.get (zeros 32) (k.val + 1) = b ∧ (∀ i, i ≠ k.val + 1 → u.jobImages.get (zeros 32) i = s.jobImages.get (zeros 32) i) ∧
      u.sec.mr2 = extendMr s.sec.mr2 u.mr2Input)

/-- AttestNonce takes a nonce, and AttestReport then holds the report over it (R446, R447). DebugUnlock of a token that passes its checks
erases the job key, opens the debug state with the token's scopes for its seconds, and in every case DebugNonce is drawn anew (R460,
R461). A failed entropy source is counted and not used again (R441). -/
def Obligations.AttestationDebugEntropy : Prop :=
  (∀ (q : OdReq) (b : List Byte) (s : State), s.admits q 0x0C21 b → b.length = 32 →
    Acts (.attestNonce q b) q s (fun u => u = { s.taken 0x0C21 0 b with sec := { s.sec with nonce := some b } })) ∧
  (∀ (n : List Byte) (s : State), s.sec.nonce = some n → s.busUp = true →
    Gives .attestReportReady s (fun t => t = { s with sec := { s.sec with nonce := none, report := s.reportOver n } })) ∧
  (∀ (q : OdReq) (v : BitVec 8) (s : State), s.admits q 0x0C33 (leBytes 1 v.toNat) → s.logHub ∉ s.sec.entropyBad →
    Gives (.debugUnlock q v) s (fun t =>
      let busy := s.sec.dbgOpen = true ∨ s.jobBusy = true
      t.sec.dbgNonce = Config.random32 s.rndCtr ∧ t.rndCtr = s.rndCtr + 1 ∧
      (s.tokenOk = false ∨ busy → t.sec = { s.sec with dbgNonce := t.sec.dbgNonce } ∧ t.jobKey = s.jobKey ∧ t.ports = s.ports ∧
        t.actStatus.get 0 (actKey 0x0C33 0) = if s.tokenOk then 2 else 3) ∧
      (s.tokenOk = true → ¬ busy → t.jobKey = [] ∧ t.sec.dbgOpen = true ∧ t.sec.dbgScope = BitVec.ofNat 4 (leAt s.sec.dbgToken 0 2) ∧
        t.sec.dbgEnd = s.tsc + leAt s.sec.dbgToken 4 4 * 400000000 ∧ ∀ p, p < 40 → 2 ≤ (s.port p).st → (t.port p).st = 1))) ∧
  ∀ (h : Fin 2) (s : State), s.busUp = true → (s.hub h).clken.getLsbD 4 = true → (s.hub h).fenced = false →
    Gives (.entropyFail h) s (fun t => t = { s with sec := t.sec, log := t.log } ∧
      t.sec = { s.sec with entropyFails := s.sec.entropyFails + 1, entropyBad := t.sec.entropyBad } ∧
      ∀ k, k ∈ t.sec.entropyBad ↔ k ∈ s.sec.entropyBad ∨ k = h.val)

/-! Power-on, boot, black box, firmware slots. -/

/-- Input power, the hold-up store and the pins move the module from no power to its reset and out of it, with the cause of each reset; a
reset keeps only the pins, the flash and the fuses (R464 to R466, R492, R493, R501, R503). The management port is lit only under its
enable (R437), and the test access port answers as R502 says. -/
def Obligations.PowerAndPins : Prop :=
  ∀ s : State,
    (s.boot.phase = .off ∨ s.boot.phase = .safe → Gives .powerOn s (fun t => t = s.cold .charging 0 ∧ t.life = 0 ∧ t.cores = [] ∧
      t.fuses = s.fuses ∧ t.flash = { bytes := s.flash.bytes })) ∧
    (s.boot.phase = .charging → Gives .holdupCharged s (fun t => t = { s with boot := { s.boot with
      phase := if s.boot.pinLow then .held else .on, resetCause := if s.boot.pinLow then 1 else s.boot.resetCause } })) ∧
    (s.boot.phase = .charging → Gives .inputFallWhileCharging s (fun t => t = { s with boot := { s.boot with phase := .off } })) ∧
    (s.boot.pinLow = false → s.boot.phase = .on ∨ s.boot.phase = .waitExt → Gives .resetNAssert s (fun t => t.boot.phase = .held ∧
      t.boot.pinLow = true ∧ t.boot.extLow = s.boot.extLow ∧ t.boot.resetCause = 1 ∧ t.life = 0 ∧ t.cores = [] ∧ t.mem.hbm = [] ∧
      t.fuses = s.fuses ∧ (s.box.writing = none → t.flash.bytes = s.flash.bytes))) ∧
    (s.boot.pinLow = false → s.boot.phase = .charging → Gives .resetNAssert s (fun t => t = { s with boot := { s.boot with
      pinLow := true, resetCause := 1 } })) ∧
    (s.boot.pinLow = true → Gives .resetNRelease s (fun t => t = { s with boot := { s.boot with
      pinLow := false, phase := if s.boot.phase = .held then (if s.boot.extLow then .waitExt else .on) else s.boot.phase } })) ∧
    (s.boot.pinLow = true → Gives .flashExtNAssert s (fun t => t = { s with boot := { s.boot with extLow := true } })) ∧
    Gives .flashExtRelease s (fun t => t = { s with boot := { s.boot with
      extLow := false, phase := if s.boot.phase = .waitExt then .on else s.boot.phase } }) ∧
    (∀ up, Gives (.mgmtBlockLock up) s (fun t => t = { s with mgmt := { s.mgmt with
      linkUp := up && (s.powered && (s.hub 0).clken.getLsbD 5 && !(s.hub 0).fenced) } })) ∧
    (∀ i, s.powered = true → Gives (.testAccessPort i) s (fun t => ∃ served, t = { s with out := .tap i served :: s.out } ∧
      ∀ b, i = .scoped b → served = (s.sec.dbgOpen && s.sec.dbgScope.getLsbD b)))

/-- The boot ROM measures itself, takes the first slot that passes, or enters the Shell state for want of an image; a kernel that fails
its check leaves the module in its safe state, and nothing of this happens while the north hub is fenced (R18, R445, R468 to R470, R477).
The firmware starts the self-test (R468), whose items go on from 1 to 9, end it in the Shell state at a failure or after 90 s, and end it
in READY with zeroed memory and every enable set (R471 to R476). -/
def Obligations.BootEndsInReadyOrShell : Prop :=
  (∀ s : State, s.boot.phase = .on → s.clock.locked = true → s.life = 0 → s.boot.rom = false → (s.hub 0).fenced = false →
    Gives (.bootRomStart false) s (fun t => t = s.cold .safe s.boot.resetCause) ∧
    Gives (.bootRomStart true) s (fun t => t.boot.rom = true ∧ t.fuses = s.fuses ∧ t.flash.bytes = s.flash.bytes ∧
      t.sec.mr0 = extendMr s.sec.mr0 (slice Config.romVersion 0 4 ++ digest Config.vendorFwKey ++ digest Config.vendorCaKey) ∧
      (t.boot.bootSlot = 0 ∨ t.boot.bootSlot = 1 ∨ t.boot.bootSlot = 0xFF) ∧
      (t.boot.bootSlot = 0xFF → t.life = 5 ∧ t.boot.shellCause = 1 ∧ ∀ p, p < 40 → (t.port p).st = 0) ∧
      (t.boot.bootSlot ≠ 0xFF → t.life = 0 ∧ t.boot.accepted = true ∧ t.flash.fwTarget = 1 - t.boot.bootSlot ∧
        t.sec.fwDigest = digest (s.fwHdr t.boot.bootSlot) ∧ t.sec.runningSvn = fwSvn (s.fwHdr t.boot.bootSlot)))) ∧
  (∀ (rep : ItemReport) (b : Bool) (s : State), (s.hub 0).fenced = true → Gives (.bootRomStart b) s (fun t => t = s) ∧
    Gives .firmwareStart s (fun t => t = s) ∧ Gives (.selftestItem rep) s (fun t => t = s)) ∧
  (∀ s : State, s.busUp = true → s.life = 0 → s.boot.accepted = true → (s.hub 0).fenced = false → Gives .firmwareStart s (fun t => t.life = 1 ∧ t.lifeSince = s.tsc ∧
    t.boot = { s.boot with accepted := false, item := 1, testStart := s.tsc } ∧
    t.sec = { s.sec with mr1 := extendMr s.sec.mr1 s.sec.fwDigest, mr2 := extendMr s.sec.mr2 s.mr2Input })) ∧
  (∀ (rep : ItemReport) (s : State), s.busUp = true → s.life = 1 → s.boot.item ≠ 0 → (s.hub 0).fenced = false →
    Gives (.selftestItem rep) s (fun t => t.boot.results.get 0 s.boot.item = itemOutcome s.boot.item rep ∧
      (itemOutcome s.boot.item rep = 4 → t.life = 5 ∧ t.boot.shellCause = 2 ∧ t.boot.failItem = s.boot.item ∧
        ∀ p, p < 40 → (t.port p).st = 0) ∧
      (itemOutcome s.boot.item rep ≠ 4 → s.boot.item ≠ 9 → t.life = 1 ∧ t.boot.item = s.boot.item + 1) ∧
      (itemOutcome s.boot.item rep ≠ 4 → s.boot.item = 9 → t.life = 2 ∧ t.boot.item = 0 ∧ t.boot.testEnd = some s.tsc ∧ t.mem.hbm = [] ∧
        (∀ c, (t.core c).spad = []) ∧ (∀ r, r < 24 → (t.region r).clken = 3) ∧
        ∀ h, h < 2 → (t.hub h).fenced = false → (t.hub h).clken = (if h = 0 then 0xFF else 0x1F) ∧ (t.hub h).cpuEn = 0xFF))) ∧
  ∀ s : State, s.busUp = true → s.life = 1 → s.boot.item ≠ 0 → s.boot.testStart + 36000000000 ≤ s.tsc →
    Gives .selftestTimeout s (fun t => t.life = 5 ∧ t.boot.shellCause = 3 ∧ t.boot.failItem = s.boot.item ∧
      t.boot.results.get 0 s.boot.item = 4)

/-- BlackBoxWrite begins a record, or has it wait behind the one in progress (R483, R485); a record that ends stands in its slot of each
device that programmed it and the next number follows, and a reset that waited for it acts (R466, R484). BlackBoxSelect shows a record of
the ring with the copy that passes its check (R486); a background erase frees its slot (R484). With the north hub fenced the flash is lost
and does not change (R17; the answers and the torn record are the model's choice, log 80). -/
def Obligations.RecordsOfTheBlackBox : Prop :=
  (∀ (q : OdReq) (v : BitVec 8) (s : State), s.admits q 0x0E04 (leBytes 1 v.toNat) →
    let u0 := s.taken 0x0E04 0 (leBytes 1 v.toNat)
    ((s.hub 0).fenced = true → Gives (.blackBoxWrite q v) s (fun t => t = (s.noteAct .act 0x0E04 0 2).answer q 2)) ∧
    ((s.hub 0).fenced = false → s.box.writing = none → Acts (.blackBoxWrite q v) q s (fun u =>
      u = { u0 with box := { s.box with writing := some (6, s.boxBytes 6 s.box.next) } })) ∧
    ((s.hub 0).fenced = false → s.box.writing ≠ none → s.box.waiting = none → Acts (.blackBoxWrite q v) q s (fun u =>
      u = { u0 with box := { s.box with waiting := some 6 } }))) ∧
  (∀ (f0 f1 : Bool) (c : Nat) (b : List Byte) (s : State), s.busUp = true → s.box.writing = some (c, b) → b.length = 4096 →
    s.box.waiting = none → (s.hub 0).fenced = false →
    (s.boot.resetWait = none → Gives (.blackboxWritten f0 f1) s (fun t => t.box.writing = none ∧ t.box.next = s.box.next + 1 ∧
      t.box.newest = (if f0 && f1 then s.box.newest else s.box.next) ∧
      t.box.failures = s.box.failures + (if f0 then 1 else 0) + (if f1 then 1 else 0) ∧
      (f0 = false → t.boxCopy 0 (s.box.next % 8192) = b) ∧ (f1 = false → t.boxCopy 1 (s.box.next % 8192) = b))) ∧
    (∀ k, s.boot.resetWait = some k → Gives (.blackboxWritten f0 f1) s (fun t => t.boot.phase = .on ∧ t.boot.resetCause = k ∧ t.life = 0 ∧
      t.cores = [] ∧ t.fuses = s.fuses ∧ (f0 = false → t.boxCopy 0 (s.box.next % 8192) = b)))) ∧
  (∀ (f0 f1 : Bool) (c : Nat) (b : List Byte) (s : State), s.busUp = true → s.box.writing = some (c, b) → (s.hub 0).fenced = true →
    Gives (.blackboxWritten f0 f1) s (fun t => t = match s.boot.resetWait with | some k => s.boxLost.cold .on k | none => s.boxLost)) ∧
  (∀ (q : OdReq) (r : BitVec 64) (s : State), s.admits q 0x0E01 (leBytes 8 r.toNat) →
    let n := r.toNat
    let b0 := s.boxCopy 0 (n % 8192)
    let b1 := s.boxCopy 1 (n % 8192)
    let legal := 1 ≤ n ∧ n ≤ s.box.newest ∧ s.box.newest < n + 8192
    (¬ legal → Gives (.blackBoxSelect q r) s (fun t => t = s.answer q 3)) ∧
    (legal → (s.hub 0).fenced = true → Gives (.blackBoxSelect q r) s (fun t => t = s.answer q 2)) ∧
    (legal → (s.hub 0).fenced = false → Acts (.blackBoxSelect q r) q s (fun u => ∃ st dt, u = { s with box := { s.box with select := n, status := st, data := dt } } ∧
      (boxIs b0 n = true → boxTagOk b0 = true → st = 0 ∧ dt = b0) ∧
      (¬ (boxIs b0 n = true ∧ boxTagOk b0 = true) → boxIs b1 n = true → boxTagOk b1 = true → st = 1 ∧ dt = b1) ∧
      (boxIs b0 n = true → boxTagOk b0 = false → boxTagOk b1 = false → st = 2 ∧ dt = b0) ∧
      (boxIs b0 n = false → boxIs b1 n = false → st = 3 ∧ dt = zeros 4096)))) ∧
  ∀ (slot : Fin 8192) (ok0 ok1 : Bool) (s : State), slot.val ∈ s.box.erasing → s.clock.lost = false → Gives (.backgroundEraseDone slot ok0 ok1) s (fun t =>
    t = { s with flash := { s.flash with bytes := t.flash.bytes }, box := { s.box with erasing := s.box.erasing.erase slot.val } } ∧
    (∀ ok (d : Nat), (ok, d) ∈ [(ok0, 0), (ok1, 1)] →
      (ok = true → (s.hub 0).fenced = false → t.boxCopy d slot = List.replicate 4096 0xFF) ∧
      (ok = false ∨ (s.hub 0).fenced = true → t.boxCopy d slot = s.boxCopy d slot)))

/-! The module as a whole. -/

/-- A step takes the command at the front of the queue and runs it on the state with the rest of the queue; with an empty queue a tick of
the time base passes (the model's choice, log 7). -/
def Obligations.StepRunsTheFrontCommand : Prop :=
  (∀ (i : Instr) (rest : List Instr) (s : State), s.pending = i :: rest → step s = exec i { s with pending := rest }) ∧
  ∀ s : State, s.pending = [] → step s = Host.Outcome.next s.timeTick

/-- Every command answers a next state, and leaves the commands that wait as they are (the model's choice, log 1). -/
def Obligations.EveryCommandCompletes : Prop := ∀ (i : Instr) (s : State), Gives i s (fun t => t.pending = s.pending)

/-- Whatever a step runs, the fuses move one way: unchanged, one more owner slot burnt, the slot in force released, or SvnFloor raised
(R444, R449, R451). -/
def Obligations.FusesMoveOneWay : Prop := ∀ s t : State, step s = Host.Outcome.next t → s.fuses.Moves t.fuses

/-- At most four owner slots are burnt, and each release fuse that is burnt belongs to one of them, after every step from a state in which
it is so (R449). -/
def Obligations.FusesStayLegal : Prop := ∀ s t : State, step s = Host.Outcome.next t → s.fuses.Legal → t.fuses.Legal

/-- After reset the fuses are legal and every memory with an address space is in its canonical form (the model's representation), no
command waits, and registers hold the reset values the spec gives: lifecycle BOOT (log 5), ClockRefMax 2, MgmtIdleLimit 10,000 ms,
MgmtUdpPort 20,563, prefix 64, StallLimit 100,000, CeEventThreshold 1,000, ScrubPeriod 24, RemoteReadLimit, SysDims, BlackBoxStatus
ABSENT, BootSlot 0xFF, OptFailGroup 0xFFFF, OptGradScale 1.0, ScheduleState EMPTY; every port is DOWN, every core gated with RLEN 96. -/
def Obligations.ResetHoldsItsValues : Prop :=
  State.reset.fuses.Legal ∧ State.reset.memWf ∧ State.reset.pending = [] ∧ State.reset.life = 0 ∧ State.reset.clock.refMax = 2 ∧
  State.reset.mgmt.idle = 10000 ∧ State.reset.mgmt.udp = 20563 ∧ State.reset.mgmt.prefixLen = 64 ∧
  State.reset.sched.stallLimit = 100000 ∧ State.reset.mem.ceThreshold = 1000 ∧ State.reset.mem.scrubPeriod = 24 ∧
  State.reset.mem.remoteLimit = 0xD800000000 ∧ State.reset.fab.sysDims = 0x1FFFF ∧ State.reset.box.status = 3 ∧
  State.reset.boot.bootSlot = 0xFF ∧ State.reset.opt.failGroup = 0xFFFF ∧ State.reset.opt.gscale = 0x3F800000 ∧ State.reset.sched.st = 0 ∧
  (∀ p, (State.reset.port p).st = 1) ∧
  ∀ c, (State.reset.core c).vxe.rlen = 96 ∧ (State.reset.core c).seq.st = 0 ∧ (State.reset.core c).clken = 0

end
end

