-- ==== Sys2Proof/Laws/FrameBase.lean ====
section
/-! SUPPORT. The queue and the fuses through folds and choices. -/

namespace Sys2Proof.Machine

@[simp] theorem foldl_pending {α : Type} (f : State → α → State) (h : ∀ s x, (f s x).pending = s.pending) (xs : List α) (s : State) :
    (xs.foldl f s).pending = s.pending := by
  induction xs generalizing s with
  | nil => rfl
  | cons x xs ih => rw [List.foldl_cons, ih, h]

@[simp] theorem foldl_fuses {α : Type} (f : State → α → State) (h : ∀ s x, (f s x).fuses = s.fuses) (xs : List α) (s : State) :
    (xs.foldl f s).fuses = s.fuses := by
  induction xs generalizing s with
  | nil => rfl
  | cons x xs ih => rw [List.foldl_cons, ih, h]

@[simp] theorem forEach_pending {α : Type} (f : State → α → State) (h : ∀ s x, (f s x).pending = s.pending) (xs : List α) (s : State) :
    (s.forEach xs f).pending = s.pending := foldl_pending f h xs s

@[simp] theorem forEach_fuses {α : Type} (f : State → α → State) (h : ∀ s x, (f s x).fuses = s.fuses) (xs : List α) (s : State) :
    (s.forEach xs f).fuses = s.fuses := foldl_fuses f h xs s

theorem foldl_fst_pending {α β : Type} (f : State × β → α → State × β) (xs : List α) (a : State × β)
    (h : ∀ a x, (f a x).1.pending = a.1.pending) : (xs.foldl f a).1.pending = a.1.pending := by
  induction xs generalizing a with
  | nil => rfl
  | cons x xs ih => rw [List.foldl_cons, ih, h]

theorem foldl_fst_fuses {α β : Type} (f : State × β → α → State × β) (xs : List α) (a : State × β)
    (h : ∀ a x, (f a x).1.fuses = a.1.fuses) : (xs.foldl f a).1.fuses = a.1.fuses := by
  induction xs generalizing a with
  | nil => rfl
  | cons x xs ih => rw [List.foldl_cons, ih, h]

end Sys2Proof.Machine
end

