-- ==== Sys2Proof/Laws/FramesEngines.lean ====
section
/-! SUPPORT. The operations of the cores, their engines and the memory leave the waiting commands and the fuses as they are. -/

namespace Sys2Proof.Machine

@[simp] theorem State.updCore_keeps (s : State) (c : Nat) (f : CoreSt → CoreSt) :
    (State.updCore s c f).pending = s.pending ∧ (State.updCore s c f).fuses = s.fuses := by
  simp only [State.updCore]
  constructor <;> (repeat' split) <;> simp [apply_ite State.pending, apply_ite State.fuses]

@[simp] theorem State.updHub_keeps (s : State) (h : Nat) (f : HubSt → HubSt) :
    (State.updHub s h f).pending = s.pending ∧ (State.updHub s h f).fuses = s.fuses := by
  simp only [State.updHub]
  constructor <;> (repeat' split) <;> simp [apply_ite State.pending, apply_ite State.fuses]

@[simp] theorem State.updPort_keeps (s : State) (p : Nat) (f : PortSt → PortSt) :
    (State.updPort s p f).pending = s.pending ∧ (State.updPort s p f).fuses = s.fuses := by
  simp only [State.updPort]
  constructor <;> (repeat' split) <;> simp [apply_ite State.pending, apply_ite State.fuses]

@[simp] theorem State.updRegion_keeps (s : State) (r : Nat) (f : RegionSt → RegionSt) :
    (State.updRegion s r f).pending = s.pending ∧ (State.updRegion s r f).fuses = s.fuses := by
  simp only [State.updRegion]
  constructor <;> (repeat' split) <;> simp [apply_ite State.pending, apply_ite State.fuses]

@[simp] theorem State.updAdapter_keeps (s : State) (a : Nat) (f : AdapterSt → AdapterSt) :
    (State.updAdapter s a f).pending = s.pending ∧ (State.updAdapter s a f).fuses = s.fuses := by
  simp only [State.updAdapter]
  constructor <;> (repeat' split) <;> simp [apply_ite State.pending, apply_ite State.fuses]

@[simp] theorem State.post_keeps (s : State) (code : Nat) (sev : Nat) (src : Nat) (args : List Nat) :
    (State.post s code sev src args).pending = s.pending ∧ (State.post s code sev src args).fuses = s.fuses := by
  simp only [State.post]
  constructor <;> (repeat' split) <;> simp [apply_ite State.pending, apply_ite State.fuses]

@[simp] theorem State.setFlagReg_keeps (s : State) (u : FlagUnit) (r : FlagReg) :
    (State.setFlagReg s u r).pending = s.pending ∧ (State.setFlagReg s u r).fuses = s.fuses := by
  simp only [State.setFlagReg]
  constructor <;> (repeat' split) <;> simp [apply_ite State.pending, apply_ite State.fuses]

@[simp] theorem State.flagCycle_keeps (s : State) (u : FlagUnit) (clr : BitVec 4) (set : BitVec 4) :
    (State.flagCycle s u clr set).pending = s.pending ∧ (State.flagCycle s u clr set).fuses = s.fuses := by
  simp only [State.flagCycle]
  constructor <;> (repeat' split) <;> simp [apply_ite State.pending, apply_ite State.fuses]

@[simp] theorem State.raiseFlags_keeps (s : State) (u : FlagUnit) (set : BitVec 4) :
    (State.raiseFlags s u set).pending = s.pending ∧ (State.raiseFlags s u set).fuses = s.fuses := by
  simp only [State.raiseFlags]
  constructor <;> (repeat' split) <;> simp [apply_ite State.pending, apply_ite State.fuses]

@[simp] theorem State.flagClear1_keeps (s : State) (u : FlagUnit) (mask : BitVec 4) (set : BitVec 4) :
    (State.flagClear1 s u mask set).pending = s.pending ∧ (State.flagClear1 s u mask set).fuses = s.fuses := by
  simp only [State.flagClear1]
  constructor <;> (repeat' split) <;> simp [apply_ite State.pending, apply_ite State.fuses]

@[simp] theorem State.flagEnable_keeps (s : State) (u : FlagUnit) :
    (State.flagEnable s u).pending = s.pending ∧ (State.flagEnable s u).fuses = s.fuses := by
  simp only [State.flagEnable]
  constructor <;> (repeat' split) <;> simp [apply_ite State.pending, apply_ite State.fuses]

@[simp] theorem State.setSector_keeps (s : State) (st : Nat) (a : Nat) (bs : List Byte) :
    (State.setSector s st a bs).pending = s.pending ∧ (State.setSector s st a bs).fuses = s.fuses := by
  simp only [State.setSector]
  constructor <;> (repeat' split) <;> simp [apply_ite State.pending, apply_ite State.fuses]

@[simp] theorem State.postUe_keeps (s : State) (st : Nat) (a : Nat) :
    (State.postUe s st a).pending = s.pending ∧ (State.postUe s st a).fuses = s.fuses := by
  simp only [State.postUe]
  constructor <;> (repeat' split) <;> simp [apply_ite State.pending, apply_ite State.fuses]

@[simp] theorem State.countCe_keeps (s : State) (st : Nat) (n : Nat) :
    (State.countCe s st n).pending = s.pending ∧ (State.countCe s st n).fuses = s.fuses := by
  simp only [State.countCe]
  constructor <;> (repeat' split) <;> simp [apply_ite State.pending, apply_ite State.fuses]

@[simp] theorem State.setErr_keeps (s : State) (st : Nat) (a : Nat) (e : HbmErr) :
    (State.setErr s st a e).pending = s.pending ∧ (State.setErr s st a e).fuses = s.fuses := by
  simp only [State.setErr]
  constructor <;> (repeat' split) <;> simp [apply_ite State.pending, apply_ite State.fuses]

@[simp] theorem State.stackReadBy_keeps (s : State) (policy : Nat) (st : Nat) (a : Nat) (err : HbmErr) :
    (State.stackReadBy s policy st a err).1.pending = s.pending ∧ (State.stackReadBy s policy st a err).1.fuses = s.fuses := by
  simp only [State.stackReadBy]
  constructor <;> (repeat' split) <;> simp [apply_ite State.pending, apply_ite State.fuses]

@[simp] theorem State.stackRead_keeps (s : State) (st : Nat) (a : Nat) (err : HbmErr) :
    (State.stackRead s st a err).1.pending = s.pending ∧ (State.stackRead s st a err).1.fuses = s.fuses := by
  simp only [State.stackRead]
  constructor <;> (repeat' split) <;> simp [apply_ite State.pending, apply_ite State.fuses]

@[simp] theorem State.stackWrite_keeps (s : State) (st : Nat) (a : Nat) (bs : List Byte) :
    (State.stackWrite s st a bs).pending = s.pending ∧ (State.stackWrite s st a bs).fuses = s.fuses := by
  simp only [State.stackWrite]
  constructor <;> (repeat' split) <;> simp [apply_ite State.pending, apply_ite State.fuses]

@[simp] theorem State.admit_keeps (s : State) (r : Nat) (q : MemReq) :
    (State.takeSlotFor s r q).pending = s.pending ∧ (State.takeSlotFor s r q).fuses = s.fuses := by
  simp only [State.takeSlotFor]
  constructor <;> (repeat' split) <;> simp [apply_ite State.pending, apply_ite State.fuses]

@[simp] theorem State.toStack_keeps (s : State) (r : Nat) (q : MemReq) :
    (State.toStack s r q).pending = s.pending ∧ (State.toStack s r q).fuses = s.fuses := by
  simp only [State.toStack]
  constructor <;> (repeat' split) <;> simp [apply_ite State.pending, apply_ite State.fuses]

@[simp] theorem State.setLines_keeps (s : State) (st : Nat) (a : Nat) (ls : List Line) :
    (State.setLines s st a ls).pending = s.pending ∧ (State.setLines s st a ls).fuses = s.fuses := by
  simp only [State.setLines]
  constructor <;> (repeat' split) <;> simp [apply_ite State.pending, apply_ite State.fuses]

@[simp] theorem State.evict_keeps (s : State) (st : Nat) (n : Nat) (v : Line) :
    (State.evict s st n v).pending = s.pending ∧ (State.evict s st n v).fuses = s.fuses := by
  simp only [State.evict]
  constructor <;> (repeat' split) <;> simp [apply_ite State.pending, apply_ite State.fuses]

@[simp] theorem State.allocLine_keeps (s : State) (st : Nat) (n : Nat) (l : Line) :
    (State.allocLine s st n l).pending = s.pending ∧ (State.allocLine s st n l).fuses = s.fuses := by
  simp only [State.allocLine]
  constructor <;> (repeat' split) <;> simp [apply_ite State.pending, apply_ite State.fuses]

@[simp] theorem State.touchLine_keeps (s : State) (st : Nat) (l : Line) (hint : Nat) :
    (State.touchLine s st l hint).pending = s.pending ∧ (State.touchLine s st l hint).fuses = s.fuses := by
  simp only [State.touchLine]
  constructor <;> (repeat' split) <;> simp [apply_ite State.pending, apply_ite State.fuses]

@[simp] theorem State.mscReadBy_keeps (s : State) (policy : Nat) (n : Nat) (st : Nat) (a : Nat) (hint : Nat) (err : HbmErr) :
    (State.mscReadBy s policy n st a hint err).1.pending = s.pending ∧ (State.mscReadBy s policy n st a hint err).1.fuses = s.fuses := by
  simp only [State.mscReadBy]
  constructor <;> (repeat' split) <;> simp [apply_ite State.pending, apply_ite State.fuses]

@[simp] theorem State.mscWriteBy_keeps (s : State) (policy : Nat) (n : Nat) (st : Nat) (a : Nat) (off : Nat) (bs : List Byte) (hint : Nat) (err : HbmErr) :
    (State.mscWriteBy s policy n st a off bs hint err).1.pending = s.pending ∧ (State.mscWriteBy s policy n st a off bs hint err).1.fuses = s.fuses := by
  simp only [State.mscWriteBy]
  constructor <;> (repeat' split) <;> simp [apply_ite State.pending, apply_ite State.fuses]

@[simp] theorem State.mscRead_keeps (s : State) (n : Nat) (st : Nat) (a : Nat) (hint : Nat) (err : HbmErr) :
    (State.mscRead s n st a hint err).1.pending = s.pending ∧ (State.mscRead s n st a hint err).1.fuses = s.fuses := by
  simp only [State.mscRead]
  constructor <;> (repeat' split) <;> simp [apply_ite State.pending, apply_ite State.fuses]

@[simp] theorem State.mscWrite_keeps (s : State) (n : Nat) (st : Nat) (a : Nat) (off : Nat) (bs : List Byte) (hint : Nat) (err : HbmErr) :
    (State.mscWrite s n st a off bs hint err).1.pending = s.pending ∧ (State.mscWrite s n st a off bs hint err).1.fuses = s.fuses := by
  simp only [State.mscWrite]
  constructor <;> (repeat' split) <;> simp [apply_ite State.pending, apply_ite State.fuses]

@[simp] theorem State.memRead_keeps (s : State) (w o n hint : Nat) (err : HbmErr) :
    (State.memRead s w o n hint err).1.pending = s.pending ∧ (State.memRead s w o n hint err).1.fuses = s.fuses := by
  constructor <;> (unfold State.memRead; first | (rw [foldl_fst_pending]; intro a x; simp) | (rw [foldl_fst_fuses]; intro a x; simp))

@[simp] theorem State.memWrite_keeps (s : State) (w o : Nat) (bs : List Byte) (hint : Nat) (err : HbmErr) :
    (State.memWrite s w o bs hint err).1.pending = s.pending ∧ (State.memWrite s w o bs hint err).1.fuses = s.fuses := by
  constructor <;> (simp only [State.memWrite]; first | (rw [foldl_fst_pending]; intro a x; simp) | (rw [foldl_fst_fuses]; intro a x; simp))

@[simp] theorem State.devWrite_keeps (s : State) (o : Nat) (bs : List Byte) :
    (State.devWrite s o bs).pending = s.pending ∧ (State.devWrite s o bs).fuses = s.fuses := by
  simp only [State.devWrite]
  constructor <;> (repeat' split) <;> simp [apply_ite State.pending, apply_ite State.fuses]

@[simp] theorem State.devRead_keeps (s : State) (o : Nat) (n : Nat) :
    (State.devRead s o n).1.pending = s.pending ∧ (State.devRead s o n).1.fuses = s.fuses := by
  simp only [State.devRead]
  constructor <;> (repeat' split) <;> simp [apply_ite State.pending, apply_ite State.fuses]

@[simp] theorem State.devTouch_keeps (s : State) (o : Nat) (n : Nat) :
    (State.devTouch s o n).pending = s.pending ∧ (State.devTouch s o n).fuses = s.fuses := by
  simp only [State.devTouch]
  constructor <;> (repeat' split) <;> simp [apply_ite State.pending, apply_ite State.fuses]

@[simp] theorem State.spadWrite_keeps (s : State) (c : Nat) (a : Nat) (bs : List Byte) :
    (State.spadWrite s c a bs).pending = s.pending ∧ (State.spadWrite s c a bs).fuses = s.fuses := by
  simp only [State.spadWrite]
  constructor <;> (repeat' split) <;> simp [apply_ite State.pending, apply_ite State.fuses]



@[simp] theorem State.setLife_keeps (s : State) (l : Nat) :
    (State.setLife s l).pending = s.pending ∧ (State.setLife s l).fuses = s.fuses := by
  simp only [State.setLife]
  constructor <;> (repeat' split) <;> simp [apply_ite State.pending, apply_ite State.fuses]

@[simp] theorem State.lifeRefresh_keeps (s : State) :
    (State.lifeRefresh s).pending = s.pending ∧ (State.lifeRefresh s).fuses = s.fuses := by
  simp only [State.lifeRefresh]
  constructor <;> (repeat' split) <;> simp [apply_ite State.pending, apply_ite State.fuses]

@[simp] theorem State.setSched_keeps (s : State) (st : Nat) :
    (State.setSched s st).pending = s.pending ∧ (State.setSched s st).fuses = s.fuses := by
  simp only [State.setSched]
  constructor <;> (repeat' split) <;> simp [apply_ite State.pending, apply_ite State.fuses]

@[simp] theorem State.endSegment_keeps (s : State) (c : Nat) (endk : Nat) :
    (State.endSegment s c endk).pending = s.pending ∧ (State.endSegment s c endk).fuses = s.fuses := by
  simp only [State.endSegment]
  constructor <;> (repeat' split) <;> simp [apply_ite State.pending, apply_ite State.fuses]

@[simp] theorem State.steCancel_keeps (s : State) (c : Nat) :
    (State.steCancel s c).pending = s.pending ∧ (State.steCancel s c).fuses = s.fuses := by
  simp only [State.steCancel]
  constructor <;> (repeat' split) <;> simp [apply_ite State.pending, apply_ite State.fuses]

@[simp] theorem State.abandonCore_keeps (s : State) (c : Nat) :
    (State.abandonCore s c).pending = s.pending ∧ (State.abandonCore s c).fuses = s.fuses := by
  simp only [State.abandonCore]
  constructor <;> (repeat' split) <;> simp [apply_ite State.pending, apply_ite State.fuses]

@[simp] theorem State.haltSeq_keeps (s : State) (fcode : Nat) (c : Nat) :
    (State.haltSeq s fcode c).pending = s.pending ∧ (State.haltSeq s fcode c).fuses = s.fuses := by
  simp only [State.haltSeq]
  constructor <;> (repeat' split) <;> simp [apply_ite State.pending, apply_ite State.fuses]

@[simp] theorem State.freeIngress_keeps (s : State) (p : Nat) (code : Nat) (n : Nat) :
    (State.freeIngress s p code n).pending = s.pending ∧ (State.freeIngress s p code n).fuses = s.fuses := by
  simp only [State.freeIngress]
  constructor <;> (repeat' split) <;> simp [apply_ite State.pending, apply_ite State.fuses]

@[simp] theorem State.freePackets_keeps (s : State) (code : Nat) (ps : List (Nat × Packet)) :
    (State.freePackets s code ps).pending = s.pending ∧ (State.freePackets s code ps).fuses = s.fuses := by
  simp only [State.freePackets]
  constructor <;> (repeat' split) <;> simp [apply_ite State.pending, apply_ite State.fuses]

@[simp] theorem State.updColl_keeps (s : State) (h : Nat) (f : CollSt → CollSt) :
    (State.updColl s h f).pending = s.pending ∧ (State.updColl s h f).fuses = s.fuses := by
  simp only [State.updColl]
  constructor <;> (repeat' split) <;> simp [apply_ite State.pending, apply_ite State.fuses]

@[simp] theorem State.collDo_keeps (s : State) (h : Nat) (f : CollSt → CollSt) :
    (State.collDo s h f).pending = s.pending ∧ (State.collDo s h f).fuses = s.fuses := by
  simp only [State.collDo]
  constructor <;> (repeat' split) <;> simp [apply_ite State.pending, apply_ite State.fuses]

@[simp] theorem State.collForget_keeps (s : State) (h : Nat) :
    (State.collForget s h).pending = s.pending ∧ (State.collForget s h).fuses = s.fuses := by
  simp only [State.collForget]
  constructor <;> (repeat' split) <;> simp [apply_ite State.pending, apply_ite State.fuses]

@[simp] theorem State.collStop_keeps (s : State) :
    (State.collStop s).pending = s.pending ∧ (State.collStop s).fuses = s.fuses := by
  simp only [State.collStop]
  constructor <;> (repeat' split) <;> simp [apply_ite State.pending, apply_ite State.fuses]

@[simp] theorem State.haltImage_keeps (s : State) (fcode : Nat) :
    (State.haltImage s fcode).pending = s.pending ∧ (State.haltImage s fcode).fuses = s.fuses := by
  simp only [State.haltImage]
  constructor <;> (repeat' split) <;> simp [apply_ite State.pending, apply_ite State.fuses]

@[simp] theorem State.faultHalt_keeps (s : State) :
    (State.faultHalt s).pending = s.pending ∧ (State.faultHalt s).fuses = s.fuses := by
  simp only [State.faultHalt]
  constructor <;> (repeat' split) <;> simp [apply_ite State.pending, apply_ite State.fuses]

@[simp] theorem State.stopImage_keeps (s : State) (fcode : Nat) :
    (State.stopImage s fcode).pending = s.pending ∧ (State.stopImage s fcode).fuses = s.fuses := by
  simp only [State.stopImage]
  constructor <;> (repeat' split) <;> simp [apply_ite State.pending, apply_ite State.fuses]

@[simp] theorem State.seqFault_keeps (s : State) (c : Nat) (fcode : Nat) (w : Cmd) :
    (State.seqFault s c fcode w).pending = s.pending ∧ (State.seqFault s c fcode w).fuses = s.fuses := by
  simp only [State.seqFault]
  constructor <;> (repeat' split) <;> simp [apply_ite State.pending, apply_ite State.fuses]

@[simp] theorem State.toSlice_keeps (s : State) (w : ReqOwner) (o : Nat) (op : MemOp) (hint : Nat) :
    (State.toSlice s w o op hint).pending = s.pending ∧ (State.toSlice s w o op hint).fuses = s.fuses := by
  simp only [State.toSlice]
  constructor <;> (repeat' split) <;> simp [apply_ite State.pending, apply_ite State.fuses]

@[simp] theorem State.gateDo_keeps (s : State) (o : Nat) (n : Nat) :
    (State.gateDo s o n).pending = s.pending ∧ (State.gateDo s o n).fuses = s.fuses := by
  simp only [State.gateDo]
  constructor <;> (repeat' split) <;> simp [apply_ite State.pending, apply_ite State.fuses]

@[simp] theorem State.gateAdd_keeps (s : State) (o : Nat) (n : Nat) :
    (State.gateAdd s o n).pending = s.pending ∧ (State.gateAdd s o n).fuses = s.fuses := by
  simp only [State.gateAdd]
  constructor <;> (repeat' split) <;> simp [apply_ite State.pending, apply_ite State.fuses]

@[simp] theorem State.gateTest_keeps (s : State) (o : Nat) (target : Nat) (consume : Bool) :
    (State.gateTest s o target consume).1.pending = s.pending ∧ (State.gateTest s o target consume).1.fuses = s.fuses := by
  simp only [State.gateTest]
  constructor <;> (repeat' split) <;> simp [apply_ite State.pending, apply_ite State.fuses]

@[simp] theorem State.spadEcc_keeps (s : State) (c : Nat) (word : Nat) (e : Ecc) :
    (State.spadEcc s c word e).pending = s.pending ∧ (State.spadEcc s c word e).fuses = s.fuses := by
  simp only [State.spadEcc]
  constructor <;> (repeat' split) <;> simp [apply_ite State.pending, apply_ite State.fuses]

@[simp] theorem State.spadReadEcc_keeps (s : State) (c : Nat) (a : Nat) (n : Nat) (ecc : List (Nat × Ecc)) :
    (State.spadReadEcc s c a n ecc).pending = s.pending ∧ (State.spadReadEcc s c a n ecc).fuses = s.fuses := by
  simp only [State.spadReadEcc]
  constructor <;> (repeat' split) <;> simp [apply_ite State.pending, apply_ite State.fuses]

@[simp] theorem State.readThen_keeps (s : State) (c : Nat) (rs : List (Nat × Nat)) (ecc : List (Nat × Ecc)) (f : State → State)
    (h : ∀ t : State, (f t).pending = t.pending ∧ (f t).fuses = t.fuses) :
    (State.readThen s c rs ecc f).pending = s.pending ∧ (State.readThen s c rs ecc f).fuses = s.fuses := by
  simp only [State.readThen]
  constructor <;> split <;> simp [(h _).1, (h _).2]

@[simp] theorem State.fetchSector_keeps (s : State) (c : Nat) :
    (State.fetchSector s c).pending = s.pending ∧ (State.fetchSector s c).fuses = s.fuses := by
  simp only [State.fetchSector]
  constructor <;> (repeat' split) <;> simp [apply_ite State.pending, apply_ite State.fuses]

@[simp] theorem State.fetchAhead_keeps (s : State) (c : Nat) :
    (State.fetchAhead s c).pending = s.pending ∧ (State.fetchAhead s c).fuses = s.fuses := by
  simp only [State.fetchAhead]
  constructor <;> (repeat' split) <;> simp [apply_ite State.pending, apply_ite State.fuses]

@[simp] theorem State.fetchFor_keeps (s : State) (c : Nat) :
    (State.fetchFor s c).pending = s.pending ∧ (State.fetchFor s c).fuses = s.fuses := by
  simp only [State.fetchFor]
  constructor <;> (repeat' split) <;> simp [apply_ite State.pending, apply_ite State.fuses]

@[simp] theorem State.advance_keeps (s : State) (c : Nat) :
    (State.advance s c).pending = s.pending ∧ (State.advance s c).fuses = s.fuses := by
  simp only [State.advance]
  constructor <;> (repeat' split) <;> simp [apply_ite State.pending, apply_ite State.fuses]

@[simp] theorem State.seqWait_keeps (s : State) (c : Nat) (waitk : Nat) (cmd : Option Cmd) :
    (State.seqWait s c waitk cmd).pending = s.pending ∧ (State.seqWait s c waitk cmd).fuses = s.fuses := by
  simp only [State.seqWait]
  constructor <;> (repeat' split) <;> simp [apply_ite State.pending, apply_ite State.fuses]

@[simp] theorem State.issue_keeps (s : State) (c : Nat) (w : Cmd) (eng op : Nat) (mal gated bad full : Bool) (eff : State → State)
    (h : ∀ t : State, (eff t).pending = t.pending ∧ (eff t).fuses = t.fuses) :
    (State.issue s c w eng op mal gated bad full eff).pending = s.pending ∧ (State.issue s c w eng op mal gated bad full eff).fuses = s.fuses := by
  simp only [State.issue]
  constructor <;> (repeat' split) <;> simp [(h _).1, (h _).2]

@[simp] theorem State.issueSq_keeps (s : State) (c : Nat) (w : Cmd) (op : Nat) (mal gated bad : Bool) (eff : State → State)
    (h : ∀ t : State, (eff t).pending = t.pending ∧ (eff t).fuses = t.fuses) :
    (State.issueSq s c w op mal gated bad eff).pending = s.pending ∧ (State.issueSq s c w op mal gated bad eff).fuses = s.fuses := by
  simp only [State.issueSq]
  constructor <;> (repeat' split) <;> simp [(h _).1, (h _).2]

@[simp] theorem State.queueAt_keeps (s : State) (port : Nat) (p : Packet) (entry : Bool) :
    (State.queueAt s port p entry).pending = s.pending ∧ (State.queueAt s port p entry).fuses = s.fuses := by
  simp only [State.queueAt]
  constructor <;> (repeat' split) <;> simp [apply_ite State.pending, apply_ite State.fuses]

@[simp] theorem State.treeSeal_keeps (s : State) (p : Packet) :
    (State.treeSeal s p).1.pending = s.pending ∧ (State.treeSeal s p).1.fuses = s.fuses := by
  simp only [State.treeSeal]
  constructor <;> (repeat' split) <;> simp [apply_ite State.pending, apply_ite State.fuses]

@[simp] theorem State.sendPkt_keeps (s : State) (p : Packet) :
    (State.sendPkt s p).1.pending = s.pending ∧ (State.sendPkt s p).1.fuses = s.fuses := by
  simp only [State.sendPkt]
  constructor <;> (repeat' split) <;> simp [apply_ite State.pending, apply_ite State.fuses]

@[simp] theorem State.newTxn_keeps (s : State) (o : TxnOwner) (port : Nat) (txn : Nat) :
    (State.newTxn s o port txn).pending = s.pending ∧ (State.newTxn s o port txn).fuses = s.fuses := by
  simp only [State.newTxn]
  constructor <;> (repeat' split) <;> simp [apply_ite State.pending, apply_ite State.fuses]

@[simp] theorem State.respond_keeps (s : State) (c : Nat) (slot : Nat) (kinds : List ReqKind) (data : List (List Byte)) (status : Nat) :
    (State.respond s c slot kinds data status).pending = s.pending ∧ (State.respond s c slot kinds data status).fuses = s.fuses := by
  simp only [State.respond]
  constructor <;> (repeat' split) <;> simp [apply_ite State.pending, apply_ite State.fuses]

@[simp] theorem State.sendOpen_keeps (s : State) (o : OpenPk) :
    (State.sendOpen s o).pending = s.pending ∧ (State.sendOpen s o).fuses = s.fuses := by
  simp only [State.sendOpen]
  constructor <;> (repeat' split) <;> simp [apply_ite State.pending, apply_ite State.fuses]

@[simp] theorem State.closeOpen_keeps (s : State) (stream : Nat) :
    (State.closeOpen s stream).pending = s.pending ∧ (State.closeOpen s stream).fuses = s.fuses := by
  simp only [State.closeOpen]
  constructor <;> (repeat' split) <;> simp [apply_ite State.pending, apply_ite State.fuses]

@[simp] theorem State.mergeReq_keeps (s : State) (n : OpenPk) :
    (State.mergeReq s n).pending = s.pending ∧ (State.mergeReq s n).fuses = s.fuses := by
  simp only [State.mergeReq]
  constructor <;> (repeat' split) <;> simp [apply_ite State.pending, apply_ite State.fuses]

@[simp] theorem State.sendAdd_keeps (s : State) (c : Nat) (g : GateAdd) :
    (State.sendAdd s c g).pending = s.pending ∧ (State.sendAdd s c g).fuses = s.fuses := by
  simp only [State.sendAdd]
  constructor <;> (repeat' split) <;> simp [apply_ite State.pending, apply_ite State.fuses]

@[simp] theorem State.signalNow_keeps (s : State) (c : Nat) (g : GateAdd) :
    (State.signalNow s c g).pending = s.pending ∧ (State.signalNow s c g).fuses = s.fuses := by
  simp only [State.signalNow]
  constructor <;> (repeat' split) <;> simp [apply_ite State.pending, apply_ite State.fuses]

@[simp] theorem State.signalGate_keeps (s : State) (c : Nat) (g : GateAdd) :
    (State.signalGate s c g).pending = s.pending ∧ (State.signalGate s c g).fuses = s.fuses := by
  simp only [State.signalGate]
  constructor <;> (repeat' split) <;> simp [apply_ite State.pending, apply_ite State.fuses]

@[simp] theorem State.signalFree_keeps (s : State) (c : Nat) :
    (State.signalFree s c).pending = s.pending ∧ (State.signalFree s c).fuses = s.fuses := by
  simp only [State.signalFree]
  constructor <;> (repeat' split) <;> simp [apply_ite State.pending, apply_ite State.fuses]

@[simp] theorem State.noPathDrop_keeps (s : State) :
    (State.noPathDrop s).pending = s.pending ∧ (State.noPathDrop s).fuses = s.fuses := by
  simp only [State.noPathDrop]
  constructor <;> (repeat' split) <;> simp [apply_ite State.pending, apply_ite State.fuses]

@[simp] theorem State.reply_keeps (s : State) (rq : Packet) (ptype : Nat) (arg : Nat) (payload : List Byte) :
    (State.reply s rq ptype arg payload).pending = s.pending ∧ (State.reply s rq ptype arg payload).fuses = s.fuses := by
  simp only [State.reply]
  constructor <;> (repeat' split) <;> simp [apply_ite State.pending, apply_ite State.fuses]

@[simp] theorem State.localWrite_keeps (s : State) (w : Nat) (o : Nat) (bs : List Byte) (hint : Nat) :
    (State.localWrite s w o bs hint).1.pending = s.pending ∧ (State.localWrite s w o bs hint).1.fuses = s.fuses := by
  simp only [State.localWrite]
  constructor <;> (repeat' split) <;> simp [apply_ite State.pending, apply_ite State.fuses]

@[simp] theorem State.localRead_keeps (s : State) (w : Nat) (o : Nat) (n : Nat) (hint : Nat) (ecc : List (Nat × Ecc)) :
    (State.localRead s w o n hint ecc).1.pending = s.pending ∧ (State.localRead s w o n hint ecc).1.fuses = s.fuses := by
  simp only [State.localRead]
  constructor <;> (repeat' split) <;> simp [apply_ite State.pending, apply_ite State.fuses]

@[simp] theorem State.epochCheck_keeps (s : State) (e : Nat) :
    (State.epochCheck s e).1.pending = s.pending ∧ (State.epochCheck s e).1.fuses = s.fuses := by
  simp only [State.epochCheck]
  constructor <;> (repeat' split) <;> simp [apply_ite State.pending, apply_ite State.fuses]

@[simp] theorem State.updLanding_keeps (s : State) (no : Nat) (f : Landing → Landing) :
    (State.updLanding s no f).pending = s.pending ∧ (State.updLanding s no f).fuses = s.fuses := by
  simp only [State.updLanding]
  constructor <;> (repeat' split) <;> simp [apply_ite State.pending, apply_ite State.fuses]

@[simp] theorem State.updStrm_keeps (s : State) (c : Nat) (i : Nat) (f : Strm → Strm) :
    (State.updStrm s c i f).pending = s.pending ∧ (State.updStrm s c i f).fuses = s.fuses := by
  simp only [State.updStrm]
  constructor <;> (repeat' split) <;> simp [apply_ite State.pending, apply_ite State.fuses]

@[simp] theorem State.strmFail_keeps (s : State) (c : Nat) (i : Nat) (st : Nat) :
    (State.strmFail s c i st).pending = s.pending ∧ (State.strmFail s c i st).fuses = s.fuses := by
  simp only [State.strmFail]
  constructor <;> (repeat' split) <;> simp [apply_ite State.pending, apply_ite State.fuses]

@[simp] theorem State.injectInto_keeps (s : State) (c : Nat) (slot : Nat) (o : Nat) (bs : List Byte) (l : Landing) :
    (State.injectInto s c slot o bs l).1.pending = s.pending ∧ (State.injectInto s c slot o bs l).1.fuses = s.fuses := by
  simp only [State.injectInto]
  constructor <;> (repeat' split) <;> simp [apply_ite State.pending, apply_ite State.fuses]

@[simp] theorem State.inject_keeps (s : State) (c slot o : Nat) (bs : List Byte) :
    (State.inject s c slot o bs).1.pending = s.pending ∧ (State.inject s c slot o bs).1.fuses = s.fuses := by
  constructor <;> (unfold State.inject; first | (rw [foldl_fst_pending]; intro a x; simp) | (rw [foldl_fst_fuses]; intro a x; simp))

@[simp] theorem State.reelPass_keeps (s : State) (port : Nat) (l : Landing) (p : Packet) :
    (State.reelPass s port l p).pending = s.pending ∧ (State.reelPass s port l p).fuses = s.fuses := by
  simp only [State.reelPass]
  constructor <;> (repeat' split) <;> simp [apply_ite State.pending, apply_ite State.fuses]

@[simp] theorem State.reelLand_keeps (s : State) (port : Nat) (l : Landing) (p : Packet) :
    (State.reelLand s port l p).pending = s.pending ∧ (State.reelLand s port l p).fuses = s.fuses := by
  simp only [State.reelLand]
  constructor <;> (repeat' split) <;> simp [apply_ite State.pending, apply_ite State.fuses]

@[simp] theorem State.landingLeft_keeps (s : State) (x : Nat × Nat) :
    (State.landingLeft s x).pending = s.pending ∧ (State.landingLeft s x).fuses = s.fuses := by
  simp only [State.landingLeft]
  constructor <;> (repeat' split) <;> simp [apply_ite State.pending, apply_ite State.fuses]

@[simp] theorem State.reelArrive_keeps (s : State) (port : Nat) (p : Packet) :
    (State.reelArrive s port p).pending = s.pending ∧ (State.reelArrive s port p).fuses = s.fuses := by
  simp only [State.reelArrive]
  constructor <;> (repeat' split) <;> simp [apply_ite State.pending, apply_ite State.fuses]

@[simp] theorem State.reqDone_keeps (s : State) (c : Nat) (i : Nat) (k : ReqKind) :
    (State.reqDone s c i k).pending = s.pending ∧ (State.reqDone s c i k).fuses = s.fuses := by
  simp only [State.reqDone]
  constructor <;> (repeat' split) <;> simp [apply_ite State.pending, apply_ite State.fuses]

@[simp] theorem State.sendWrite_keeps (s : State) (c : Nat) (i : Nat) (u : Nat) (dst : Nat) (data : List Byte) :
    (State.sendWrite s c i u dst data).pending = s.pending ∧ (State.sendWrite s c i u dst data).fuses = s.fuses := by
  simp only [State.sendWrite]
  constructor <;> (repeat' split) <;> simp [apply_ite State.pending, apply_ite State.fuses]

@[simp] theorem State.steWrite_keeps (s : State) (c : Nat) (i : Nat) (u : Nat) (dst : Nat) (data : List Byte) :
    (State.steWrite s c i u dst data).pending = s.pending ∧ (State.steWrite s c i u dst data).fuses = s.fuses := by
  simp only [State.steWrite]
  constructor <;> (repeat' split) <;> simp [apply_ite State.pending, apply_ite State.fuses]

@[simp] theorem State.flushHeld_keeps (n : Nat) (s : State) (c i : Nat) :
    (State.flushHeld n s c i).pending = s.pending ∧ (State.flushHeld n s c i).fuses = s.fuses := by
  induction n generalizing s with
  | zero => exact ⟨rfl, rfl⟩
  | succ n ih => constructor <;> (unfold State.flushHeld; dsimp only; (repeat' split) <;> simp [ih])

@[simp] theorem State.unitDone_keeps (s : State) (c : Nat) (i : Nat) (u : Nat) (dst : Nat) :
    (State.unitDone s c i u dst).pending = s.pending ∧ (State.unitDone s c i u dst).fuses = s.fuses := by
  simp only [State.unitDone]
  constructor <;> (repeat' split) <;> simp [apply_ite State.pending, apply_ite State.fuses]

@[simp] theorem State.idxArrive_keeps (s : State) (c : Nat) (i : Nat) (sec : Nat) (data : List Byte) :
    (State.idxArrive s c i sec data).pending = s.pending ∧ (State.idxArrive s c i sec data).fuses = s.fuses := by
  simp only [State.idxArrive]
  constructor <;> (repeat' split) <;> simp [apply_ite State.pending, apply_ite State.fuses]

@[simp] theorem State.panelOne_keeps (s : State) (c : Nat) (i : Nat) (base : Nat) (w : Nat × List Byte) :
    (State.panelOne s c i base w).pending = s.pending ∧ (State.panelOne s c i base w).fuses = s.fuses := by
  simp only [State.panelOne]
  constructor <;> (repeat' split) <;> simp [apply_ite State.pending, apply_ite State.fuses]

@[simp] theorem State.panelPut_keeps (s : State) (c : Nat) (i : Nat) (ws : List (Nat × List Byte)) :
    (State.panelPut s c i ws).pending = s.pending ∧ (State.panelPut s c i ws).fuses = s.fuses := by
  simp only [State.panelPut]
  constructor <;> (repeat' split) <;> simp [apply_ite State.pending, apply_ite State.fuses]

@[simp] theorem State.sendRead_keeps (s : State) (c i : Nat) (k : ReqKind) (g hint : Nat) (ecc : List (Nat × Ecc)) (got : State → List Byte → State)
    (h : ∀ (t : State) (d : List Byte), (got t d).pending = t.pending ∧ (got t d).fuses = t.fuses) :
    (State.sendRead s c i k g hint ecc got).pending = s.pending ∧ (State.sendRead s c i k g hint ecc got).fuses = s.fuses := by
  unfold State.sendRead
  constructor <;> (repeat' split) <;> simp [(h _ _).1, (h _ _).2]

@[simp] theorem State.grantTo_keeps (s : State) (c i : Nat) (ecc : List (Nat × Ecc)) :
    (State.grantTo s c i ecc).pending = s.pending ∧ (State.grantTo s c i ecc).fuses = s.fuses := by
  unfold State.grantTo
  constructor <;> (dsimp only; split <;> (try split) <;> simp)

@[simp] theorem State.indexEnds_keeps (s : State) (c : Nat) :
    (State.indexEnds s c).pending = s.pending ∧ (State.indexEnds s c).fuses = s.fuses := by
  simp only [State.indexEnds]
  constructor <;> (repeat' split) <;> simp [apply_ite State.pending, apply_ite State.fuses]

@[simp] theorem State.steArrive_keeps (s : State) (c : Nat) (r : Resp) :
    (State.steArrive s c r).pending = s.pending ∧ (State.steArrive s c r).fuses = s.fuses := by
  simp only [State.steArrive]
  constructor <;> (repeat' split) <;> simp [apply_ite State.pending, apply_ite State.fuses]

@[simp] theorem State.slotFree_keeps (s : State) (c : Nat) (i : Nat) :
    (State.slotFree s c i).pending = s.pending ∧ (State.slotFree s c i).fuses = s.fuses := by
  simp only [State.slotFree]
  constructor <;> (repeat' split) <;> simp [apply_ite State.pending, apply_ite State.fuses]

end Sys2Proof.Machine
end

