-- ==== Sys2Proof/Laws/FramesUnits.lean ====
section
/-! SUPPORT. The operations of the fabric, links, Husk, training, clocks and power leave the waiting commands and the fuses as they are. -/

namespace Sys2Proof.Machine

@[simp] theorem State.updMxe_keeps (s : State) (c : Nat) (f : MxeSt → MxeSt) :
    (State.updMxe s c f).pending = s.pending ∧ (State.updMxe s c f).fuses = s.fuses := by
  simp only [State.updMxe]
  constructor <;> (repeat' split) <;> simp [apply_ite State.pending, apply_ite State.fuses]

@[simp] theorem State.doLoad_keeps (s0 : State) (c : Nat) (i : Nat) (a : Nat) (ecc : List (Nat × Ecc)) :
    (State.doLoad s0 c i a ecc).pending = s0.pending ∧ (State.doLoad s0 c i a ecc).fuses = s0.fuses := by
  simp only [State.doLoad]
  constructor <;> (repeat' split) <;> simp [apply_ite State.pending, apply_ite State.fuses]

@[simp] theorem State.doMerge_keeps (s0 : State) (c : Nat) (i : Nat) (a : Nat) (ecc : List (Nat × Ecc)) :
    (State.doMerge s0 c i a ecc).pending = s0.pending ∧ (State.doMerge s0 c i a ecc).fuses = s0.fuses := by
  simp only [State.doMerge]
  constructor <;> (repeat' split) <;> simp [apply_ite State.pending, apply_ite State.fuses]

@[simp] theorem State.arrPop_keeps (s : State) (c : Nat) :
    (State.arrPop s c).pending = s.pending ∧ (State.arrPop s c).fuses = s.fuses := by
  simp only [State.arrPop]
  constructor <;> (repeat' split) <;> simp [apply_ite State.pending, apply_ite State.fuses]

@[simp] theorem State.arrRun_keeps (n : Nat) (s : State) (c : Nat) : (State.arrRun n s c).pending = s.pending ∧ (State.arrRun n s c).fuses = s.fuses := by
  induction n generalizing s with
  | zero => exact ⟨rfl, rfl⟩
  | succ n ih => constructor <;> (unfold State.arrRun; dsimp only; (repeat' split) <;> simp [ih])

@[simp] theorem State.pushRow_keeps (s : State) (c : Nat) (d : Drain) :
    (State.pushRow s c d).pending = s.pending ∧ (State.pushRow s c d).fuses = s.fuses := by
  simp only [State.pushRow]
  constructor <;> (repeat' split) <;> simp [apply_ite State.pending, apply_ite State.fuses]

@[simp] theorem State.pump_keeps (n : Nat) (s : State) (c : Nat) : (State.pump n s c).pending = s.pending ∧ (State.pump n s c).fuses = s.fuses := by
  induction n generalizing s with
  | zero => exact ⟨rfl, rfl⟩
  | succ n ih => constructor <;> (unfold State.pump; dsimp only; (repeat' split) <;> simp [ih])

@[simp] theorem State.mxeRun_keeps (s : State) (c : Nat) :
    (State.mxeRun s c).pending = s.pending ∧ (State.mxeRun s c).fuses = s.fuses := by
  simp only [State.mxeRun]
  constructor <;> (repeat' split) <;> simp [apply_ite State.pending, apply_ite State.fuses]

@[simp] theorem State.doOpen_keeps (s : State) (c : Nat) (w : Cmd) (ecc : List (Nat × Ecc)) :
    (State.doOpen s c w ecc).pending = s.pending ∧ (State.doOpen s c w ecc).fuses = s.fuses := by
  simp only [State.doOpen]
  constructor <;> (repeat' split) <;> simp [apply_ite State.pending, apply_ite State.fuses]

@[simp] theorem State.groupStep_keeps (s0 : State) (c : Nat) (i : Nat) (kg : Nat) (left : Nat) (aa : Nat) (ba : Nat) (as : Nat) (bs : Nat) (ecc : List (Nat × Ecc)) :
    (State.groupStep s0 c i kg left aa ba as bs ecc).pending = s0.pending ∧ (State.groupStep s0 c i kg left aa ba as bs ecc).fuses = s0.fuses := by
  simp only [State.groupStep]
  constructor <;> (repeat' split) <;> simp [apply_ite State.pending, apply_ite State.fuses]

@[simp] theorem State.freeSlot_keeps (s : State) (c : Nat) (d : Drain) :
    (State.freeSlot s c d).pending = s.pending ∧ (State.freeSlot s c d).fuses = s.fuses := by
  simp only [State.freeSlot]
  constructor <;> (repeat' split) <;> simp [apply_ite State.pending, apply_ite State.fuses]

@[simp] theorem State.updVxe_keeps (s : State) (c : Nat) (f : VxeSt → VxeSt) :
    (State.updVxe s c f).pending = s.pending ∧ (State.updVxe s c f).fuses = s.fuses := by
  simp only [State.updVxe]
  constructor <;> (repeat' split) <;> simp [apply_ite State.pending, apply_ite State.fuses]

@[simp] theorem State.vxDone_keeps (s : State) (c : Nat) (r : Nat) (f : Nat) (xs : List (Nat × Flags)) :
    (State.vxDone s c r f xs).pending = s.pending ∧ (State.vxDone s c r f xs).fuses = s.fuses := by
  simp only [State.vxDone]
  constructor <;> (repeat' split) <;> simp [apply_ite State.pending, apply_ite State.fuses]

@[simp] theorem State.vxFlags_keeps (s : State) (c : Nat) (fl : Flags) :
    (State.vxFlags s c fl).pending = s.pending ∧ (State.vxFlags s c fl).fuses = s.fuses := by
  simp only [State.vxFlags]
  constructor <;> (repeat' split) <;> simp [apply_ite State.pending, apply_ite State.fuses]

@[simp] theorem vxRunLd_keeps (s : State) (c : Nat) (i : VxItem) :
    (vxRunLd s c i).pending = s.pending ∧ (vxRunLd s c i).fuses = s.fuses := by
  simp only [vxRunLd]
  constructor <;> (repeat' split) <;> simp [apply_ite State.pending, apply_ite State.fuses]

@[simp] theorem vxRunSt_keeps (s : State) (c : Nat) (i : VxItem) :
    (vxRunSt s c i).pending = s.pending ∧ (vxRunSt s c i).fuses = s.fuses := by
  simp only [vxRunSt]
  constructor <;> (repeat' split) <;> simp [apply_ite State.pending, apply_ite State.fuses]

@[simp] theorem vxRunStt_keeps (s : State) (c : Nat) (i : VxItem) :
    (vxRunStt s c i).pending = s.pending ∧ (vxRunStt s c i).fuses = s.fuses := by
  simp only [vxRunStt]
  constructor <;> (repeat' split) <;> simp [apply_ite State.pending, apply_ite State.fuses]

@[simp] theorem vxPopOne_keeps (s : State) (c : Nat) (i : VxItem) :
    (vxPopOne s c i).pending = s.pending ∧ (vxPopOne s c i).fuses = s.fuses := by
  simp only [vxPopOne]
  constructor <;> (repeat' split) <;> simp [apply_ite State.pending, apply_ite State.fuses]

@[simp] theorem vxRunBin_keeps (s : State) (c : Nat) (i : VxItem) :
    (vxRunBin s c i).pending = s.pending ∧ (vxRunBin s c i).fuses = s.fuses := by
  simp only [vxRunBin]
  constructor <;> (repeat' split) <;> simp [apply_ite State.pending, apply_ite State.fuses]

@[simp] theorem vxRunFma_keeps (s : State) (c : Nat) (i : VxItem) :
    (vxRunFma s c i).pending = s.pending ∧ (vxRunFma s c i).fuses = s.fuses := by
  simp only [vxRunFma]
  constructor <;> (repeat' split) <;> simp [apply_ite State.pending, apply_ite State.fuses]

@[simp] theorem vxRunCvt_keeps (s : State) (c : Nat) (i : VxItem) :
    (vxRunCvt s c i).pending = s.pending ∧ (vxRunCvt s c i).fuses = s.fuses := by
  simp only [vxRunCvt]
  constructor <;> (repeat' split) <;> simp [apply_ite State.pending, apply_ite State.fuses]

@[simp] theorem vxRunQnt_keeps (s : State) (c : Nat) (i : VxItem) :
    (vxRunQnt s c i).pending = s.pending ∧ (vxRunQnt s c i).fuses = s.fuses := by
  simp only [vxRunQnt]
  constructor <;> (repeat' split) <;> simp [apply_ite State.pending, apply_ite State.fuses]

@[simp] theorem vxRunDqnt_keeps (s : State) (c : Nat) (i : VxItem) :
    (vxRunDqnt s c i).pending = s.pending ∧ (vxRunDqnt s c i).fuses = s.fuses := by
  simp only [vxRunDqnt]
  constructor <;> (repeat' split) <;> simp [apply_ite State.pending, apply_ite State.fuses]

@[simp] theorem vxRunRow_keeps (s : State) (c : Nat) (i : VxItem) :
    (vxRunRow s c i).pending = s.pending ∧ (vxRunRow s c i).fuses = s.fuses := by
  simp only [vxRunRow]
  constructor <;> (repeat' split) <;> simp [apply_ite State.pending, apply_ite State.fuses]

@[simp] theorem vxRunFn_keeps (s : State) (c : Nat) (i : VxItem) :
    (vxRunFn s c i).pending = s.pending ∧ (vxRunFn s c i).fuses = s.fuses := by
  simp only [vxRunFn]
  constructor <;> (repeat' split) <;> simp [apply_ite State.pending, apply_ite State.fuses]

@[simp] theorem vxRunWelf_keeps (s : State) (c : Nat) (i : VxItem) :
    (vxRunWelf s c i).pending = s.pending ∧ (vxRunWelf s c i).fuses = s.fuses := by
  simp only [vxRunWelf]
  constructor <;> (repeat' split) <;> simp [apply_ite State.pending, apply_ite State.fuses]

@[simp] theorem vxRunWmrg_keeps (s : State) (c : Nat) (i : VxItem) :
    (vxRunWmrg s c i).pending = s.pending ∧ (vxRunWmrg s c i).fuses = s.fuses := by
  simp only [vxRunWmrg]
  constructor <;> (repeat' split) <;> simp [apply_ite State.pending, apply_ite State.fuses]

@[simp] theorem vxRunWred_keeps (s : State) (c : Nat) (i : VxItem) :
    (vxRunWred s c i).pending = s.pending ∧ (vxRunWred s c i).fuses = s.fuses := by
  simp only [vxRunWred]
  constructor <;> (repeat' split) <;> simp [apply_ite State.pending, apply_ite State.fuses]

@[simp] theorem vxRunWfin_keeps (s : State) (c : Nat) (i : VxItem) :
    (vxRunWfin s c i).pending = s.pending ∧ (vxRunWfin s c i).fuses = s.fuses := by
  simp only [vxRunWfin]
  constructor <;> (repeat' split) <;> simp [apply_ite State.pending, apply_ite State.fuses]

@[simp] theorem vxRunOne_keeps (s : State) (c : Nat) (i : VxItem) :
    (vxRunOne s c i).pending = s.pending ∧ (vxRunOne s c i).fuses = s.fuses := by
  simp only [vxRunOne]
  constructor <;> (repeat' split) <;> simp [apply_ite State.pending, apply_ite State.fuses]

@[simp] theorem State.vxRun_keeps (n : Nat) (s : State) (c : Nat) : (State.vxRun n s c).pending = s.pending ∧ (State.vxRun n s c).fuses = s.fuses := by
  induction n generalizing s with
  | zero => exact ⟨rfl, rfl⟩
  | succ n ih => constructor <;> (unfold State.vxRun; dsimp only; (repeat' split) <;> simp [ih])

@[simp] theorem State.vxIssue_keeps (s : State) (c : Nat) (w : Cmd) (op : Nat) (ecc : List (Nat × Ecc)) :
    (State.vxIssue s c w op ecc).pending = s.pending ∧ (State.vxIssue s c w op ecc).fuses = s.fuses := by
  simp only [State.vxIssue]
  constructor <;> (repeat' split) <;> simp [apply_ite State.pending, apply_ite State.fuses]

@[simp] theorem State.waitg_keeps (s : State) (c : Nat) (w : Cmd) :
    (State.waitg s c w).pending = s.pending ∧ (State.waitg s c w).fuses = s.fuses := by
  simp only [State.waitg]
  constructor <;> (repeat' split) <;> simp [apply_ite State.pending, apply_ite State.fuses]

@[simp] theorem State.updBar_keeps (s : State) (b : Nat) (f : BarSt → BarSt) :
    (State.updBar s b f).pending = s.pending ∧ (State.updBar s b f).fuses = s.fuses := by
  simp only [State.updBar]
  constructor <;> (repeat' split) <;> simp [apply_ite State.pending, apply_ite State.fuses]

@[simp] theorem State.barRelease_keeps (s : State) (c : Nat) :
    (State.barRelease s c).pending = s.pending ∧ (State.barRelease s c).fuses = s.fuses := by
  simp only [State.barRelease]
  constructor <;> (repeat' split) <;> simp [apply_ite State.pending, apply_ite State.fuses]

@[simp] theorem State.collAbandon_keeps (s : State) (h : Nat) :
    (State.collAbandon s h).pending = s.pending ∧ (State.collAbandon s h).fuses = s.fuses := by
  simp only [State.collAbandon]
  constructor <;> (repeat' split) <;> simp [apply_ite State.pending, apply_ite State.fuses]

@[simp] theorem State.completeIfDone_keeps (s : State) :
    (State.completeIfDone s).pending = s.pending ∧ (State.completeIfDone s).fuses = s.fuses := by
  simp only [State.completeIfDone]
  constructor <;> (repeat' split) <;> simp [apply_ite State.pending, apply_ite State.fuses]

@[simp] theorem State.freeCancelled_keeps (s : State) :
    (State.freeCancelled s).pending = s.pending ∧ (State.freeCancelled s).fuses = s.fuses := by
  simp only [State.freeCancelled]
  constructor <;> (repeat' split) <;> simp [apply_ite State.pending, apply_ite State.fuses]

@[simp] theorem State.updSfu_keeps (s : State) (c : Nat) (f : SfuSt → SfuSt) :
    (State.updSfu s c f).pending = s.pending ∧ (State.updSfu s c f).fuses = s.fuses := by
  simp only [State.updSfu]
  constructor <;> (repeat' split) <;> simp [apply_ite State.pending, apply_ite State.fuses]

@[simp] theorem State.imageRead_keeps (s : State) (off : Nat) :
    (State.imageRead s off).1.pending = s.pending ∧ (State.imageRead s off).1.fuses = s.fuses := by
  simp only [State.imageRead]
  constructor <;> (repeat' split) <;> simp [apply_ite State.pending, apply_ite State.fuses]

@[simp] theorem State.zeroRange_keeps (s : State) (o : Nat) (n : Nat) :
    (State.zeroRange s o n).pending = s.pending ∧ (State.zeroRange s o n).fuses = s.fuses := by
  simp only [State.zeroRange]
  constructor <;> (repeat' split) <;> simp [apply_ite State.pending, apply_ite State.fuses]

@[simp] theorem State.setClken_keeps (s : State) (c : Nat) (v : BitVec 5) :
    (State.setClken s c v).pending = s.pending ∧ (State.setClken s c v).fuses = s.fuses := by
  simp only [State.setClken]
  constructor <;> (repeat' split) <;> simp [apply_ite State.pending, apply_ite State.fuses]

@[simp] theorem State.commitCore_keeps (s : State) (secs : List Section) (img : Nat) (c : Nat) (cfg : Word) (clk : Word) :
    (State.commitCore s secs img c cfg clk).pending = s.pending ∧ (State.commitCore s secs img c cfg clk).fuses = s.fuses := by
  simp only [State.commitCore]
  constructor <;> (repeat' split) <;> simp [apply_ite State.pending, apply_ite State.fuses]

@[simp] theorem State.commitCores_keeps (s : State) (secs : List Section) (off : Nat) :
    (State.commitCores s secs off).pending = s.pending ∧ (State.commitCores s secs off).fuses = s.fuses := by
  unfold State.commitCores
  constructor
  · refine forEach_pending _ (fun s x => ?_) _ _
    split <;> simp
  · refine forEach_fuses _ (fun s x => ?_) _ _
    split <;> simp

@[simp] theorem State.commitImage_keeps (s : State) (off : Nat) :
    (State.commitImage s off).pending = s.pending ∧ (State.commitImage s off).fuses = s.fuses := by
  simp only [State.commitImage]
  constructor <;> (repeat' split) <;> simp [apply_ite State.pending, apply_ite State.fuses]

@[simp] theorem State.discardImage_keeps (s : State) :
    (State.discardImage s).pending = s.pending ∧ (State.discardImage s).fuses = s.fuses := by
  simp only [State.discardImage]
  constructor <;> (repeat' split) <;> simp [apply_ite State.pending, apply_ite State.fuses]

@[simp] theorem State.poisonAdd_keeps (s : State) (st : Nat) (a : Nat) :
    (State.poisonAdd s st a).pending = s.pending ∧ (State.poisonAdd s st a).fuses = s.fuses := by
  simp only [State.poisonAdd]
  constructor <;> (repeat' split) <;> simp [apply_ite State.pending, apply_ite State.fuses]

@[simp] theorem State.lineEcc_keeps (s : State) (st : Nat) (a : Nat) (e : Ecc) :
    (State.lineEcc s st a e).pending = s.pending ∧ (State.lineEcc s st a e).fuses = s.fuses := by
  simp only [State.lineEcc]
  constructor <;> (repeat' split) <;> simp [apply_ite State.pending, apply_ite State.fuses]

@[simp] theorem State.jobEnd_keeps (s : State) (job : Nat) (j : RemoteJob) :
    (State.jobEnd s job j).pending = s.pending ∧ (State.jobEnd s job j).fuses = s.fuses := by
  simp only [State.jobEnd]
  constructor <;> (repeat' split) <;> simp [apply_ite State.pending, apply_ite State.fuses]

@[simp] theorem State.jobPart_keeps (s : State) (job : Nat) (part : Nat) (data : List Byte) (status : Nat) :
    (State.jobPart s job part data status).pending = s.pending ∧ (State.jobPart s job part data status).fuses = s.fuses := by
  simp only [State.jobPart]
  constructor <;> (repeat' split) <;> simp [apply_ite State.pending, apply_ite State.fuses]

@[simp] theorem State.jobStart_keeps (s : State) (p : Packet) (ops : List MemOp) :
    (State.jobStart s p ops).pending = s.pending ∧ (State.jobStart s p ops).fuses = s.fuses := by
  simp only [State.jobStart]
  constructor <;> (repeat' split) <;> simp [apply_ite State.pending, apply_ite State.fuses]

@[simp] theorem State.answerReq_keeps (s : State) (w : ReqOwner) (op : MemOp) (data : List Byte) (status : Nat) :
    (State.answerReq s w op data status).pending = s.pending ∧ (State.answerReq s w op data status).fuses = s.fuses := by
  simp only [State.answerReq]
  constructor <;> (repeat' split) <;> simp [apply_ite State.pending, apply_ite State.fuses]

@[simp] theorem State.serveReq_keeps (s : State) (r : Nat) (q : MemReq) (err : HbmErr) :
    (State.serveReq s r q err).pending = s.pending ∧ (State.serveReq s r q err).fuses = s.fuses := by
  simp only [State.serveReq]
  constructor <;> (repeat' split) <;> simp [apply_ite State.pending, apply_ite State.fuses]

@[simp] theorem State.mscOp_keeps (s : State) (r : Nat) (op : Nat) :
    (State.mscOp s r op).pending = s.pending ∧ (State.mscOp s r op).fuses = s.fuses := by
  simp only [State.mscOp]
  constructor <;> (repeat' split) <;> simp [apply_ite State.pending, apply_ite State.fuses]

@[simp] theorem State.writeBack_keeps (s : State) (r : Nat) (p : Line → Bool) :
    (State.writeBack s r p).pending = s.pending ∧ (State.writeBack s r p).fuses = s.fuses := by
  simp only [State.writeBack]
  constructor <;> (repeat' split) <;> simp [apply_ite State.pending, apply_ite State.fuses]

@[simp] theorem State.bandFree_keeps (s : State) (xs : List (Nat × MemReq)) :
    (State.bandFree s xs).pending = s.pending ∧ (State.bandFree s xs).fuses = s.fuses := by
  simp only [State.bandFree]
  constructor <;> (repeat' split) <;> simp [apply_ite State.pending, apply_ite State.fuses]

@[simp] theorem State.floodCopies_keeps (s : State) (p : Packet) (except : Option Nat) : (State.floodCopies s p except).pending = s.pending ∧ (State.floodCopies s p except).fuses = s.fuses := by
  unfold State.floodCopies
  constructor
  · refine forEach_pending _ (fun s x => ?_) _ _
    (repeat' split) <;> simp
  · refine forEach_fuses _ (fun s x => ?_) _ _
    (repeat' split) <;> simp

@[simp] theorem State.floodNote_keeps (s : State) (src : Nat) (cseq : Nat) :
    (State.floodNote s src cseq).pending = s.pending ∧ (State.floodNote s src cseq).fuses = s.fuses := by
  simp only [State.floodNote]
  constructor <;> (repeat' split) <;> simp [apply_ite State.pending, apply_ite State.fuses]

@[simp] theorem State.floodNew_keeps (s : State) (ptype : Nat) (payload : List Byte) :
    (State.floodNew s ptype payload).pending = s.pending ∧ (State.floodNew s ptype payload).fuses = s.fuses := by
  simp only [State.floodNew]
  constructor <;> (repeat' split) <;> simp [apply_ite State.pending, apply_ite State.fuses]

@[simp] theorem State.updPar_keeps (s : State) (h : Nat) (f : ParSt → ParSt) :
    (State.updPar s h f).pending = s.pending ∧ (State.updPar s h f).fuses = s.fuses := by
  simp only [State.updPar]
  constructor <;> (repeat' split) <;> simp [apply_ite State.pending, apply_ite State.fuses]

@[simp] theorem State.parError_keeps (s : State) (h : Nat) (status : Nat) (entry : Nat) :
    (State.parError s h status entry).pending = s.pending ∧ (State.parError s h status entry).fuses = s.fuses := by
  simp only [State.parError]
  constructor <;> (repeat' split) <;> simp [apply_ite State.pending, apply_ite State.fuses]

@[simp] theorem State.chunkRead_keeps (s : State) (o : Nat) (n : Nat) :
    (State.chunkRead s o n).1.pending = s.pending ∧ (State.chunkRead s o n).1.fuses = s.fuses := by
  simp only [State.chunkRead]
  constructor <;> (repeat' split) <;> simp [apply_ite State.pending, apply_ite State.fuses]

@[simp] theorem State.chunkWrite_keeps (s : State) (o : Nat) (bs : List Byte) :
    (State.chunkWrite s o bs).pending = s.pending ∧ (State.chunkWrite s o bs).fuses = s.fuses := by
  simp only [State.chunkWrite]
  constructor <;> (repeat' split) <;> simp [apply_ite State.pending, apply_ite State.fuses]

@[simp] theorem State.parBegin_keeps (s : State) (w : Nat) (todo : List Nat) :
    (State.parBegin s w todo).pending = s.pending ∧ (State.parBegin s w todo).fuses = s.fuses := by
  simp only [State.parBegin]
  constructor <;> (repeat' split) <;> simp [apply_ite State.pending, apply_ite State.fuses]

@[simp] theorem State.parIdle_keeps (s : State) (w : Nat) :
    (State.parIdle s w).pending = s.pending ∧ (State.parIdle s w).fuses = s.fuses := by
  simp only [State.parIdle]
  constructor <;> (repeat' split) <;> simp [apply_ite State.pending, apply_ite State.fuses]

@[simp] theorem State.parStepped_keeps (s : State) (i : Nat) (err : Option Nat) :
    (State.parStepped s i err).pending = s.pending ∧ (State.parStepped s i err).fuses = s.fuses := by
  simp only [State.parStepped]
  constructor <;> (repeat' split) <;> simp [apply_ite State.pending, apply_ite State.fuses]

@[simp] theorem State.parEach_keeps (s : State) (xs : List (Nat × List Word)) (f : State → Nat × List Word → State)
    (h : ∀ (t : State) (x : Nat × List Word), (f t x).pending = t.pending ∧ (f t x).fuses = t.fuses) :
    (State.parEach s xs f).pending = s.pending ∧ (State.parEach s xs f).fuses = s.fuses := by
  unfold State.parEach
  split
  · exact ⟨rfl, rfl⟩
  · exact ⟨forEach_pending _ (fun t x => (h t x).1) _ _, forEach_fuses _ (fun t x => (h t x).2) _ _⟩

@[simp] theorem State.journalOld_keeps (s : State) (g : Nat) : (State.journalOld s g).pending = s.pending ∧ (State.journalOld s g).fuses = s.fuses := by
  refine State.parEach_keeps _ _ _ fun t x => ?_
  constructor <;> (dsimp only; (repeat' split) <;> simp)

@[simp] theorem State.journalDelta_keeps (s : State) (g : Nat) : (State.journalDelta s g).pending = s.pending ∧ (State.journalDelta s g).fuses = s.fuses := by
  refine State.parEach_keeps _ _ _ fun t x => ?_
  constructor <;> (dsimp only; (repeat' split) <;> simp)

@[simp] theorem State.applyAll_keeps (s : State) (g : Nat) : (State.applyAll s g).pending = s.pending ∧ (State.applyAll s g).fuses = s.fuses := by
  refine State.parEach_keeps _ _ _ fun t x => ?_
  constructor <;> (dsimp only; (repeat' split) <;> simp)

@[simp] theorem State.restoreAll_keeps (s : State) (g : Nat) : (State.restoreAll s g).pending = s.pending ∧ (State.restoreAll s g).fuses = s.fuses := by
  refine State.parEach_keeps _ _ _ fun t x => ?_
  constructor <;> (dsimp only; (repeat' split) <;> simp)

@[simp] theorem State.pullFailed_keeps (s : State) (h : Nat) (m : Nat) (status : Nat) :
    (State.pullFailed s h m status).pending = s.pending ∧ (State.pullFailed s h m status).fuses = s.fuses := by
  simp only [State.pullFailed]
  constructor <;> (repeat' split) <;> simp [apply_ite State.pending, apply_ite State.fuses]

@[simp] theorem State.pullPacket_keeps (s : State) (h : Nat) (m : Nat) (dev : Nat) (off : Nat) (pos : Nat) (n : Nat) :
    (State.pullPacket s h m dev off pos n).pending = s.pending ∧ (State.pullPacket s h m dev off pos n).fuses = s.fuses := by
  simp only [State.pullPacket]
  constructor <;> (repeat' split) <;> simp [apply_ite State.pending, apply_ite State.fuses]

@[simp] theorem State.pull_keeps (s : State) (h : Nat) (m : Nat) (dev : Nat) (off : Nat) (pos : Nat) (n : Nat) :
    (State.pull s h m dev off pos n).pending = s.pending ∧ (State.pull s h m dev off pos n).fuses = s.fuses := by
  simp only [State.pull]
  constructor <;> (repeat' split) <;> simp [apply_ite State.pending, apply_ite State.fuses]

@[simp] theorem State.entryDone_keeps (s : State) (h : Nat) :
    (State.entryDone s h).pending = s.pending ∧ (State.entryDone s h).fuses = s.fuses := by
  simp only [State.entryDone]
  constructor <;> (repeat' split) <;> simp [apply_ite State.pending, apply_ite State.fuses]

@[simp] theorem State.initMove_keeps (s : State) (h : Nat) (i : Nat) :
    (State.initMove s h i).1.pending = s.pending ∧ (State.initMove s h i).1.fuses = s.fuses := by
  simp only [State.initMove]
  constructor <;> (repeat' split) <;> simp [apply_ite State.pending, apply_ite State.fuses]

@[simp] theorem State.foldMove_keeps (s : State) (h : Nat) :
    (State.foldMove s h).1.pending = s.pending ∧ (State.foldMove s h).1.fuses = s.fuses := by
  simp only [State.foldMove]
  constructor <;> (repeat' split) <;> simp [apply_ite State.pending, apply_ite State.fuses]

@[simp] theorem State.rebuildWrite_keeps (s : State) (h : Nat) (n : Nat) (need : List Nat) (er : List Nat) :
    (State.rebuildWrite s h n need er).1.pending = s.pending ∧ (State.rebuildWrite s h n need er).1.fuses = s.fuses := by
  simp only [State.rebuildWrite]
  constructor <;> (repeat' split) <;> simp [apply_ite State.pending, apply_ite State.fuses]

@[simp] theorem State.rebuildMove_keeps (s : State) (h : Nat) (i : Nat) :
    (State.rebuildMove s h i).1.pending = s.pending ∧ (State.rebuildMove s h i).1.fuses = s.fuses := by
  simp only [State.rebuildMove]
  constructor <;> (repeat' split) <;> simp [apply_ite State.pending, apply_ite State.fuses]

@[simp] theorem State.nextEntry_keeps (s : State) (h : Nat) :
    (State.nextEntry s h).1.pending = s.pending ∧ (State.nextEntry s h).1.fuses = s.fuses := by
  simp only [State.nextEntry]
  constructor <;> (repeat' split) <;> simp [apply_ite State.pending, apply_ite State.fuses]

@[simp] theorem State.parMove_keeps (s : State) (h : Nat) :
    (State.parMove s h).1.pending = s.pending ∧ (State.parMove s h).1.fuses = s.fuses := by
  simp only [State.parMove]
  constructor <;> (repeat' split) <;> simp [apply_ite State.pending, apply_ite State.fuses]

@[simp] theorem State.parRun_keeps (n : Nat) (s : State) (h : Nat) : (State.parRun s h n).pending = s.pending ∧ (State.parRun s h n).fuses = s.fuses := by
  induction n generalizing s with
  | zero => exact ⟨rfl, rfl⟩
  | succ n ih => constructor <;> (unfold State.parRun; dsimp only; split <;> simp [ih])

@[simp] theorem State.parGo_keeps (s : State) (h : Nat) : (State.parGo s h).pending = s.pending ∧ (State.parGo s h).fuses = s.fuses := by
  unfold State.parGo
  constructor <;> ((repeat' split) <;> simp [apply_ite State.pending, apply_ite State.fuses])

@[simp] theorem State.parHandOver_keeps (s : State) (h : Nat) :
    (State.parHandOver s h).pending = s.pending ∧ (State.parHandOver s h).fuses = s.fuses := by
  simp only [State.parHandOver]
  constructor <;> (repeat' split) <;> simp [apply_ite State.pending, apply_ite State.fuses]

@[simp] theorem State.parStart_keeps (s : State) (w : Nat) (todo : List Nat) :
    (State.parStart s w todo).pending = s.pending ∧ (State.parStart s w todo).fuses = s.fuses := by
  simp only [State.parStart]
  constructor <;> (repeat' split) <;> simp [apply_ite State.pending, apply_ite State.fuses]

@[simp] theorem State.pullData_keeps (s : State) (h : Nat) (job : Nat) (bs : List Byte) :
    (State.pullData s h job bs).pending = s.pending ∧ (State.pullData s h job bs).fuses = s.fuses := by
  simp only [State.pullData]
  constructor <;> (repeat' split) <;> simp [apply_ite State.pending, apply_ite State.fuses]

@[simp] theorem State.pullErr_keeps (s : State) (h : Nat) (job : Nat) (status : Nat) :
    (State.pullErr s h job status).pending = s.pending ∧ (State.pullErr s h job status).fuses = s.fuses := by
  simp only [State.pullErr]
  constructor <;> (repeat' split) <;> simp [apply_ite State.pending, apply_ite State.fuses]

@[simp] theorem State.setHusk_keeps (s : State) (st : Nat) :
    (State.setHusk s st).pending = s.pending ∧ (State.setHusk s st).fuses = s.fuses := by
  simp only [State.setHusk]
  constructor <;> (repeat' split) <;> simp [apply_ite State.pending, apply_ite State.fuses]

@[simp] theorem State.sealSignal_keeps (s : State) :
    (State.sealSignal s).pending = s.pending ∧ (State.sealSignal s).fuses = s.fuses := by
  simp only [State.sealSignal]
  constructor <;> (repeat' split) <;> simp [apply_ite State.pending, apply_ite State.fuses]

@[simp] theorem State.sealApply_keeps (s : State) (g : Nat) :
    (State.sealApply s g).pending = s.pending ∧ (State.sealApply s g).fuses = s.fuses := by
  simp only [State.sealApply]
  constructor <;> (repeat' split) <;> simp [apply_ite State.pending, apply_ite State.fuses]

@[simp] theorem State.staleSeal_keeps (s : State) :
    (State.staleSeal s).pending = s.pending ∧ (State.staleSeal s).fuses = s.fuses := by
  simp only [State.staleSeal]
  constructor <;> (repeat' split) <;> simp [apply_ite State.pending, apply_ite State.fuses]

@[simp] theorem State.sealAct_keeps (s : State) (g : Nat) :
    (State.sealAct s g).pending = s.pending ∧ (State.sealAct s g).fuses = s.fuses := by
  simp only [State.sealAct]
  constructor <;> (repeat' split) <;> simp [apply_ite State.pending, apply_ite State.fuses]

@[simp] theorem State.dropLostPulls_keeps (s : State) (h : Nat) :
    (State.dropLostPulls s h).pending = s.pending ∧ (State.dropLostPulls s h).fuses = s.fuses := by
  simp only [State.dropLostPulls]
  constructor <;> (repeat' split) <;> simp [apply_ite State.pending, apply_ite State.fuses]

@[simp] theorem State.fenceLoss_keeps (s : State) (d : Nat) :
    (State.fenceLoss s d).pending = s.pending ∧ (State.fenceLoss s d).fuses = s.fuses := by
  simp only [State.fenceLoss]
  constructor <;> (repeat' split) <;> simp [apply_ite State.pending, apply_ite State.fuses]

@[simp] theorem State.declareLost_keeps (s : State) (d : Nat) :
    (State.declareLost s d).pending = s.pending ∧ (State.declareLost s d).fuses = s.fuses := by
  simp only [State.declareLost]
  constructor <;> (repeat' split) <;> simp [apply_ite State.pending, apply_ite State.fuses]

@[simp] theorem State.resumeAct_keeps (s : State) (epoch : Nat) (g : Nat) :
    (State.resumeAct s epoch g).pending = s.pending ∧ (State.resumeAct s epoch g).fuses = s.fuses := by
  simp only [State.resumeAct]
  constructor <;> (repeat' split) <;> simp [apply_ite State.pending, apply_ite State.fuses]

@[simp] theorem State.flushBegin_keeps (s : State) :
    (State.flushBegin s).pending = s.pending ∧ (State.flushBegin s).fuses = s.fuses := by
  simp only [State.flushBegin]
  constructor <;> (repeat' split) <;> simp [apply_ite State.pending, apply_ite State.fuses]

@[simp] theorem State.appendLog_keeps (s : State) (idx : Nat) (sub : Nat) (v : List Byte) :
    (State.appendLog s idx sub v).pending = s.pending ∧ (State.appendLog s idx sub v).fuses = s.fuses := by
  simp only [State.appendLog]
  constructor <;> (repeat' split) <;> simp [apply_ite State.pending, apply_ite State.fuses]

@[simp] theorem State.draw_keeps (s : State) (h : Nat) :
    (State.draw s h).1.pending = s.pending ∧ (State.draw s h).1.fuses = s.fuses := by
  simp only [State.draw]
  constructor <;> (repeat' split) <;> simp [apply_ite State.pending, apply_ite State.fuses]

@[simp] theorem State.extendMr2_keeps (s : State) (x : List Byte) :
    (State.extendMr2 s x).pending = s.pending ∧ (State.extendMr2 s x).fuses = s.fuses := by
  simp only [State.extendMr2]
  constructor <;> (repeat' split) <;> simp [apply_ite State.pending, apply_ite State.fuses]

@[simp] theorem State.unalign_keeps (s : State) (cause : Nat) :
    (State.unalign s cause).pending = s.pending ∧ (State.unalign s cause).fuses = s.fuses := by
  simp only [State.unalign]
  constructor <;> (repeat' split) <;> simp [apply_ite State.pending, apply_ite State.fuses]

@[simp] theorem State.alignBy_keeps (s : State) (err : Int) :
    (State.alignBy s err).pending = s.pending ∧ (State.alignBy s err).fuses = s.fuses := by
  simp only [State.alignBy]
  constructor <;> (repeat' split) <;> simp [apply_ite State.pending, apply_ite State.fuses]

@[simp] theorem State.emit_keeps (s : State) (o : Out) :
    (State.emit s o).pending = s.pending ∧ (State.emit s o).fuses = s.fuses := by
  simp only [State.emit]
  constructor <;> (repeat' split) <;> simp [apply_ite State.pending, apply_ite State.fuses]

@[simp] theorem State.collFail_keeps (s : State) (h : Nat) (status : Nat) :
    (State.collFail s h status).pending = s.pending ∧ (State.collFail s h status).fuses = s.fuses := by
  simp only [State.collFail]
  constructor <;> (repeat' split) <;> simp [apply_ite State.pending, apply_ite State.fuses]

@[simp] theorem State.endTxn_keeps (s : State) (t : Txn) (status : Nat) :
    (State.endTxn s t status).pending = s.pending ∧ (State.endTxn s t status).fuses = s.fuses := by
  simp only [State.endTxn]
  constructor <;> (repeat' split) <;> simp [apply_ite State.pending, apply_ite State.fuses]

@[simp] theorem State.failTxns_keeps (s : State) (p : Nat) :
    (State.failTxns s p).pending = s.pending ∧ (State.failTxns s p).fuses = s.fuses := by
  simp only [State.failTxns]
  constructor <;> (repeat' split) <;> simp [apply_ite State.pending, apply_ite State.fuses]

@[simp] theorem State.leaveUp_keeps (s : State) (p : Nat) (cause : Nat) (keepControl : Bool) :
    (State.leaveUp s p cause keepControl).pending = s.pending ∧ (State.leaveUp s p cause keepControl).fuses = s.fuses := by
  simp only [State.leaveUp]
  constructor <;> (repeat' split) <;> simp [apply_ite State.pending, apply_ite State.fuses]

@[simp] theorem State.lossCheck_keeps (s : State) (p : Nat) :
    (State.lossCheck s p).pending = s.pending ∧ (State.lossCheck s p).fuses = s.fuses := by
  simp only [State.lossCheck]
  constructor <;> (repeat' split) <;> simp [apply_ite State.pending, apply_ite State.fuses]

@[simp] theorem State.portDown_keeps (s : State) (p : Nat) (cause : Nat) :
    (State.portDown s p cause).pending = s.pending ∧ (State.portDown s p cause).fuses = s.fuses := by
  simp only [State.portDown]
  constructor <;> (repeat' split) <;> simp [apply_ite State.pending, apply_ite State.fuses]

@[simp] theorem State.portHold_keeps (s : State) (p : Nat) (reason : Nat) :
    (State.portHold s p reason).pending = s.pending ∧ (State.portHold s p reason).fuses = s.fuses := by
  simp only [State.portHold]
  constructor <;> (repeat' split) <;> simp [apply_ite State.pending, apply_ite State.fuses]

@[simp] theorem State.startTrain_keeps (s : State) (p : Nat) :
    (State.startTrain s p).pending = s.pending ∧ (State.startTrain s p).fuses = s.fuses := by
  simp only [State.startTrain]
  constructor <;> (repeat' split) <;> simp [apply_ite State.pending, apply_ite State.fuses]

@[simp] theorem State.sendNew_keeps (s : State) (p : Nat) :
    (State.sendNew s p).pending = s.pending ∧ (State.sendNew s p).fuses = s.fuses := by
  simp only [State.sendNew]
  constructor <;> (repeat' split) <;> simp [apply_ite State.pending, apply_ite State.fuses]

@[simp] theorem State.linkTaken_keeps (s : State) (p : Nat) (m : LinkMsg) :
    (State.linkTaken s p m).pending = s.pending ∧ (State.linkTaken s p m).fuses = s.fuses := by
  simp only [State.linkTaken]
  constructor <;> (repeat' split) <;> simp [apply_ite State.pending, apply_ite State.fuses]

@[simp] theorem State.portDisable_keeps (s : State) (p : Nat) :
    (State.portDisable s p).pending = s.pending ∧ (State.portDisable s p).fuses = s.fuses := by
  simp only [State.portDisable]
  constructor <;> (repeat' split) <;> simp [apply_ite State.pending, apply_ite State.fuses]

@[simp] theorem State.portStep_keeps (s : State) (p : Nat) (st : Nat) :
    (State.portStep s p st).pending = s.pending ∧ (State.portStep s p st).fuses = s.fuses := by
  simp only [State.portStep]
  constructor <;> (repeat' split) <;> simp [apply_ite State.pending, apply_ite State.fuses]

@[simp] theorem State.waltzMsg_keeps (s : State) (p typ step len : Nat) (m : LinkMsg) (eff : State → State)
    (h : ∀ t : State, (eff t).pending = t.pending ∧ (eff t).fuses = t.fuses) :
    (State.waltzMsg s p typ step len m eff).pending = s.pending ∧ (State.waltzMsg s p typ step len m eff).fuses = s.fuses := by
  unfold State.waltzMsg
  constructor <;> (dsimp only; (repeat' split) <;> simp [(h _).1, (h _).2])

@[simp] theorem State.portUp_keeps (s : State) (p : Nat) :
    (State.portUp s p).pending = s.pending ∧ (State.portUp s p).fuses = s.fuses := by
  simp only [State.portUp]
  constructor <;> (repeat' split) <;> simp [apply_ite State.pending, apply_ite State.fuses]

@[simp] theorem State.stepSix_keeps (s : State) (p : Nat) :
    (State.stepSix s p).pending = s.pending ∧ (State.stepSix s p).fuses = s.fuses := by
  simp only [State.stepSix]
  constructor <;> (repeat' split) <;> simp [apply_ite State.pending, apply_ite State.fuses]

@[simp] theorem State.sendFlit_keeps (s : State) (a : Nat) (x : Flit) :
    (State.sendFlit s a x).pending = s.pending ∧ (State.sendFlit s a x).fuses = s.fuses := by
  simp only [State.sendFlit]
  constructor <;> (repeat' split) <;> simp [apply_ite State.pending, apply_ite State.fuses]

@[simp] theorem State.queueFlit_keeps (s : State) (a : Nat) (x : Flit) :
    (State.queueFlit s a x).pending = s.pending ∧ (State.queueFlit s a x).fuses = s.fuses := by
  simp only [State.queueFlit]
  constructor <;> (repeat' split) <;> simp [apply_ite State.pending, apply_ite State.fuses]

@[simp] theorem State.pumpFlits_keeps (s : State) (a : Nat) :
    (State.pumpFlits s a).pending = s.pending ∧ (State.pumpFlits s a).fuses = s.fuses := by
  simp only [State.pumpFlits]
  constructor <;> (repeat' split) <;> simp [apply_ite State.pending, apply_ite State.fuses]

@[simp] theorem State.fenceHub_keeps (s : State) (h : Nat) :
    (State.fenceHub s h).pending = s.pending ∧ (State.fenceHub s h).fuses = s.fuses := by
  simp only [State.fenceHub]
  constructor <;> (repeat' split) <;> simp [apply_ite State.pending, apply_ite State.fuses]

@[simp] theorem State.d2dFail_keeps (s : State) (a : Nat) :
    (State.d2dFail s a).pending = s.pending ∧ (State.d2dFail s a).fuses = s.fuses := by
  simp only [State.d2dFail]
  constructor <;> (repeat' split) <;> simp [apply_ite State.pending, apply_ite State.fuses]

@[simp] theorem State.askReplay_keeps (s : State) (a : Nat) :
    (State.askReplay s a).pending = s.pending ∧ (State.askReplay s a).fuses = s.fuses := by
  simp only [State.askReplay]
  constructor <;> (repeat' split) <;> simp [apply_ite State.pending, apply_ite State.fuses]

@[simp] theorem State.replayFrom_keeps (s : State) (a : Nat) (seq : Nat) :
    (State.replayFrom s a seq).pending = s.pending ∧ (State.replayFrom s a seq).fuses = s.fuses := by
  simp only [State.replayFrom]
  constructor <;> (repeat' split) <;> simp [apply_ite State.pending, apply_ite State.fuses]

@[simp] theorem State.takeFlit_keeps (s : State) (a : Nat) (f : List Byte) :
    (State.takeFlit s a f).pending = s.pending ∧ (State.takeFlit s a f).fuses = s.fuses := by
  simp only [State.takeFlit]
  constructor <;> (repeat' split) <;> simp [apply_ite State.pending, apply_ite State.fuses]

@[simp] theorem State.storeCollLoad_keeps (s : State) (h : Nat) (v : Word) :
    (State.storeCollLoad s h v).pending = s.pending ∧ (State.storeCollLoad s h v).fuses = s.fuses := by
  simp only [State.storeCollLoad]
  constructor <;> (repeat' split) <;> simp [apply_ite State.pending, apply_ite State.fuses]

@[simp] theorem State.redFlags_keeps (s : State) (h : Nat) (fl : Flags) :
    (State.redFlags s h fl).pending = s.pending ∧ (State.redFlags s h fl).fuses = s.fuses := by
  simp only [State.redFlags]
  constructor <;> (repeat' split) <;> simp [apply_ite State.pending, apply_ite State.fuses]

@[simp] theorem State.collSend_keeps (s : State) (h : Nat) (step : Nat) (dst : Nat) (f : Nat) (scaled : Bool) (xs : List Nat) :
    (State.collSend s h step dst f scaled xs).pending = s.pending ∧ (State.collSend s h step dst f scaled xs).fuses = s.fuses := by
  simp only [State.collSend]
  constructor <;> (repeat' split) <;> simp [apply_ite State.pending, apply_ite State.fuses]

@[simp] theorem State.collRead_keeps (s : State) (h : Nat) (o : Nat) (f : Nat) (n : Nat) :
    (State.collRead s h o f n).1.pending = s.pending ∧ (State.collRead s h o f n).1.fuses = s.fuses := by
  simp only [State.collRead]
  constructor <;> (repeat' split) <;> simp [apply_ite State.pending, apply_ite State.fuses]

@[simp] theorem State.collAdd_keeps (s : State) (h : Nat) (lo : Nat) (vs : List Nat) :
    (State.collAdd s h lo vs).pending = s.pending ∧ (State.collAdd s h lo vs).fuses = s.fuses := by
  simp only [State.collAdd]
  constructor <;> (repeat' split) <;> simp [apply_ite State.pending, apply_ite State.fuses]

@[simp] theorem State.collTake_keeps (s : State) (h : Nat) (lo : Nat) (mode : Nat) (p : Packet) :
    (State.collTake s h lo mode p).pending = s.pending ∧ (State.collTake s h lo mode p).fuses = s.fuses := by
  simp only [State.collTake]
  constructor <;> (repeat' split) <;> simp [apply_ite State.pending, apply_ite State.fuses]

@[simp] theorem State.moveWrite_keeps (s : State) (h : Nat) (dst : Nat) (off : Nat) (bs : List Byte) :
    (State.moveWrite s h dst off bs).pending = s.pending ∧ (State.moveWrite s h dst off bs).fuses = s.fuses := by
  simp only [State.moveWrite]
  constructor <;> (repeat' split) <;> simp [apply_ite State.pending, apply_ite State.fuses]

@[simp] theorem State.collMove_keeps (s : State) (h : Nat) (dst : Nat) (src : Nat) (units : Nat) :
    (State.collMove s h dst src units).pending = s.pending ∧ (State.collMove s h dst src units).fuses = s.fuses := by
  simp only [State.collMove]
  constructor <;> (repeat' split) <;> simp [apply_ite State.pending, apply_ite State.fuses]

@[simp] theorem State.collGate_keeps (s : State) (h : Nat) (g : Nat) :
    (State.collGate s h g).pending = s.pending ∧ (State.collGate s h g).fuses = s.fuses := by
  simp only [State.collGate]
  constructor <;> (repeat' split) <;> simp [apply_ite State.pending, apply_ite State.fuses]

@[simp] theorem State.collPop_keeps (s : State) (h : Nat) :
    (State.collPop s h).pending = s.pending ∧ (State.collPop s h).fuses = s.fuses := by
  simp only [State.collPop]
  constructor <;> (repeat' split) <;> simp [apply_ite State.pending, apply_ite State.fuses]

@[simp] theorem State.collWrite_keeps (s : State) (h : Nat) (off : Nat) (xs : List Nat) :
    (State.collWrite s h off xs).pending = s.pending ∧ (State.collWrite s h off xs).fuses = s.fuses := by
  simp only [State.collWrite]
  constructor <;> (repeat' split) <;> simp [apply_ite State.pending, apply_ite State.fuses]

@[simp] theorem State.collMoveOn_keeps (s : State) (h : Nat) :
    (State.collMoveOn s h).1.pending = s.pending ∧ (State.collMoveOn s h).1.fuses = s.fuses := by
  simp only [State.collMoveOn]
  constructor <;> (repeat' split) <;> simp [apply_ite State.pending, apply_ite State.fuses]

@[simp] theorem State.collRun_keeps (n : Nat) (s : State) (h : Nat) : (State.collRun s h n).pending = s.pending ∧ (State.collRun s h n).fuses = s.fuses := by
  induction n generalizing s with
  | zero => exact ⟨rfl, rfl⟩
  | succ n ih => constructor <;> (unfold State.collRun; dsimp only; split <;> simp [ih])

@[simp] theorem State.collGo_keeps (s : State) (h : Nat) : (State.collGo s h).pending = s.pending ∧ (State.collGo s h).fuses = s.fuses := by
  unfold State.collGo
  constructor <;> (dsimp only; (repeat' split) <;> simp [apply_ite State.pending, apply_ite State.fuses])

@[simp] theorem State.collTick_keeps (s : State) :
    (State.collTick s).pending = s.pending ∧ (State.collTick s).fuses = s.fuses := by
  simp only [State.collTick]
  constructor <;> (repeat' split) <;> simp [apply_ite State.pending, apply_ite State.fuses]

@[simp] theorem State.collArrive_keeps (s0 : State) (port : Nat) (p : Packet) :
    (State.collArrive s0 port p).pending = s0.pending ∧ (State.collArrive s0 port p).fuses = s0.fuses := by
  simp only [State.collArrive]
  constructor <;> (repeat' split) <;> simp [apply_ite State.pending, apply_ite State.fuses]

@[simp] theorem State.headerDrop_keeps (s : State) :
    (State.headerDrop s).pending = s.pending ∧ (State.headerDrop s).fuses = s.fuses := by
  simp only [State.headerDrop]
  constructor <;> (repeat' split) <;> simp [apply_ite State.pending, apply_ite State.fuses]

@[simp] theorem State.sliceDrop_keeps (s : State) :
    (State.sliceDrop s).pending = s.pending ∧ (State.sliceDrop s).fuses = s.fuses := by
  simp only [State.sliceDrop]
  constructor <;> (repeat' split) <;> simp [apply_ite State.pending, apply_ite State.fuses]

@[simp] theorem State.treeDrop_keeps (s : State) :
    (State.treeDrop s).pending = s.pending ∧ (State.treeDrop s).fuses = s.fuses := by
  simp only [State.treeDrop]
  constructor <;> (repeat' split) <;> simp [apply_ite State.pending, apply_ite State.fuses]

@[simp] theorem State.fmFail_keeps (s : State) :
    (State.fmFail s).pending = s.pending ∧ (State.fmFail s).fuses = s.fuses := by
  simp only [State.fmFail]
  constructor <;> (repeat' split) <;> simp [apply_ite State.pending, apply_ite State.fuses]

@[simp] theorem State.fmAccept_keeps (s : State) (p : Packet) (act : State → State)
    (h : ∀ t : State, (act t).pending = t.pending ∧ (act t).fuses = t.fuses) :
    (State.fmAccept s p act).pending = s.pending ∧ (State.fmAccept s p act).fuses = s.fuses := by
  unfold State.fmAccept
  constructor <;> (repeat' split) <;> simp [(h _).1, (h _).2]

@[simp] theorem State.forwardPkt_keeps (s : State) (port : Nat) (p : Packet) :
    (State.forwardPkt s port p).pending = s.pending ∧ (State.forwardPkt s port p).fuses = s.fuses := by
  simp only [State.forwardPkt]
  constructor <;> (repeat' split) <;> simp [apply_ite State.pending, apply_ite State.fuses]

theorem State.torusCheck_keeps {s t : State} {port : Nat} {p : Packet} (h : s.torusCheck port p = some t) :
    t.pending = s.pending ∧ t.fuses = s.fuses := by
  unfold State.torusCheck at h
  constructor <;> ((repeat' split at h) <;> first | (simp at h; done) | (simp only [Option.some.injEq] at h; subst h; simp))

@[simp] theorem State.pktArrive_keeps (s : State) (port : Nat) (p : Packet) (types : List Nat) (serve : Packet → State → State)
    (h : ∀ (q : Packet) (t : State), (serve q t).pending = t.pending ∧ (serve q t).fuses = t.fuses) :
    (State.pktArrive s port p types serve).pending = s.pending ∧ (State.pktArrive s port p types serve).fuses = s.fuses := by
  unfold State.pktArrive
  constructor <;> (dsimp only; (repeat' split) <;>
    first | (rename_i hk; simp [(State.torusCheck_keeps hk).1, (State.torusCheck_keeps hk).2]; done) | simp [(h _ _).1, (h _ _).2])

@[simp] theorem State.epochThen_keeps (s : State) (p : Packet) (act : State → State)
    (h : ∀ t : State, (act t).pending = t.pending ∧ (act t).fuses = t.fuses) :
    (State.epochThen s p act).pending = s.pending ∧ (State.epochThen s p act).fuses = s.fuses := by
  simp only [State.epochThen]
  constructor <;> (repeat' split) <;> simp [(h _).1, (h _).2]

@[simp] theorem State.pktServe_keeps (s : State) (port : Nat) (p : Packet) (types : List Nat) (serve : Packet → State → State)
    (h : ∀ (q : Packet) (t : State), (serve q t).pending = t.pending ∧ (serve q t).fuses = t.fuses) :
    (State.pktServe s port p types serve).pending = s.pending ∧ (State.pktServe s port p types serve).fuses = s.fuses := by
  unfold State.pktServe
  refine State.pktArrive_keeps s port p types _ fun q t => ?_
  constructor <;> (dsimp only; split) <;> simp [(h _ _).1, (h _ _).2]

@[simp] theorem State.serveRead_keeps (s : State) (p : Packet) (ecc : List (Nat × Ecc)) :
    (State.serveRead s p ecc).pending = s.pending ∧ (State.serveRead s p ecc).fuses = s.fuses := by
  simp only [State.serveRead]
  constructor <;> (repeat' split) <;> simp [apply_ite State.pending, apply_ite State.fuses]

@[simp] theorem State.serveWrite_keeps (s : State) (p : Packet) :
    (State.serveWrite s p).pending = s.pending ∧ (State.serveWrite s p).fuses = s.fuses := by
  simp only [State.serveWrite]
  constructor <;> (repeat' split) <;> simp [apply_ite State.pending, apply_ite State.fuses]

@[simp] theorem State.serveAdd_keeps (s : State) (p : Packet) :
    (State.serveAdd s p).pending = s.pending ∧ (State.serveAdd s p).fuses = s.fuses := by
  simp only [State.serveAdd]
  constructor <;> (repeat' split) <;> simp [apply_ite State.pending, apply_ite State.fuses]

@[simp] theorem State.closeTxn_keeps (s : State) (txn : Nat) :
    (State.closeTxn s txn).pending = s.pending ∧ (State.closeTxn s txn).fuses = s.fuses := by
  simp only [State.closeTxn]
  constructor <;> (repeat' split) <;> simp [apply_ite State.pending, apply_ite State.fuses]

@[simp] theorem State.serveData_keeps (s : State) (p : Packet) :
    (State.serveData s p).pending = s.pending ∧ (State.serveData s p).fuses = s.fuses := by
  simp only [State.serveData]
  constructor <;> (repeat' split) <;> simp [apply_ite State.pending, apply_ite State.fuses]

@[simp] theorem State.serveAck_keeps (s : State) (p : Packet) :
    (State.serveAck s p).pending = s.pending ∧ (State.serveAck s p).fuses = s.fuses := by
  simp only [State.serveAck]
  constructor <;> (repeat' split) <;> simp [apply_ite State.pending, apply_ite State.fuses]

@[simp] theorem State.serveErr_keeps (s : State) (p : Packet) :
    (State.serveErr s p).pending = s.pending ∧ (State.serveErr s p).fuses = s.fuses := by
  simp only [State.serveErr]
  constructor <;> (repeat' split) <;> simp [apply_ite State.pending, apply_ite State.fuses]

@[simp] theorem State.flooded_keeps (s : State) (port : Nat) (p : Packet) (types : List Nat) (ok : Packet → Bool) (act : Packet → State → State)
    (h : ∀ (q : Packet) (t : State), (act q t).pending = t.pending ∧ (act q t).fuses = t.fuses) :
    (State.flooded s port p types ok act).pending = s.pending ∧ (State.flooded s port p types ok act).fuses = s.fuses := by
  unfold State.flooded
  refine State.pktArrive_keeps s port p types _ fun q t => ?_
  constructor <;> (dsimp only; (repeat' split) <;> simp [(h _ _).1, (h _ _).2])

@[simp] theorem State.fenced__keeps (s : State) (port : Nat) (p : Packet) (typ other : Nat) (act : Packet → State → State)
    (h : ∀ (q : Packet) (t : State), (act q t).pending = t.pending ∧ (act q t).fuses = t.fuses) :
    (State.fenced_ s port p typ other act).pending = s.pending ∧ (State.fenced_ s port p typ other act).fuses = s.fuses := by
  have hf := State.flooded_keeps s port p [typ] fencePlOk act h
  unfold State.fenced_
  constructor <;> (repeat' split) <;> first | rfl | simp only [hf]

@[simp] theorem State.writeCoefs_keeps (s : State) (n : Nat) :
    (State.writeCoefs s n).pending = s.pending ∧ (State.writeCoefs s n).fuses = s.fuses := by
  simp only [State.writeCoefs]
  constructor <;> (repeat' split) <;> simp [apply_ite State.pending, apply_ite State.fuses]

@[simp] theorem State.updClock_keeps (s : State) (f : ClockSt → ClockSt) :
    (State.updClock s f).pending = s.pending ∧ (State.updClock s f).fuses = s.fuses := by
  simp only [State.updClock]
  constructor <;> (repeat' split) <;> simp [apply_ite State.pending, apply_ite State.fuses]

@[simp] theorem State.changeRef_keeps (s : State) (r : Nat) :
    (State.changeRef s r).pending = s.pending ∧ (State.changeRef s r).fuses = s.fuses := by
  simp only [State.changeRef]
  constructor <;> (repeat' split) <;> simp [apply_ite State.pending, apply_ite State.fuses]

@[simp] theorem State.moveUp_keeps (s : State) :
    (State.moveUp s).pending = s.pending ∧ (State.moveUp s).fuses = s.fuses := by
  simp only [State.moveUp]
  constructor <;> (repeat' split) <;> simp [apply_ite State.pending, apply_ite State.fuses]

@[simp] theorem State.nmiAll_keeps (s : State) :
    (State.nmiAll s).pending = s.pending ∧ (State.nmiAll s).fuses = s.fuses := by
  simp only [State.nmiAll]
  constructor <;> (repeat' split) <;> simp [apply_ite State.pending, apply_ite State.fuses]

@[simp] theorem State.sourceFails_keeps (s : State) (r : Nat) :
    (State.sourceFails s r).pending = s.pending ∧ (State.sourceFails s r).fuses = s.fuses := by
  simp only [State.sourceFails]
  constructor <;> (repeat' split) <;> simp [apply_ite State.pending, apply_ite State.fuses]

@[simp] theorem State.disagree_keeps (s : State) (xtalIn3 : Bool) (ioscIn3 : Bool) :
    (State.disagree s xtalIn3 ioscIn3).pending = s.pending ∧ (State.disagree s xtalIn3 ioscIn3).fuses = s.fuses := by
  simp only [State.disagree]
  constructor <;> (repeat' split) <;> simp [apply_ite State.pending, apply_ite State.fuses]

@[simp] theorem State.updDie_keeps (s : State) (d : Nat) (f : DieSt → DieSt) :
    (State.updDie s d f).pending = s.pending ∧ (State.updDie s d f).fuses = s.fuses := by
  simp only [State.updDie]
  constructor <;> (repeat' split) <;> simp [apply_ite State.pending, apply_ite State.fuses]

@[simp] theorem State.clocked_keeps (s : State) :
    (State.clocked s).pending = s.pending ∧ (State.clocked s).fuses = s.fuses := by
  simp only [State.clocked]
  constructor <;> (repeat' split) <;> simp [apply_ite State.pending, apply_ite State.fuses]

@[simp] theorem State.timeTick_keeps (s0 : State) :
    (State.timeTick s0).pending = s0.pending ∧ (State.timeTick s0).fuses = s0.fuses := by
  simp only [State.timeTick]
  constructor <;> (repeat' split) <;> simp [apply_ite State.pending, apply_ite State.fuses]

@[simp] theorem State.commitEv_keeps (s : State) (e : Ev) :
    (State.commitEv s e).pending = s.pending ∧ (State.commitEv s e).fuses = s.fuses := by
  simp only [State.commitEv]
  constructor <;> (repeat' split) <;> simp [apply_ite State.pending, apply_ite State.fuses]

@[simp] theorem State.flashWrite_keeps (s : State) (dev : Nat) (off : Nat) (bs : List Byte) :
    (State.flashWrite s dev off bs).pending = s.pending ∧ (State.flashWrite s dev off bs).fuses = s.fuses := by
  simp only [State.flashWrite]
  constructor <;> (repeat' split) <;> simp [apply_ite State.pending, apply_ite State.fuses]

@[simp] theorem State.flashErase_keeps (s : State) (dev : Nat) (off : Nat) (n : Nat) :
    (State.flashErase s dev off n).pending = s.pending ∧ (State.flashErase s dev off n).fuses = s.fuses := by
  simp only [State.flashErase]
  constructor <;> (repeat' split) <;> simp [apply_ite State.pending, apply_ite State.fuses]

@[simp] theorem State.freeBytes_keeps (s : State) (n : Nat) :
    (State.freeBytes s n).1.pending = s.pending ∧ (State.freeBytes s n).1.fuses = s.fuses := by
  simp only [State.freeBytes]
  constructor <;> (repeat' split) <;> simp [apply_ite State.pending, apply_ite State.fuses]

@[simp] theorem State.boxBegin_keeps (s : State) (cause : Nat) :
    (State.boxBegin s cause).pending = s.pending ∧ (State.boxBegin s cause).fuses = s.fuses := by
  simp only [State.boxBegin]
  constructor <;> (repeat' split) <;> simp [apply_ite State.pending, apply_ite State.fuses]

@[simp] theorem State.boxRecord_keeps (s : State) (cause : Nat) :
    (State.boxRecord s cause).pending = s.pending ∧ (State.boxRecord s cause).fuses = s.fuses := by
  simp only [State.boxRecord]
  constructor <;> (repeat' split) <;> simp [apply_ite State.pending, apply_ite State.fuses]

@[simp] theorem State.boxProgram_keeps (s : State) (dev : Nat) (slot : Nat) (b : List Byte) (fail : Bool) :
    (State.boxProgram s dev slot b fail).pending = s.pending ∧ (State.boxProgram s dev slot b fail).fuses = s.fuses := by
  simp only [State.boxProgram]
  constructor <;> (repeat' split) <;> simp [apply_ite State.pending, apply_ite State.fuses]

@[simp] theorem State.boxDone_keeps (s : State) (cause : Nat) (b : List Byte) (fail0 : Bool) (fail1 : Bool) :
    (State.boxDone s cause b fail0 fail1).pending = s.pending ∧ (State.boxDone s cause b fail0 fail1).fuses = s.fuses := by
  simp only [State.boxDone]
  constructor <;> (repeat' split) <;> simp [apply_ite State.pending, apply_ite State.fuses]

@[simp] theorem State.boxTear_keeps (s : State) :
    (State.boxTear s).pending = s.pending ∧ (State.boxTear s).fuses = s.fuses := by
  simp only [State.boxTear]
  constructor <;> (repeat' split) <;> simp [apply_ite State.pending, apply_ite State.fuses]

@[simp] theorem State.updPower_keeps (s : State) (f : PowerSt → PowerSt) :
    (State.updPower s f).pending = s.pending ∧ (State.updPower s f).fuses = s.fuses := by
  simp only [State.updPower]
  constructor <;> (repeat' split) <;> simp [apply_ite State.pending, apply_ite State.fuses]

@[simp] theorem State.cold_keeps (s : State) (ph : Phase) (cause : Nat) :
    (State.cold s ph cause).pending = s.pending ∧ (State.cold s ph cause).fuses = s.fuses := by
  simp only [State.cold]
  constructor <;> (repeat' split) <;> simp [apply_ite State.pending, apply_ite State.fuses]

@[simp] theorem State.pauseCore_keeps (s : State) (c : Nat) : (State.pauseCore s c).pending = s.pending ∧ (State.pauseCore s c).fuses = s.fuses := by
  unfold State.pauseCore
  constructor <;> (dsimp only; (repeat' split) <;> simp [apply_ite State.pending, apply_ite State.fuses])

@[simp] theorem State.pauseRefresh_keeps (s : State) :
    (State.pauseRefresh s).pending = s.pending ∧ (State.pauseRefresh s).fuses = s.fuses := by
  simp only [State.pauseRefresh]
  constructor <;> (repeat' split) <;> simp [apply_ite State.pending, apply_ite State.fuses]

@[simp] theorem State.enterStage_keeps (s : State) (cause : Nat) (k : Nat) :
    (State.enterStage s cause k).pending = s.pending ∧ (State.enterStage s cause k).fuses = s.fuses := by
  simp only [State.enterStage]
  constructor <;> (repeat' split) <;> simp [apply_ite State.pending, apply_ite State.fuses]

@[simp] theorem State.enterTo_keeps (s : State) (k : Nat) (cause : Nat) :
    (State.enterTo s k cause).pending = s.pending ∧ (State.enterTo s k cause).fuses = s.fuses := by
  simp only [State.enterTo]
  constructor <;> (repeat' split) <;> simp [apply_ite State.pending, apply_ite State.fuses]

@[simp] theorem State.critical_keeps (s : State) (src : Nat) (code : Nat) (t : Int) :
    (State.critical s src code t).pending = s.pending ∧ (State.critical s src code t).fuses = s.fuses := by
  simp only [State.critical]
  constructor <;> (repeat' split) <;> simp [apply_ite State.pending, apply_ite State.fuses]

@[simp] theorem State.dieSample_keeps (s : State) (d : Nat) (ts : List Int) :
    (State.dieSample s d ts).pending = s.pending ∧ (State.dieSample s d ts).fuses = s.fuses := by
  simp only [State.dieSample]
  constructor <;> (repeat' split) <;> simp [apply_ite State.pending, apply_ite State.fuses]

@[simp] theorem State.updCpu_keeps (s : State) (c : Nat) (f : CpuSt → CpuSt) :
    (State.updCpu s c f).pending = s.pending ∧ (State.updCpu s c f).fuses = s.fuses := by
  simp only [State.updCpu]
  constructor <;> (repeat' split) <;> simp [apply_ite State.pending, apply_ite State.fuses]

@[simp] theorem State.cpuOut_keeps (s : State) (c : Nat) (bus : Bool) (v : Nat) :
    (State.cpuOut s c bus v).pending = s.pending ∧ (State.cpuOut s c bus v).fuses = s.fuses := by
  simp only [State.cpuOut]
  constructor <;> (repeat' split) <;> simp [apply_ite State.pending, apply_ite State.fuses]

@[simp] theorem State.storeMxeCfg_keeps (s : State) (c : Nat) (v : Word) :
    (State.storeMxeCfg s c v).pending = s.pending ∧ (State.storeMxeCfg s c v).fuses = s.fuses := by
  simp only [State.storeMxeCfg]
  constructor <;> (repeat' split) <;> simp [apply_ite State.pending, apply_ite State.fuses]

@[simp] theorem State.storeClken_keeps (s : State) (c : Nat) (v : Word) :
    (State.storeClken s c v).pending = s.pending ∧ (State.storeClken s c v).fuses = s.fuses := by
  simp only [State.storeClken]
  constructor <;> (repeat' split) <;> simp [apply_ite State.pending, apply_ite State.fuses]

@[simp] theorem State.storeFnLoad_keeps (s : State) (c : Nat) (v : Word) :
    (State.storeFnLoad s c v).pending = s.pending ∧ (State.storeFnLoad s c v).fuses = s.fuses := by
  simp only [State.storeFnLoad]
  constructor <;> (repeat' split) <;> simp [apply_ite State.pending, apply_ite State.fuses]

@[simp] theorem State.storeStage_keeps (s : State) (c : Nat) (off : Nat) (bs : List Byte) :
    (State.storeStage s c off bs).pending = s.pending ∧ (State.storeStage s c off bs).fuses = s.fuses := by
  simp only [State.storeStage]
  constructor <;> (repeat' split) <;> simp [apply_ite State.pending, apply_ite State.fuses]

@[simp] theorem State.ctlWrite_keeps (s : State) (c : Fin 136) (off : Nat) (width : Nat) (v : BitVec 64) :
    (State.ctlWrite s c off width v).pending = s.pending ∧ (State.ctlWrite s c off width v).fuses = s.fuses := by
  simp only [State.ctlWrite]
  constructor <;> (repeat' split) <;> simp [apply_ite State.pending, apply_ite State.fuses]

@[simp] theorem State.hubWrite_keeps (s : State) (h : Fin 2) (off : Nat) (v : Word) :
    (State.hubWrite s h off v).pending = s.pending ∧ (State.hubWrite s h off v).fuses = s.fuses := by
  simp only [State.hubWrite]
  constructor <;> (repeat' split) <;> simp [apply_ite State.pending, apply_ite State.fuses]

@[simp] theorem State.mscWr_keeps (s : State) (r : Nat) (off : Nat) (v : Word) :
    (State.mscWr s r off v).pending = s.pending ∧ (State.mscWr s r off v).fuses = s.fuses := by
  simp only [State.mscWr]
  constructor <;> (repeat' split) <;> simp [apply_ite State.pending, apply_ite State.fuses]

theorem State.windowStore_keeps {s t : State} {p : Place} {width : Nat} {v : BitVec 64} (h : s.windowStore p width v = some t) :
    t.pending = s.pending ∧ t.fuses = s.fuses := by
  unfold State.windowStore at h
  constructor <;> (dsimp only at h; (repeat' split at h) <;> first | (simp at h; done) | (simp only [Option.some.injEq] at h; subst h; simp))

@[simp] theorem State.hbmAccess_keeps (s : State) (cpu : Nat) (a : Access) (o : Nat) (width : Nat) (v : BitVec 64) (ecc : Ecc) (err : HbmErr) :
    (State.hbmAccess s cpu a o width v ecc err).pending = s.pending ∧ (State.hbmAccess s cpu a o width v ecc err).fuses = s.fuses := by
  simp only [State.hbmAccess]
  constructor <;> (repeat' split) <;> simp [apply_ite State.pending, apply_ite State.fuses]

@[simp] theorem State.spadAccess_keeps (s : State) (cpu : Nat) (a : Access) (c : Nat) (at_ : Nat) (width : Nat) (v : BitVec 64) (ecc : Ecc) :
    (State.spadAccess s cpu a c at_ width v ecc).pending = s.pending ∧ (State.spadAccess s cpu a c at_ width v ecc).fuses = s.fuses := by
  simp only [State.spadAccess]
  constructor <;> (repeat' split) <;> simp [apply_ite State.pending, apply_ite State.fuses]

@[simp] theorem State.cpuAccess_keeps (s : State) (cpu : Nat) (a : Access) (off width : Nat) (v : BitVec 64) (ecc : Ecc) (err : HbmErr) :
    (State.cpuAccess s cpu a off width v ecc err).pending = s.pending ∧ (State.cpuAccess s cpu a off width v ecc err).fuses = s.fuses := by
  unfold State.cpuAccess
  constructor <;> ((repeat' split) <;>
    first | (rename_i hk; simp [(State.windowStore_keeps hk).1, (State.windowStore_keeps hk).2]; done) | simp)

@[simp] theorem State.updSec_keeps (s : State) (f : SecSt → SecSt) :
    (State.updSec s f).pending = s.pending ∧ (State.updSec s f).fuses = s.fuses := by
  simp only [State.updSec]
  constructor <;> (repeat' split) <;> simp [apply_ite State.pending, apply_ite State.fuses]

@[simp] theorem State.noteMr2_keeps (s : State) :
    (State.noteMr2 s).pending = s.pending ∧ (State.noteMr2 s).fuses = s.fuses := by
  simp only [State.noteMr2]
  constructor <;> (repeat' split) <;> simp [apply_ite State.pending, apply_ite State.fuses]

@[simp] theorem State.portsDown_keeps (s : State) :
    (State.portsDown s).pending = s.pending ∧ (State.portsDown s).fuses = s.fuses := by
  simp only [State.portsDown]
  constructor <;> (repeat' split) <;> simp [apply_ite State.pending, apply_ite State.fuses]

@[simp] theorem State.eraseJob_keeps (s : State) :
    (State.eraseJob s).pending = s.pending ∧ (State.eraseJob s).fuses = s.fuses := by
  simp only [State.eraseJob]
  constructor <;> (repeat' split) <;> simp [apply_ite State.pending, apply_ite State.fuses]

@[simp] theorem State.setOwnerKey_keeps (s : State) (b : List Byte) :
    (State.setOwnerKey s b).pending = s.pending ∧ (State.setOwnerKey s b).fuses = s.fuses := by
  simp only [State.setOwnerKey]
  constructor <;> (repeat' split) <;> simp [apply_ite State.pending, apply_ite State.fuses]

@[simp] theorem State.setFmKey_keeps (s : State) (b : List Byte) :
    (State.setFmKey s b).pending = s.pending ∧ (State.setFmKey s b).fuses = s.fuses := by
  simp only [State.setFmKey]
  constructor <;> (repeat' split) <;> simp [apply_ite State.pending, apply_ite State.fuses]

@[simp] theorem State.zeroMemory_keeps (s : State) :
    (State.zeroMemory s).pending = s.pending ∧ (State.zeroMemory s).fuses = s.fuses := by
  simp only [State.zeroMemory]
  constructor <;> (repeat' split) <;> simp [apply_ite State.pending, apply_ite State.fuses]

@[simp] theorem State.newDebugNonce_keeps (s : State) :
    (State.newDebugNonce s).pending = s.pending ∧ (State.newDebugNonce s).fuses = s.fuses := by
  simp only [State.newDebugNonce]
  constructor <;> (repeat' split) <;> simp [apply_ite State.pending, apply_ite State.fuses]

@[simp] theorem State.resetBegin_keeps (s : State) (cause : Nat) :
    (State.resetBegin s cause).pending = s.pending ∧ (State.resetBegin s cause).fuses = s.fuses := by
  simp only [State.resetBegin]
  constructor <;> (repeat' split) <;> simp [apply_ite State.pending, apply_ite State.fuses]

@[simp] theorem State.updBoot_keeps (s : State) (f : BootSt → BootSt) :
    (State.updBoot s f).pending = s.pending ∧ (State.updBoot s f).fuses = s.fuses := by
  simp only [State.updBoot]
  constructor <;> (repeat' split) <;> simp [apply_ite State.pending, apply_ite State.fuses]

@[simp] theorem State.updFlash_keeps (s : State) (f : FlashSt → FlashSt) :
    (State.updFlash s f).pending = s.pending ∧ (State.updFlash s f).fuses = s.fuses := by
  simp only [State.updFlash]
  constructor <;> (repeat' split) <;> simp [apply_ite State.pending, apply_ite State.fuses]

@[simp] theorem State.cfgRefused_keeps (s : State) :
    (State.cfgRefused s).pending = s.pending ∧ (State.cfgRefused s).fuses = s.fuses := by
  simp only [State.cfgRefused]
  constructor <;> (repeat' split) <;> simp [apply_ite State.pending, apply_ite State.fuses]



@[simp] theorem State.eraseRecords_keeps (s : State) :
    (State.eraseRecords s).pending = s.pending ∧ (State.eraseRecords s).fuses = s.fuses := by
  simp only [State.eraseRecords]
  constructor <;> (repeat' split) <;> simp [apply_ite State.pending, apply_ite State.fuses]

@[simp] theorem State.writeRecords_keeps (s : State) (b : List Byte) :
    (State.writeRecords s b).pending = s.pending ∧ (State.writeRecords s b).fuses = s.fuses := by
  simp only [State.writeRecords]
  constructor <;> (repeat' split) <;> simp [apply_ite State.pending, apply_ite State.fuses]

@[simp] theorem State.gateAll_keeps (s : State) :
    (State.gateAll s).pending = s.pending ∧ (State.gateAll s).fuses = s.fuses := by
  simp only [State.gateAll]
  constructor <;> (repeat' split) <;> simp [apply_ite State.pending, apply_ite State.fuses]

@[simp] theorem State.enterShell_keeps (s : State) (cause : Nat) (item : Nat) :
    (State.enterShell s cause item).pending = s.pending ∧ (State.enterShell s cause item).fuses = s.fuses := by
  simp only [State.enterShell]
  constructor <;> (repeat' split) <;> simp [apply_ite State.pending, apply_ite State.fuses]

@[simp] theorem State.romBegin_keeps (s : State) :
    (State.romBegin s).pending = s.pending ∧ (State.romBegin s).fuses = s.fuses := by
  simp only [State.romBegin]
  constructor <;> (repeat' split) <;> simp [apply_ite State.pending, apply_ite State.fuses]



@[simp] theorem State.itemEffect_keeps (s : State) (n : Nat) (r : ItemReport) :
    (State.itemEffect s n r).pending = s.pending ∧ (State.itemEffect s n r).fuses = s.fuses := by
  simp only [State.itemEffect]
  constructor <;> (repeat' split) <;> simp [apply_ite State.pending, apply_ite State.fuses]

@[simp] theorem State.testDone_keeps (s : State) :
    (State.testDone s).pending = s.pending ∧ (State.testDone s).fuses = s.fuses := by
  simp only [State.testDone]
  constructor <;> (repeat' split) <;> simp [apply_ite State.pending, apply_ite State.fuses]

@[simp] theorem State.boxLost_keeps (s : State) :
    (State.boxLost s).pending = s.pending ∧ (State.boxLost s).fuses = s.fuses := by
  simp only [State.boxLost]
  constructor <;> (repeat' split) <;> simp [apply_ite State.pending, apply_ite State.fuses]

end Sys2Proof.Machine
end

