-- ==== Sys2Proof/Laws/FramesControl.lean ====
section
/-! SUPPORT. The operations of objects, management, events, security and boot leave the waiting commands and the fuses as they are. -/

namespace Sys2Proof.Machine

@[simp] theorem State.updHusk_keeps (s : State) (f : HuskSt → HuskSt) :
    (State.updHusk s f).pending = s.pending ∧ (State.updHusk s f).fuses = s.fuses := by
  simp only [State.updHusk]
  constructor <;> (repeat' split) <;> simp [apply_ite State.pending, apply_ite State.fuses]

@[simp] theorem State.updFab_keeps (s : State) (f : FabSt → FabSt) :
    (State.updFab s f).pending = s.pending ∧ (State.updFab s f).fuses = s.fuses := by
  simp only [State.updFab]
  constructor <;> (repeat' split) <;> simp [apply_ite State.pending, apply_ite State.fuses]

@[simp] theorem State.updMgmt_keeps (s : State) (f : MgmtSt → MgmtSt) :
    (State.updMgmt s f).pending = s.pending ∧ (State.updMgmt s f).fuses = s.fuses := by
  simp only [State.updMgmt]
  constructor <;> (repeat' split) <;> simp [apply_ite State.pending, apply_ite State.fuses]

@[simp] theorem State.noteAct_keeps (s : State) (acc : OAcc) (idx : Nat) (sub : Nat) (st : Nat) :
    (State.noteAct s acc idx sub st).pending = s.pending ∧ (State.noteAct s acc idx sub st).fuses = s.fuses := by
  simp only [State.noteAct]
  constructor <;> (repeat' split) <;> simp [apply_ite State.pending, apply_ite State.fuses]







@[simp] theorem State.windowRead_keeps (s : State) (c : Fin 16) (rel : Nat) (width : Nat) :
    (State.windowRead s c rel width).pending = s.pending ∧ (State.windowRead s c rel width).fuses = s.fuses := by
  simp only [State.windowRead]
  constructor <;> (repeat' split) <;> simp [apply_ite State.pending, apply_ite State.fuses]

@[simp] theorem State.windowDone_keeps (s : State) (c : Fin 16) (st : Nat) :
    (State.windowDone s c st).pending = s.pending ∧ (State.windowDone s c st).fuses = s.fuses := by
  simp only [State.windowDone]
  constructor <;> (repeat' split) <;> simp [apply_ite State.pending, apply_ite State.fuses]









@[simp] theorem State.updMg_keeps (s : State) (f : MgmtSt → MgmtSt) :
    (State.updMg s f).pending = s.pending ∧ (State.updMg s f).fuses = s.fuses := by
  simp only [State.updMg]
  constructor <;> (repeat' split) <;> simp [apply_ite State.pending, apply_ite State.fuses]

@[simp] theorem State.mgmtDrop_keeps (s : State) :
    (State.mgmtDrop s).pending = s.pending ∧ (State.mgmtDrop s).fuses = s.fuses := by
  simp only [State.mgmtDrop]
  constructor <;> (repeat' split) <;> simp [apply_ite State.pending, apply_ite State.fuses]

@[simp] theorem State.tell_keeps (s : State) (d : Datagram) :
    (State.tell s d).pending = s.pending ∧ (State.tell s d).fuses = s.fuses := by
  simp only [State.tell]
  constructor <;> (repeat' split) <;> simp [apply_ite State.pending, apply_ite State.fuses]

@[simp] theorem State.plainMsg_keeps (s : State) (to_ : Datagram) (typ : Nat) (session : Nat) (seq : Nat) (body : List Byte) :
    (State.plainMsg s to_ typ session seq body).pending = s.pending ∧ (State.plainMsg s to_ typ session seq body).fuses = s.fuses := by
  simp only [State.plainMsg]
  constructor <;> (repeat' split) <;> simp [apply_ite State.pending, apply_ite State.fuses]

@[simp] theorem State.dropSession_keeps (s : State) (id : Nat) :
    (State.dropSession s id).pending = s.pending ∧ (State.dropSession s id).fuses = s.fuses := by
  simp only [State.dropSession]
  constructor <;> (repeat' split) <;> simp [apply_ite State.pending, apply_ite State.fuses]

@[simp] theorem State.putSession_keeps (s : State) (x : Session) :
    (State.putSession s x).pending = s.pending ∧ (State.putSession s x).fuses = s.fuses := by
  simp only [State.putSession]
  constructor <;> (repeat' split) <;> simp [apply_ite State.pending, apply_ite State.fuses]

@[simp] theorem State.purge_keeps (s : State) :
    (State.purge s).pending = s.pending ∧ (State.purge s).fuses = s.fuses := by
  simp only [State.purge]
  constructor <;> (repeat' split) <;> simp [apply_ite State.pending, apply_ite State.fuses]

@[simp] theorem State.purgeAsm_keeps (s : State) :
    (State.purgeAsm s).pending = s.pending ∧ (State.purgeAsm s).fuses = s.fuses := by
  simp only [State.purgeAsm]
  constructor <;> (repeat' split) <;> simp [apply_ite State.pending, apply_ite State.fuses]

@[simp] theorem State.gather_keeps (s0 : State) (d : Datagram) :
    (State.gather s0 d).1.pending = s0.pending ∧ (State.gather s0 d).1.fuses = s0.fuses := by
  simp only [State.gather]
  constructor <;> (repeat' split) <;> simp [apply_ite State.pending, apply_ite State.fuses]

@[simp] theorem State.challenge_keeps (s : State) (d : Datagram) (b : List Byte) (n : List Byte) (r : List Byte) :
    (State.challenge s d b n r).pending = s.pending ∧ (State.challenge s d b n r).fuses = s.fuses := by
  simp only [State.challenge]
  constructor <;> (repeat' split) <;> simp [apply_ite State.pending, apply_ite State.fuses]

@[simp] theorem State.hello_keeps (s0 : State) (d : Datagram) (b : List Byte) :
    (State.hello s0 d b).pending = s0.pending ∧ (State.hello s0 d b).fuses = s0.fuses := by
  simp only [State.hello]
  constructor <;> (repeat' split) <;> simp [apply_ite State.pending, apply_ite State.fuses]

@[simp] theorem State.authFail_keeps (s : State) :
    (State.authFail s).pending = s.pending ∧ (State.authFail s).fuses = s.fuses := by
  simp only [State.authFail]
  constructor <;> (repeat' split) <;> simp [apply_ite State.pending, apply_ite State.fuses]

@[simp] theorem State.auth_keeps (s : State) (d : Datagram) (x : Session) (b : List Byte) :
    (State.auth s d x b).pending = s.pending ∧ (State.auth s d x b).fuses = s.fuses := by
  simp only [State.auth]
  constructor <;> (repeat' split) <;> simp [apply_ite State.pending, apply_ite State.fuses]









@[simp] theorem State.sendEvents_keeps (s : State) (x : Session) :
    (State.sendEvents s x).pending = s.pending ∧ (State.sendEvents s x).fuses = s.fuses := by
  simp only [State.sendEvents]
  constructor <;> (repeat' split) <;> simp [apply_ite State.pending, apply_ite State.fuses]

@[simp] theorem State.objReply_keeps (s : State) (p : Packet) (body : List Byte) :
    (State.objReply s p body).pending = s.pending ∧ (State.objReply s p body).fuses = s.fuses := by
  simp only [State.objReply]
  constructor <;> (repeat' split) <;> simp [apply_ite State.pending, apply_ite State.fuses]



end Sys2Proof.Machine
end

