-- ==== Sys2Proof/Laws/SMap.lean ====
section
/-! SUPPORT. The laws of the sparse table: a read after a write, the frame of a write, and the canonical form, kept by every
operation. -/

namespace Sys2Proof.SMap

variable {α : Type}

@[simp] theorem get_nil (d : α) (a : Nat) : get d [] a = d := rfl

theorem get_cons (d : α) (k a : Nat) (v : α) (m : SMap α) : get d ((k, v) :: m) a = if a = k then v else get d m a := rfl

@[simp] theorem get_erase (d : α) (m : SMap α) (a b : Nat) : get d (erase m a) b = if b = a then d else get d m b := by
  induction m with
  | nil => simp [erase]
  | cons p m ih =>
    obtain ⟨k, v⟩ := p
    by_cases h : k = a
    · subst h; by_cases hb : b = k
      · subst hb; simpa [erase] using ih
      · simp [erase, get_cons, ih, hb]
    · by_cases hb : b = k
      · subst hb; simp [erase, h, get_cons]
      · simp [erase, h, get_cons, ih, hb]

theorem get_ins (d : α) (m : SMap α) (a b : Nat) (x : α) (hm : ∀ p ∈ m, p.1 ≠ a) :
    get d (ins m a x) b = if b = a then x else get d m b := by
  induction m with
  | nil => simp [ins, get_cons]
  | cons p m ih =>
    obtain ⟨k, v⟩ := p
    have hk : k ≠ a := hm (k, v) (by simp)
    have ih := ih (fun q hq => hm q (by simp [hq]))
    by_cases hlt : a < k
    · simp [ins, hlt, get_cons]
    · by_cases hb : b = k
      · subst hb; simp [ins, hlt, get_cons, hk]
      · simp [ins, hlt, get_cons, hb, ih]

theorem erase_ne (m : SMap α) (a : Nat) : ∀ p ∈ erase m a, p.1 ≠ a := by
  induction m with
  | nil => simp [erase]
  | cons p m ih =>
    obtain ⟨k, v⟩ := p
    by_cases h : k = a
    · simpa [erase, h] using ih
    · simp only [erase, h, if_false, List.mem_cons]
      rintro q (rfl | hq)
      · exact h
      · exact ih q hq

/-- A read after a write: the value written, and every other key as it was. -/
@[simp] theorem get_set [DecidableEq α] (d : α) (m : SMap α) (a b : Nat) (x : α) :
    get d (set d m a x) b = if b = a then x else get d m b := by
  unfold set
  by_cases hx : x = d
  · simp [hx]
  · rw [if_neg hx, get_ins d _ a b x (erase_ne m a)]
    by_cases hb : b = a <;> simp [hb]

theorem erase_erase (m : SMap α) (a : Nat) : erase (erase m a) a = erase m a := by
  induction m with
  | nil => rfl
  | cons p m ih =>
    obtain ⟨k, v⟩ := p
    by_cases h : k = a <;> simp [erase, h, ih]

theorem erase_ins (m : SMap α) (a : Nat) (x : α) (hm : ∀ p ∈ m, p.1 ≠ a) : erase (ins m a x) a = m := by
  have he : ∀ m : SMap α, (∀ p ∈ m, p.1 ≠ a) → erase m a = m := by
    intro m
    induction m with
    | nil => intro _; rfl
    | cons p m ih =>
      obtain ⟨k, v⟩ := p
      intro h
      have hk : k ≠ a := h (k, v) (by simp)
      simp only [erase, hk, if_false, ih (fun q hq => h q (by simp [hq]))]
  induction m with
  | nil => simp [ins, erase]
  | cons p m ih =>
    obtain ⟨k, v⟩ := p
    have hk : k ≠ a := hm (k, v) (by simp)
    by_cases h : a < k
    · simp only [ins, h, if_true]
      rw [erase, if_pos rfl]
      exact he _ hm
    · simp only [ins, h, if_false, erase, hk, ih (fun q hq => hm q (by simp [hq]))]

/-- A second write of one key prevails. -/
@[simp] theorem set_set [DecidableEq α] (d : α) (m : SMap α) (a : Nat) (x y : α) : set d (set d m a x) a y = set d m a y := by
  have : erase (set d m a x) a = erase m a := by
    unfold set
    split
    · exact erase_erase m a
    · exact erase_ins _ a x (erase_ne m a)
  rw [set, this, ← set]

@[simp] theorem get_upd [DecidableEq α] (d : α) (m : SMap α) (a b : Nat) (f : α → α) :
    get d (upd d m a f) b = if b = a then f (get d m a) else get d m b := by simp [upd]

/-- A read after a write of consecutive keys. -/
theorem get_sets [DecidableEq α] (d : α) (xs : List α) (m : SMap α) (a b : Nat) :
    get d (sets d m a xs) b = if a ≤ b ∧ b < a + xs.length then xs.getD (b - a) d else get d m b := by
  induction xs generalizing m a with
  | nil => simp [sets]
  | cons x xs ih =>
    simp only [sets, ih, get_set, List.length_cons]
    by_cases h1 : b = a
    · subst h1; simp
    · by_cases h2 : a + 1 ≤ b ∧ b < a + 1 + xs.length
      · have : a ≤ b ∧ b < a + (xs.length + 1) := by omega
        rw [if_pos h2, if_pos this]
        have e : b - a = (b - (a + 1)) + 1 := by omega
        rw [e, List.getD_cons_succ]
      · have : ¬(a ≤ b ∧ b < a + (xs.length + 1)) := by omega
        rw [if_neg h2, if_neg this, if_neg h1]

/-- Outside the keys written, nothing changes. -/
theorem get_sets_of_out [DecidableEq α] (d : α) (xs : List α) (m : SMap α) (a b : Nat) (h : b < a ∨ a + xs.length ≤ b) :
    get d (sets d m a xs) b = get d m b := by
  rw [get_sets, if_neg (by omega)]

@[simp] theorem gets_length (d : α) (m : SMap α) (a n : Nat) : (gets d m a n).length = n := by
  induction n generalizing a with
  | zero => rfl
  | succ n ih => simp [gets, ih]

theorem gets_getD (d e : α) (m : SMap α) (a n i : Nat) (h : i < n) : (gets d m a n).getD i e = get d m (a + i) := by
  induction n generalizing a i with
  | zero => omega
  | succ n ih =>
    cases i with
    | zero => simp [gets]
    | succ i =>
      rw [gets, List.getD_cons_succ, ih _ _ (by omega)]
      congr 1; omega

/-- Reading back what was just written. -/
theorem gets_sets_same [DecidableEq α] (d : α) (xs : List α) (m : SMap α) (a : Nat) : gets d (sets d m a xs) a xs.length = xs := by
  apply List.ext_getElem (by simp)
  intro i h1 h2
  have := gets_getD d d (sets d m a xs) a xs.length i h2
  rw [List.getD_eq_getElem _ _ h1, get_sets, if_pos (by omega)] at this
  rw [this, Nat.add_sub_cancel_left, List.getD_eq_getElem _ _ h2]

/-! The canonical form. -/

theorem wfFrom_mono [DecidableEq α] (d : α) (m : SMap α) (a b : Nat) (h : a ≤ b) (hm : wfFrom d b m = true) : wfFrom d a m = true := by
  cases m with
  | nil => rfl
  | cons p m =>
    obtain ⟨k, v⟩ := p
    simp only [wfFrom, Bool.and_eq_true, decide_eq_true_eq] at *
    exact ⟨⟨by omega, hm.1.2⟩, hm.2⟩

theorem wfFrom_erase [DecidableEq α] (d : α) (m : SMap α) (lo a : Nat) (hm : wfFrom d lo m = true) : wfFrom d lo (erase m a) = true := by
  induction m generalizing lo with
  | nil => rfl
  | cons p m ih =>
    obtain ⟨k, v⟩ := p
    simp only [wfFrom, Bool.and_eq_true, decide_eq_true_eq] at hm
    by_cases h : k = a
    · simp only [erase, h, if_true]
      exact ih lo (wfFrom_mono d m lo (k + 1) (by omega) hm.2)
    · simp only [erase, h, if_false, wfFrom, Bool.and_eq_true, decide_eq_true_eq]
      exact ⟨hm.1, ih _ hm.2⟩

theorem wfFrom_ins [DecidableEq α] (d : α) (m : SMap α) (lo a : Nat) (x : α) (hx : x ≠ d) (hlo : lo ≤ a) (hm : wfFrom d lo m = true)
    (hne : ∀ p ∈ m, p.1 ≠ a) : wfFrom d lo (ins m a x) = true := by
  induction m generalizing lo with
  | nil => simp [ins, wfFrom, hx, hlo]
  | cons p m ih =>
    obtain ⟨k, v⟩ := p
    simp only [wfFrom, Bool.and_eq_true, decide_eq_true_eq] at hm
    have hk : k ≠ a := hne (k, v) (by simp)
    by_cases h : a < k
    · simp only [ins, h, if_true, wfFrom, Bool.and_eq_true, decide_eq_true_eq]
      exact ⟨⟨hlo, hx⟩, ⟨by omega, hm.1.2⟩, hm.2⟩
    · simp only [ins, h, if_false, wfFrom, Bool.and_eq_true, decide_eq_true_eq]
      exact ⟨hm.1, ih _ (by omega) hm.2 (fun q hq => hne q (by simp [hq]))⟩

/-- A write keeps the canonical form. -/
theorem wf_set [DecidableEq α] (d : α) (m : SMap α) (a : Nat) (x : α) (hm : wf d m = true) : wf d (set d m a x) = true := by
  unfold wf set at *
  by_cases hx : x = d
  · simp only [hx, if_true]; exact wfFrom_erase d m 0 a hm
  · simp only [hx, if_false]; exact wfFrom_ins d _ 0 a x hx (by omega) (wfFrom_erase d m 0 a hm) (erase_ne m a)

theorem wf_upd [DecidableEq α] (d : α) (m : SMap α) (a : Nat) (f : α → α) (hm : wf d m = true) : wf d (upd d m a f) = true :=
  wf_set d m a _ hm

theorem wf_sets [DecidableEq α] (d : α) (xs : List α) (m : SMap α) (a : Nat) (hm : wf d m = true) : wf d (sets d m a xs) = true := by
  induction xs generalizing m a with
  | nil => exact hm
  | cons x xs ih => exact ih _ _ (wf_set d m a x hm)

theorem wf_mapV [DecidableEq α] (d : α) (f : Nat → α → α) (m : SMap α) : wf d (mapV d f m) = true := by
  induction m with
  | nil => rfl
  | cons p m ih => exact wf_set d _ p.1 _ ih

/-- A read after every listed entry was changed. -/
@[simp] theorem get_mapV [DecidableEq α] (d : α) (f : Nat → α → α) (m : SMap α) (a : Nat) (hf : f a d = d) :
    get d (mapV d f m) a = f a (get d m a) := by
  induction m with
  | nil => exact hf.symm
  | cons p m ih =>
    obtain ⟨k, v⟩ := p
    simp only [mapV, get_set, get_cons]
    by_cases h : a = k
    · subst h; simp
    · simp only [h, if_false]; exact ih

theorem wf_filter [DecidableEq α] (d : α) (m : SMap α) (p : Nat × α → Bool) (hm : wf d m = true) : wf d (m.filter p) = true := by
  have key : ∀ (m : SMap α) lo, wfFrom d lo m = true → wfFrom d lo (m.filter p) = true := by
    intro m
    induction m with
    | nil => intro lo _; rfl
    | cons q m ih =>
      obtain ⟨k, v⟩ := q
      intro lo h
      simp only [wfFrom, Bool.and_eq_true, decide_eq_true_eq] at h
      by_cases hp : p (k, v) = true
      · simp only [List.filter_cons, hp, if_true, wfFrom, Bool.and_eq_true, decide_eq_true_eq]
        exact ⟨h.1, ih _ h.2⟩
      · simp only [List.filter_cons, hp]
        exact wfFrom_mono d _ lo (k + 1) (by omega) (ih _ h.2)
  exact key m 0 hm

/-- A key below every listed one reads as an unlisted key does. -/
theorem get_of_lt [DecidableEq α] (d : α) (m : SMap α) (lo a : Nat) (hm : wfFrom d lo m = true) (h : a < lo) : get d m a = d := by
  induction m generalizing lo with
  | nil => rfl
  | cons p m ih =>
    obtain ⟨k, v⟩ := p
    simp only [wfFrom, Bool.and_eq_true, decide_eq_true_eq] at hm
    rw [get_cons, if_neg (by omega)]
    exact ih _ hm.2 (by omega)

/-- Two tables in canonical form that read alike at every key are the same table. -/
theorem eq_of_get [DecidableEq α] (d : α) (m n : SMap α) (lo : Nat) (hm : wfFrom d lo m = true) (hn : wfFrom d lo n = true)
    (h : ∀ a, get d m a = get d n a) : m = n := by
  induction m generalizing n lo with
  | nil =>
    cases n with
    | nil => rfl
    | cons q n =>
      obtain ⟨k, v⟩ := q
      have h1 := h k
      simp only [wfFrom, Bool.and_eq_true, decide_eq_true_eq] at hn
      rw [get_nil, get_cons, if_pos rfl] at h1
      exact absurd h1.symm hn.1.2
  | cons p m ih =>
    obtain ⟨j, u⟩ := p
    simp only [wfFrom, Bool.and_eq_true, decide_eq_true_eq] at hm
    cases n with
    | nil =>
      have h1 := h j
      rw [get_nil, get_cons, if_pos rfl] at h1
      exact absurd h1 hm.1.2
    | cons q n =>
      obtain ⟨k, v⟩ := q
      simp only [wfFrom, Bool.and_eq_true, decide_eq_true_eq] at hn
      have hj := h j
      have hk := h k
      simp only [get_cons, if_true] at hj hk
      have e : j = k := by
        rcases Nat.lt_trichotomy j k with c | c | c
        · rw [if_neg (by omega), get_of_lt d n (k + 1) j hn.2 (by omega)] at hj
          exact absurd hj hm.1.2
        · exact c
        · rw [if_neg (by omega), get_of_lt d m (j + 1) k hm.2 (by omega)] at hk
          exact absurd hk.symm hn.1.2
      subst e
      rw [if_pos rfl] at hj
      subst hj
      congr 1
      refine ih n (j + 1) hm.2 hn.2 fun a => ?_
      by_cases c : a = j
      · subst c
        rw [get_of_lt d m (a + 1) a hm.2 (by omega), get_of_lt d n (a + 1) a hn.2 (by omega)]
      · simpa [get_cons, c] using h a

end Sys2Proof.SMap
end

