-- ==== Sys2Proof/Laws/State.lean ====
section
/-! SUPPORT. Reads of a field after an update of the state, one lemma for each, so that no proof unfolds a record update. -/

namespace Sys2Proof.Machine

variable (s : State)

/-! Units read after an update of one of them. -/

@[simp] theorem core_updCore (a b : Nat) (f : CoreSt → CoreSt) : (s.updCore a f).core b = if b = a then f (s.core a) else s.core b := by
  simp [State.core, State.updCore]
@[simp] theorem hub_updHub (a b : Nat) (f : HubSt → HubSt) : (s.updHub a f).hub b = if b = a then f (s.hub a) else s.hub b := by
  simp [State.hub, State.updHub]
@[simp] theorem port_updPort (a b : Nat) (f : PortSt → PortSt) : (s.updPort a f).port b = if b = a then f (s.port a) else s.port b := by
  simp [State.port, State.updPort]
@[simp] theorem region_updRegion (a b : Nat) (f : RegionSt → RegionSt) : (s.updRegion a f).region b = if b = a then f (s.region a) else s.region b := by
  simp [State.region, State.updRegion]
@[simp] theorem adapter_updAdapter (a b : Nat) (f : AdapterSt → AdapterSt) : (s.updAdapter a f).adapter b = if b = a then f (s.adapter a) else s.adapter b := by
  simp [State.adapter, State.updAdapter]
@[simp] theorem bar_updBar (a b : Nat) (f : BarSt → BarSt) : (s.updBar a f).bar b = if b = a then f (s.bar a) else s.bar b := by
  simp [State.bar, State.updBar]
@[simp] theorem cpu_updCpu (a b : Nat) (f : CpuSt → CpuSt) : (s.updCpu a f).cpu b = if b = a then f (s.cpu a) else s.cpu b := by
  simp [State.cpu, State.updCpu]
@[simp] theorem die_updDie (a b : Nat) (f : DieSt → DieSt) : (s.updDie a f).die b = if b = a then f (s.die a) else s.die b := by
  simp [State.die, State.updDie]

/-! updCore -/

@[simp] theorem updCore_pending (c : Nat) (f : CoreSt → CoreSt) : (s.updCore c f).pending = s.pending := rfl
@[simp] theorem updCore_tsc (c : Nat) (f : CoreSt → CoreSt) : (s.updCore c f).tsc = s.tsc := rfl
@[simp] theorem updCore_life (c : Nat) (f : CoreSt → CoreSt) : (s.updCore c f).life = s.life := rfl
@[simp] theorem updCore_lifeSince (c : Nat) (f : CoreSt → CoreSt) : (s.updCore c f).lifeSince = s.lifeSince := rfl
@[simp] theorem updCore_bars (c : Nat) (f : CoreSt → CoreSt) : (s.updCore c f).bars = s.bars := rfl
@[simp] theorem updCore_sched (c : Nat) (f : CoreSt → CoreSt) : (s.updCore c f).sched = s.sched := rfl
@[simp] theorem updCore_mem (c : Nat) (f : CoreSt → CoreSt) : (s.updCore c f).mem = s.mem := rfl
@[simp] theorem updCore_adapters (c : Nat) (f : CoreSt → CoreSt) : (s.updCore c f).adapters = s.adapters := rfl
@[simp] theorem updCore_ports (c : Nat) (f : CoreSt → CoreSt) : (s.updCore c f).ports = s.ports := rfl
@[simp] theorem updCore_hubs (c : Nat) (f : CoreSt → CoreSt) : (s.updCore c f).hubs = s.hubs := rfl
@[simp] theorem updCore_landings (c : Nat) (f : CoreSt → CoreSt) : (s.updCore c f).landings = s.landings := rfl
@[simp] theorem updCore_devNum (c : Nat) (f : CoreSt → CoreSt) : (s.updCore c f).devNum = s.devNum := rfl
@[simp] theorem updCore_fab (c : Nat) (f : CoreSt → CoreSt) : (s.updCore c f).fab = s.fab := rfl
@[simp] theorem updCore_jobKey (c : Nat) (f : CoreSt → CoreSt) : (s.updCore c f).jobKey = s.jobKey := rfl
@[simp] theorem updCore_jobImages (c : Nat) (f : CoreSt → CoreSt) : (s.updCore c f).jobImages = s.jobImages := rfl
@[simp] theorem updCore_log (c : Nat) (f : CoreSt → CoreSt) : (s.updCore c f).log = s.log := rfl
@[simp] theorem updCore_flagMask (c : Nat) (f : CoreSt → CoreSt) : (s.updCore c f).flagMask = s.flagMask := rfl
@[simp] theorem updCore_husk (c : Nat) (f : CoreSt → CoreSt) : (s.updCore c f).husk = s.husk := rfl
@[simp] theorem updCore_opt (c : Nat) (f : CoreSt → CoreSt) : (s.updCore c f).opt = s.opt := rfl
@[simp] theorem updCore_clock (c : Nat) (f : CoreSt → CoreSt) : (s.updCore c f).clock = s.clock := rfl
@[simp] theorem updCore_power (c : Nat) (f : CoreSt → CoreSt) : (s.updCore c f).power = s.power := rfl
@[simp] theorem updCore_align (c : Nat) (f : CoreSt → CoreSt) : (s.updCore c f).align = s.align := rfl
@[simp] theorem updCore_cpus (c : Nat) (f : CoreSt → CoreSt) : (s.updCore c f).cpus = s.cpus := rfl
@[simp] theorem updCore_sec (c : Nat) (f : CoreSt → CoreSt) : (s.updCore c f).sec = s.sec := rfl
@[simp] theorem updCore_fuses (c : Nat) (f : CoreSt → CoreSt) : (s.updCore c f).fuses = s.fuses := rfl
@[simp] theorem updCore_mgmt (c : Nat) (f : CoreSt → CoreSt) : (s.updCore c f).mgmt = s.mgmt := rfl
@[simp] theorem updCore_boot (c : Nat) (f : CoreSt → CoreSt) : (s.updCore c f).boot = s.boot := rfl
@[simp] theorem updCore_box (c : Nat) (f : CoreSt → CoreSt) : (s.updCore c f).box = s.box := rfl
@[simp] theorem updCore_flash (c : Nat) (f : CoreSt → CoreSt) : (s.updCore c f).flash = s.flash := rfl
@[simp] theorem updCore_actStatus (c : Nat) (f : CoreSt → CoreSt) : (s.updCore c f).actStatus = s.actStatus := rfl
@[simp] theorem updCore_out (c : Nat) (f : CoreSt → CoreSt) : (s.updCore c f).out = s.out := rfl
@[simp] theorem updCore_freeCtr (c : Nat) (f : CoreSt → CoreSt) : (s.updCore c f).freeCtr = s.freeCtr := rfl
@[simp] theorem updCore_rndCtr (c : Nat) (f : CoreSt → CoreSt) : (s.updCore c f).rndCtr = s.rndCtr := rfl

/-! updHub -/

@[simp] theorem updHub_pending (h : Nat) (f : HubSt → HubSt) : (s.updHub h f).pending = s.pending := rfl
@[simp] theorem updHub_tsc (h : Nat) (f : HubSt → HubSt) : (s.updHub h f).tsc = s.tsc := rfl
@[simp] theorem updHub_life (h : Nat) (f : HubSt → HubSt) : (s.updHub h f).life = s.life := rfl
@[simp] theorem updHub_lifeSince (h : Nat) (f : HubSt → HubSt) : (s.updHub h f).lifeSince = s.lifeSince := rfl
@[simp] theorem updHub_cores (h : Nat) (f : HubSt → HubSt) : (s.updHub h f).cores = s.cores := rfl
@[simp] theorem updHub_bars (h : Nat) (f : HubSt → HubSt) : (s.updHub h f).bars = s.bars := rfl
@[simp] theorem updHub_sched (h : Nat) (f : HubSt → HubSt) : (s.updHub h f).sched = s.sched := rfl
@[simp] theorem updHub_mem (h : Nat) (f : HubSt → HubSt) : (s.updHub h f).mem = s.mem := rfl
@[simp] theorem updHub_adapters (h : Nat) (f : HubSt → HubSt) : (s.updHub h f).adapters = s.adapters := rfl
@[simp] theorem updHub_ports (h : Nat) (f : HubSt → HubSt) : (s.updHub h f).ports = s.ports := rfl
@[simp] theorem updHub_landings (h : Nat) (f : HubSt → HubSt) : (s.updHub h f).landings = s.landings := rfl
@[simp] theorem updHub_devNum (h : Nat) (f : HubSt → HubSt) : (s.updHub h f).devNum = s.devNum := rfl
@[simp] theorem updHub_fab (h : Nat) (f : HubSt → HubSt) : (s.updHub h f).fab = s.fab := rfl
@[simp] theorem updHub_jobKey (h : Nat) (f : HubSt → HubSt) : (s.updHub h f).jobKey = s.jobKey := rfl
@[simp] theorem updHub_jobImages (h : Nat) (f : HubSt → HubSt) : (s.updHub h f).jobImages = s.jobImages := rfl
@[simp] theorem updHub_log (h : Nat) (f : HubSt → HubSt) : (s.updHub h f).log = s.log := rfl
@[simp] theorem updHub_flagMask (h : Nat) (f : HubSt → HubSt) : (s.updHub h f).flagMask = s.flagMask := rfl
@[simp] theorem updHub_husk (h : Nat) (f : HubSt → HubSt) : (s.updHub h f).husk = s.husk := rfl
@[simp] theorem updHub_opt (h : Nat) (f : HubSt → HubSt) : (s.updHub h f).opt = s.opt := rfl
@[simp] theorem updHub_clock (h : Nat) (f : HubSt → HubSt) : (s.updHub h f).clock = s.clock := rfl
@[simp] theorem updHub_power (h : Nat) (f : HubSt → HubSt) : (s.updHub h f).power = s.power := rfl
@[simp] theorem updHub_align (h : Nat) (f : HubSt → HubSt) : (s.updHub h f).align = s.align := rfl
@[simp] theorem updHub_cpus (h : Nat) (f : HubSt → HubSt) : (s.updHub h f).cpus = s.cpus := rfl
@[simp] theorem updHub_sec (h : Nat) (f : HubSt → HubSt) : (s.updHub h f).sec = s.sec := rfl
@[simp] theorem updHub_fuses (h : Nat) (f : HubSt → HubSt) : (s.updHub h f).fuses = s.fuses := rfl
@[simp] theorem updHub_mgmt (h : Nat) (f : HubSt → HubSt) : (s.updHub h f).mgmt = s.mgmt := rfl
@[simp] theorem updHub_boot (h : Nat) (f : HubSt → HubSt) : (s.updHub h f).boot = s.boot := rfl
@[simp] theorem updHub_box (h : Nat) (f : HubSt → HubSt) : (s.updHub h f).box = s.box := rfl
@[simp] theorem updHub_flash (h : Nat) (f : HubSt → HubSt) : (s.updHub h f).flash = s.flash := rfl
@[simp] theorem updHub_actStatus (h : Nat) (f : HubSt → HubSt) : (s.updHub h f).actStatus = s.actStatus := rfl
@[simp] theorem updHub_out (h : Nat) (f : HubSt → HubSt) : (s.updHub h f).out = s.out := rfl
@[simp] theorem updHub_freeCtr (h : Nat) (f : HubSt → HubSt) : (s.updHub h f).freeCtr = s.freeCtr := rfl
@[simp] theorem updHub_rndCtr (h : Nat) (f : HubSt → HubSt) : (s.updHub h f).rndCtr = s.rndCtr := rfl

/-! updPort -/

@[simp] theorem updPort_pending (p : Nat) (f : PortSt → PortSt) : (s.updPort p f).pending = s.pending := rfl
@[simp] theorem updPort_tsc (p : Nat) (f : PortSt → PortSt) : (s.updPort p f).tsc = s.tsc := rfl
@[simp] theorem updPort_life (p : Nat) (f : PortSt → PortSt) : (s.updPort p f).life = s.life := rfl
@[simp] theorem updPort_lifeSince (p : Nat) (f : PortSt → PortSt) : (s.updPort p f).lifeSince = s.lifeSince := rfl
@[simp] theorem updPort_cores (p : Nat) (f : PortSt → PortSt) : (s.updPort p f).cores = s.cores := rfl
@[simp] theorem updPort_bars (p : Nat) (f : PortSt → PortSt) : (s.updPort p f).bars = s.bars := rfl
@[simp] theorem updPort_sched (p : Nat) (f : PortSt → PortSt) : (s.updPort p f).sched = s.sched := rfl
@[simp] theorem updPort_mem (p : Nat) (f : PortSt → PortSt) : (s.updPort p f).mem = s.mem := rfl
@[simp] theorem updPort_adapters (p : Nat) (f : PortSt → PortSt) : (s.updPort p f).adapters = s.adapters := rfl
@[simp] theorem updPort_hubs (p : Nat) (f : PortSt → PortSt) : (s.updPort p f).hubs = s.hubs := rfl
@[simp] theorem updPort_landings (p : Nat) (f : PortSt → PortSt) : (s.updPort p f).landings = s.landings := rfl
@[simp] theorem updPort_devNum (p : Nat) (f : PortSt → PortSt) : (s.updPort p f).devNum = s.devNum := rfl
@[simp] theorem updPort_fab (p : Nat) (f : PortSt → PortSt) : (s.updPort p f).fab = s.fab := rfl
@[simp] theorem updPort_jobKey (p : Nat) (f : PortSt → PortSt) : (s.updPort p f).jobKey = s.jobKey := rfl
@[simp] theorem updPort_jobImages (p : Nat) (f : PortSt → PortSt) : (s.updPort p f).jobImages = s.jobImages := rfl
@[simp] theorem updPort_log (p : Nat) (f : PortSt → PortSt) : (s.updPort p f).log = s.log := rfl
@[simp] theorem updPort_flagMask (p : Nat) (f : PortSt → PortSt) : (s.updPort p f).flagMask = s.flagMask := rfl
@[simp] theorem updPort_husk (p : Nat) (f : PortSt → PortSt) : (s.updPort p f).husk = s.husk := rfl
@[simp] theorem updPort_opt (p : Nat) (f : PortSt → PortSt) : (s.updPort p f).opt = s.opt := rfl
@[simp] theorem updPort_clock (p : Nat) (f : PortSt → PortSt) : (s.updPort p f).clock = s.clock := rfl
@[simp] theorem updPort_power (p : Nat) (f : PortSt → PortSt) : (s.updPort p f).power = s.power := rfl
@[simp] theorem updPort_align (p : Nat) (f : PortSt → PortSt) : (s.updPort p f).align = s.align := rfl
@[simp] theorem updPort_cpus (p : Nat) (f : PortSt → PortSt) : (s.updPort p f).cpus = s.cpus := rfl
@[simp] theorem updPort_sec (p : Nat) (f : PortSt → PortSt) : (s.updPort p f).sec = s.sec := rfl
@[simp] theorem updPort_fuses (p : Nat) (f : PortSt → PortSt) : (s.updPort p f).fuses = s.fuses := rfl
@[simp] theorem updPort_mgmt (p : Nat) (f : PortSt → PortSt) : (s.updPort p f).mgmt = s.mgmt := rfl
@[simp] theorem updPort_boot (p : Nat) (f : PortSt → PortSt) : (s.updPort p f).boot = s.boot := rfl
@[simp] theorem updPort_box (p : Nat) (f : PortSt → PortSt) : (s.updPort p f).box = s.box := rfl
@[simp] theorem updPort_flash (p : Nat) (f : PortSt → PortSt) : (s.updPort p f).flash = s.flash := rfl
@[simp] theorem updPort_actStatus (p : Nat) (f : PortSt → PortSt) : (s.updPort p f).actStatus = s.actStatus := rfl
@[simp] theorem updPort_out (p : Nat) (f : PortSt → PortSt) : (s.updPort p f).out = s.out := rfl
@[simp] theorem updPort_freeCtr (p : Nat) (f : PortSt → PortSt) : (s.updPort p f).freeCtr = s.freeCtr := rfl
@[simp] theorem updPort_rndCtr (p : Nat) (f : PortSt → PortSt) : (s.updPort p f).rndCtr = s.rndCtr := rfl

/-! updRegion -/

@[simp] theorem updRegion_pending (r : Nat) (f : RegionSt → RegionSt) : (s.updRegion r f).pending = s.pending := rfl
@[simp] theorem updRegion_tsc (r : Nat) (f : RegionSt → RegionSt) : (s.updRegion r f).tsc = s.tsc := rfl
@[simp] theorem updRegion_life (r : Nat) (f : RegionSt → RegionSt) : (s.updRegion r f).life = s.life := rfl
@[simp] theorem updRegion_lifeSince (r : Nat) (f : RegionSt → RegionSt) : (s.updRegion r f).lifeSince = s.lifeSince := rfl
@[simp] theorem updRegion_cores (r : Nat) (f : RegionSt → RegionSt) : (s.updRegion r f).cores = s.cores := rfl
@[simp] theorem updRegion_bars (r : Nat) (f : RegionSt → RegionSt) : (s.updRegion r f).bars = s.bars := rfl
@[simp] theorem updRegion_sched (r : Nat) (f : RegionSt → RegionSt) : (s.updRegion r f).sched = s.sched := rfl
@[simp] theorem updRegion_adapters (r : Nat) (f : RegionSt → RegionSt) : (s.updRegion r f).adapters = s.adapters := rfl
@[simp] theorem updRegion_ports (r : Nat) (f : RegionSt → RegionSt) : (s.updRegion r f).ports = s.ports := rfl
@[simp] theorem updRegion_hubs (r : Nat) (f : RegionSt → RegionSt) : (s.updRegion r f).hubs = s.hubs := rfl
@[simp] theorem updRegion_landings (r : Nat) (f : RegionSt → RegionSt) : (s.updRegion r f).landings = s.landings := rfl
@[simp] theorem updRegion_devNum (r : Nat) (f : RegionSt → RegionSt) : (s.updRegion r f).devNum = s.devNum := rfl
@[simp] theorem updRegion_fab (r : Nat) (f : RegionSt → RegionSt) : (s.updRegion r f).fab = s.fab := rfl
@[simp] theorem updRegion_jobKey (r : Nat) (f : RegionSt → RegionSt) : (s.updRegion r f).jobKey = s.jobKey := rfl
@[simp] theorem updRegion_jobImages (r : Nat) (f : RegionSt → RegionSt) : (s.updRegion r f).jobImages = s.jobImages := rfl
@[simp] theorem updRegion_log (r : Nat) (f : RegionSt → RegionSt) : (s.updRegion r f).log = s.log := rfl
@[simp] theorem updRegion_flagMask (r : Nat) (f : RegionSt → RegionSt) : (s.updRegion r f).flagMask = s.flagMask := rfl
@[simp] theorem updRegion_husk (r : Nat) (f : RegionSt → RegionSt) : (s.updRegion r f).husk = s.husk := rfl
@[simp] theorem updRegion_opt (r : Nat) (f : RegionSt → RegionSt) : (s.updRegion r f).opt = s.opt := rfl
@[simp] theorem updRegion_clock (r : Nat) (f : RegionSt → RegionSt) : (s.updRegion r f).clock = s.clock := rfl
@[simp] theorem updRegion_power (r : Nat) (f : RegionSt → RegionSt) : (s.updRegion r f).power = s.power := rfl
@[simp] theorem updRegion_align (r : Nat) (f : RegionSt → RegionSt) : (s.updRegion r f).align = s.align := rfl
@[simp] theorem updRegion_cpus (r : Nat) (f : RegionSt → RegionSt) : (s.updRegion r f).cpus = s.cpus := rfl
@[simp] theorem updRegion_sec (r : Nat) (f : RegionSt → RegionSt) : (s.updRegion r f).sec = s.sec := rfl
@[simp] theorem updRegion_fuses (r : Nat) (f : RegionSt → RegionSt) : (s.updRegion r f).fuses = s.fuses := rfl
@[simp] theorem updRegion_mgmt (r : Nat) (f : RegionSt → RegionSt) : (s.updRegion r f).mgmt = s.mgmt := rfl
@[simp] theorem updRegion_boot (r : Nat) (f : RegionSt → RegionSt) : (s.updRegion r f).boot = s.boot := rfl
@[simp] theorem updRegion_box (r : Nat) (f : RegionSt → RegionSt) : (s.updRegion r f).box = s.box := rfl
@[simp] theorem updRegion_flash (r : Nat) (f : RegionSt → RegionSt) : (s.updRegion r f).flash = s.flash := rfl
@[simp] theorem updRegion_actStatus (r : Nat) (f : RegionSt → RegionSt) : (s.updRegion r f).actStatus = s.actStatus := rfl
@[simp] theorem updRegion_out (r : Nat) (f : RegionSt → RegionSt) : (s.updRegion r f).out = s.out := rfl
@[simp] theorem updRegion_freeCtr (r : Nat) (f : RegionSt → RegionSt) : (s.updRegion r f).freeCtr = s.freeCtr := rfl
@[simp] theorem updRegion_rndCtr (r : Nat) (f : RegionSt → RegionSt) : (s.updRegion r f).rndCtr = s.rndCtr := rfl

/-! updAdapter -/

@[simp] theorem updAdapter_pending (a : Nat) (f : AdapterSt → AdapterSt) : (s.updAdapter a f).pending = s.pending := rfl
@[simp] theorem updAdapter_tsc (a : Nat) (f : AdapterSt → AdapterSt) : (s.updAdapter a f).tsc = s.tsc := rfl
@[simp] theorem updAdapter_life (a : Nat) (f : AdapterSt → AdapterSt) : (s.updAdapter a f).life = s.life := rfl
@[simp] theorem updAdapter_lifeSince (a : Nat) (f : AdapterSt → AdapterSt) : (s.updAdapter a f).lifeSince = s.lifeSince := rfl
@[simp] theorem updAdapter_cores (a : Nat) (f : AdapterSt → AdapterSt) : (s.updAdapter a f).cores = s.cores := rfl
@[simp] theorem updAdapter_bars (a : Nat) (f : AdapterSt → AdapterSt) : (s.updAdapter a f).bars = s.bars := rfl
@[simp] theorem updAdapter_sched (a : Nat) (f : AdapterSt → AdapterSt) : (s.updAdapter a f).sched = s.sched := rfl
@[simp] theorem updAdapter_mem (a : Nat) (f : AdapterSt → AdapterSt) : (s.updAdapter a f).mem = s.mem := rfl
@[simp] theorem updAdapter_ports (a : Nat) (f : AdapterSt → AdapterSt) : (s.updAdapter a f).ports = s.ports := rfl
@[simp] theorem updAdapter_hubs (a : Nat) (f : AdapterSt → AdapterSt) : (s.updAdapter a f).hubs = s.hubs := rfl
@[simp] theorem updAdapter_landings (a : Nat) (f : AdapterSt → AdapterSt) : (s.updAdapter a f).landings = s.landings := rfl
@[simp] theorem updAdapter_devNum (a : Nat) (f : AdapterSt → AdapterSt) : (s.updAdapter a f).devNum = s.devNum := rfl
@[simp] theorem updAdapter_fab (a : Nat) (f : AdapterSt → AdapterSt) : (s.updAdapter a f).fab = s.fab := rfl
@[simp] theorem updAdapter_jobKey (a : Nat) (f : AdapterSt → AdapterSt) : (s.updAdapter a f).jobKey = s.jobKey := rfl
@[simp] theorem updAdapter_jobImages (a : Nat) (f : AdapterSt → AdapterSt) : (s.updAdapter a f).jobImages = s.jobImages := rfl
@[simp] theorem updAdapter_log (a : Nat) (f : AdapterSt → AdapterSt) : (s.updAdapter a f).log = s.log := rfl
@[simp] theorem updAdapter_flagMask (a : Nat) (f : AdapterSt → AdapterSt) : (s.updAdapter a f).flagMask = s.flagMask := rfl
@[simp] theorem updAdapter_husk (a : Nat) (f : AdapterSt → AdapterSt) : (s.updAdapter a f).husk = s.husk := rfl
@[simp] theorem updAdapter_opt (a : Nat) (f : AdapterSt → AdapterSt) : (s.updAdapter a f).opt = s.opt := rfl
@[simp] theorem updAdapter_clock (a : Nat) (f : AdapterSt → AdapterSt) : (s.updAdapter a f).clock = s.clock := rfl
@[simp] theorem updAdapter_power (a : Nat) (f : AdapterSt → AdapterSt) : (s.updAdapter a f).power = s.power := rfl
@[simp] theorem updAdapter_align (a : Nat) (f : AdapterSt → AdapterSt) : (s.updAdapter a f).align = s.align := rfl
@[simp] theorem updAdapter_cpus (a : Nat) (f : AdapterSt → AdapterSt) : (s.updAdapter a f).cpus = s.cpus := rfl
@[simp] theorem updAdapter_sec (a : Nat) (f : AdapterSt → AdapterSt) : (s.updAdapter a f).sec = s.sec := rfl
@[simp] theorem updAdapter_fuses (a : Nat) (f : AdapterSt → AdapterSt) : (s.updAdapter a f).fuses = s.fuses := rfl
@[simp] theorem updAdapter_mgmt (a : Nat) (f : AdapterSt → AdapterSt) : (s.updAdapter a f).mgmt = s.mgmt := rfl
@[simp] theorem updAdapter_boot (a : Nat) (f : AdapterSt → AdapterSt) : (s.updAdapter a f).boot = s.boot := rfl
@[simp] theorem updAdapter_box (a : Nat) (f : AdapterSt → AdapterSt) : (s.updAdapter a f).box = s.box := rfl
@[simp] theorem updAdapter_flash (a : Nat) (f : AdapterSt → AdapterSt) : (s.updAdapter a f).flash = s.flash := rfl
@[simp] theorem updAdapter_actStatus (a : Nat) (f : AdapterSt → AdapterSt) : (s.updAdapter a f).actStatus = s.actStatus := rfl
@[simp] theorem updAdapter_out (a : Nat) (f : AdapterSt → AdapterSt) : (s.updAdapter a f).out = s.out := rfl
@[simp] theorem updAdapter_freeCtr (a : Nat) (f : AdapterSt → AdapterSt) : (s.updAdapter a f).freeCtr = s.freeCtr := rfl
@[simp] theorem updAdapter_rndCtr (a : Nat) (f : AdapterSt → AdapterSt) : (s.updAdapter a f).rndCtr = s.rndCtr := rfl

/-! updBar -/

@[simp] theorem updBar_pending (b : Nat) (f : BarSt → BarSt) : (s.updBar b f).pending = s.pending := rfl
@[simp] theorem updBar_tsc (b : Nat) (f : BarSt → BarSt) : (s.updBar b f).tsc = s.tsc := rfl
@[simp] theorem updBar_life (b : Nat) (f : BarSt → BarSt) : (s.updBar b f).life = s.life := rfl
@[simp] theorem updBar_lifeSince (b : Nat) (f : BarSt → BarSt) : (s.updBar b f).lifeSince = s.lifeSince := rfl
@[simp] theorem updBar_cores (b : Nat) (f : BarSt → BarSt) : (s.updBar b f).cores = s.cores := rfl
@[simp] theorem updBar_sched (b : Nat) (f : BarSt → BarSt) : (s.updBar b f).sched = s.sched := rfl
@[simp] theorem updBar_mem (b : Nat) (f : BarSt → BarSt) : (s.updBar b f).mem = s.mem := rfl
@[simp] theorem updBar_adapters (b : Nat) (f : BarSt → BarSt) : (s.updBar b f).adapters = s.adapters := rfl
@[simp] theorem updBar_ports (b : Nat) (f : BarSt → BarSt) : (s.updBar b f).ports = s.ports := rfl
@[simp] theorem updBar_hubs (b : Nat) (f : BarSt → BarSt) : (s.updBar b f).hubs = s.hubs := rfl
@[simp] theorem updBar_landings (b : Nat) (f : BarSt → BarSt) : (s.updBar b f).landings = s.landings := rfl
@[simp] theorem updBar_devNum (b : Nat) (f : BarSt → BarSt) : (s.updBar b f).devNum = s.devNum := rfl
@[simp] theorem updBar_fab (b : Nat) (f : BarSt → BarSt) : (s.updBar b f).fab = s.fab := rfl
@[simp] theorem updBar_jobKey (b : Nat) (f : BarSt → BarSt) : (s.updBar b f).jobKey = s.jobKey := rfl
@[simp] theorem updBar_jobImages (b : Nat) (f : BarSt → BarSt) : (s.updBar b f).jobImages = s.jobImages := rfl
@[simp] theorem updBar_log (b : Nat) (f : BarSt → BarSt) : (s.updBar b f).log = s.log := rfl
@[simp] theorem updBar_flagMask (b : Nat) (f : BarSt → BarSt) : (s.updBar b f).flagMask = s.flagMask := rfl
@[simp] theorem updBar_husk (b : Nat) (f : BarSt → BarSt) : (s.updBar b f).husk = s.husk := rfl
@[simp] theorem updBar_opt (b : Nat) (f : BarSt → BarSt) : (s.updBar b f).opt = s.opt := rfl
@[simp] theorem updBar_clock (b : Nat) (f : BarSt → BarSt) : (s.updBar b f).clock = s.clock := rfl
@[simp] theorem updBar_power (b : Nat) (f : BarSt → BarSt) : (s.updBar b f).power = s.power := rfl
@[simp] theorem updBar_align (b : Nat) (f : BarSt → BarSt) : (s.updBar b f).align = s.align := rfl
@[simp] theorem updBar_cpus (b : Nat) (f : BarSt → BarSt) : (s.updBar b f).cpus = s.cpus := rfl
@[simp] theorem updBar_sec (b : Nat) (f : BarSt → BarSt) : (s.updBar b f).sec = s.sec := rfl
@[simp] theorem updBar_fuses (b : Nat) (f : BarSt → BarSt) : (s.updBar b f).fuses = s.fuses := rfl
@[simp] theorem updBar_mgmt (b : Nat) (f : BarSt → BarSt) : (s.updBar b f).mgmt = s.mgmt := rfl
@[simp] theorem updBar_boot (b : Nat) (f : BarSt → BarSt) : (s.updBar b f).boot = s.boot := rfl
@[simp] theorem updBar_box (b : Nat) (f : BarSt → BarSt) : (s.updBar b f).box = s.box := rfl
@[simp] theorem updBar_flash (b : Nat) (f : BarSt → BarSt) : (s.updBar b f).flash = s.flash := rfl
@[simp] theorem updBar_actStatus (b : Nat) (f : BarSt → BarSt) : (s.updBar b f).actStatus = s.actStatus := rfl
@[simp] theorem updBar_out (b : Nat) (f : BarSt → BarSt) : (s.updBar b f).out = s.out := rfl
@[simp] theorem updBar_freeCtr (b : Nat) (f : BarSt → BarSt) : (s.updBar b f).freeCtr = s.freeCtr := rfl
@[simp] theorem updBar_rndCtr (b : Nat) (f : BarSt → BarSt) : (s.updBar b f).rndCtr = s.rndCtr := rfl

/-! updCpu -/

@[simp] theorem updCpu_pending (c : Nat) (f : CpuSt → CpuSt) : (s.updCpu c f).pending = s.pending := rfl
@[simp] theorem updCpu_tsc (c : Nat) (f : CpuSt → CpuSt) : (s.updCpu c f).tsc = s.tsc := rfl
@[simp] theorem updCpu_life (c : Nat) (f : CpuSt → CpuSt) : (s.updCpu c f).life = s.life := rfl
@[simp] theorem updCpu_lifeSince (c : Nat) (f : CpuSt → CpuSt) : (s.updCpu c f).lifeSince = s.lifeSince := rfl
@[simp] theorem updCpu_cores (c : Nat) (f : CpuSt → CpuSt) : (s.updCpu c f).cores = s.cores := rfl
@[simp] theorem updCpu_bars (c : Nat) (f : CpuSt → CpuSt) : (s.updCpu c f).bars = s.bars := rfl
@[simp] theorem updCpu_sched (c : Nat) (f : CpuSt → CpuSt) : (s.updCpu c f).sched = s.sched := rfl
@[simp] theorem updCpu_mem (c : Nat) (f : CpuSt → CpuSt) : (s.updCpu c f).mem = s.mem := rfl
@[simp] theorem updCpu_adapters (c : Nat) (f : CpuSt → CpuSt) : (s.updCpu c f).adapters = s.adapters := rfl
@[simp] theorem updCpu_ports (c : Nat) (f : CpuSt → CpuSt) : (s.updCpu c f).ports = s.ports := rfl
@[simp] theorem updCpu_hubs (c : Nat) (f : CpuSt → CpuSt) : (s.updCpu c f).hubs = s.hubs := rfl
@[simp] theorem updCpu_landings (c : Nat) (f : CpuSt → CpuSt) : (s.updCpu c f).landings = s.landings := rfl
@[simp] theorem updCpu_devNum (c : Nat) (f : CpuSt → CpuSt) : (s.updCpu c f).devNum = s.devNum := rfl
@[simp] theorem updCpu_fab (c : Nat) (f : CpuSt → CpuSt) : (s.updCpu c f).fab = s.fab := rfl
@[simp] theorem updCpu_jobKey (c : Nat) (f : CpuSt → CpuSt) : (s.updCpu c f).jobKey = s.jobKey := rfl
@[simp] theorem updCpu_jobImages (c : Nat) (f : CpuSt → CpuSt) : (s.updCpu c f).jobImages = s.jobImages := rfl
@[simp] theorem updCpu_log (c : Nat) (f : CpuSt → CpuSt) : (s.updCpu c f).log = s.log := rfl
@[simp] theorem updCpu_flagMask (c : Nat) (f : CpuSt → CpuSt) : (s.updCpu c f).flagMask = s.flagMask := rfl
@[simp] theorem updCpu_husk (c : Nat) (f : CpuSt → CpuSt) : (s.updCpu c f).husk = s.husk := rfl
@[simp] theorem updCpu_opt (c : Nat) (f : CpuSt → CpuSt) : (s.updCpu c f).opt = s.opt := rfl
@[simp] theorem updCpu_clock (c : Nat) (f : CpuSt → CpuSt) : (s.updCpu c f).clock = s.clock := rfl
@[simp] theorem updCpu_power (c : Nat) (f : CpuSt → CpuSt) : (s.updCpu c f).power = s.power := rfl
@[simp] theorem updCpu_align (c : Nat) (f : CpuSt → CpuSt) : (s.updCpu c f).align = s.align := rfl
@[simp] theorem updCpu_sec (c : Nat) (f : CpuSt → CpuSt) : (s.updCpu c f).sec = s.sec := rfl
@[simp] theorem updCpu_fuses (c : Nat) (f : CpuSt → CpuSt) : (s.updCpu c f).fuses = s.fuses := rfl
@[simp] theorem updCpu_mgmt (c : Nat) (f : CpuSt → CpuSt) : (s.updCpu c f).mgmt = s.mgmt := rfl
@[simp] theorem updCpu_boot (c : Nat) (f : CpuSt → CpuSt) : (s.updCpu c f).boot = s.boot := rfl
@[simp] theorem updCpu_box (c : Nat) (f : CpuSt → CpuSt) : (s.updCpu c f).box = s.box := rfl
@[simp] theorem updCpu_flash (c : Nat) (f : CpuSt → CpuSt) : (s.updCpu c f).flash = s.flash := rfl
@[simp] theorem updCpu_actStatus (c : Nat) (f : CpuSt → CpuSt) : (s.updCpu c f).actStatus = s.actStatus := rfl
@[simp] theorem updCpu_out (c : Nat) (f : CpuSt → CpuSt) : (s.updCpu c f).out = s.out := rfl
@[simp] theorem updCpu_freeCtr (c : Nat) (f : CpuSt → CpuSt) : (s.updCpu c f).freeCtr = s.freeCtr := rfl
@[simp] theorem updCpu_rndCtr (c : Nat) (f : CpuSt → CpuSt) : (s.updCpu c f).rndCtr = s.rndCtr := rfl

/-! updDie -/

@[simp] theorem updDie_pending (d : Nat) (f : DieSt → DieSt) : (s.updDie d f).pending = s.pending := rfl
@[simp] theorem updDie_tsc (d : Nat) (f : DieSt → DieSt) : (s.updDie d f).tsc = s.tsc := rfl
@[simp] theorem updDie_life (d : Nat) (f : DieSt → DieSt) : (s.updDie d f).life = s.life := rfl
@[simp] theorem updDie_lifeSince (d : Nat) (f : DieSt → DieSt) : (s.updDie d f).lifeSince = s.lifeSince := rfl
@[simp] theorem updDie_cores (d : Nat) (f : DieSt → DieSt) : (s.updDie d f).cores = s.cores := rfl
@[simp] theorem updDie_bars (d : Nat) (f : DieSt → DieSt) : (s.updDie d f).bars = s.bars := rfl
@[simp] theorem updDie_sched (d : Nat) (f : DieSt → DieSt) : (s.updDie d f).sched = s.sched := rfl
@[simp] theorem updDie_mem (d : Nat) (f : DieSt → DieSt) : (s.updDie d f).mem = s.mem := rfl
@[simp] theorem updDie_adapters (d : Nat) (f : DieSt → DieSt) : (s.updDie d f).adapters = s.adapters := rfl
@[simp] theorem updDie_ports (d : Nat) (f : DieSt → DieSt) : (s.updDie d f).ports = s.ports := rfl
@[simp] theorem updDie_hubs (d : Nat) (f : DieSt → DieSt) : (s.updDie d f).hubs = s.hubs := rfl
@[simp] theorem updDie_landings (d : Nat) (f : DieSt → DieSt) : (s.updDie d f).landings = s.landings := rfl
@[simp] theorem updDie_devNum (d : Nat) (f : DieSt → DieSt) : (s.updDie d f).devNum = s.devNum := rfl
@[simp] theorem updDie_fab (d : Nat) (f : DieSt → DieSt) : (s.updDie d f).fab = s.fab := rfl
@[simp] theorem updDie_jobKey (d : Nat) (f : DieSt → DieSt) : (s.updDie d f).jobKey = s.jobKey := rfl
@[simp] theorem updDie_jobImages (d : Nat) (f : DieSt → DieSt) : (s.updDie d f).jobImages = s.jobImages := rfl
@[simp] theorem updDie_log (d : Nat) (f : DieSt → DieSt) : (s.updDie d f).log = s.log := rfl
@[simp] theorem updDie_flagMask (d : Nat) (f : DieSt → DieSt) : (s.updDie d f).flagMask = s.flagMask := rfl
@[simp] theorem updDie_husk (d : Nat) (f : DieSt → DieSt) : (s.updDie d f).husk = s.husk := rfl
@[simp] theorem updDie_opt (d : Nat) (f : DieSt → DieSt) : (s.updDie d f).opt = s.opt := rfl
@[simp] theorem updDie_clock (d : Nat) (f : DieSt → DieSt) : (s.updDie d f).clock = s.clock := rfl
@[simp] theorem updDie_align (d : Nat) (f : DieSt → DieSt) : (s.updDie d f).align = s.align := rfl
@[simp] theorem updDie_cpus (d : Nat) (f : DieSt → DieSt) : (s.updDie d f).cpus = s.cpus := rfl
@[simp] theorem updDie_sec (d : Nat) (f : DieSt → DieSt) : (s.updDie d f).sec = s.sec := rfl
@[simp] theorem updDie_fuses (d : Nat) (f : DieSt → DieSt) : (s.updDie d f).fuses = s.fuses := rfl
@[simp] theorem updDie_mgmt (d : Nat) (f : DieSt → DieSt) : (s.updDie d f).mgmt = s.mgmt := rfl
@[simp] theorem updDie_boot (d : Nat) (f : DieSt → DieSt) : (s.updDie d f).boot = s.boot := rfl
@[simp] theorem updDie_box (d : Nat) (f : DieSt → DieSt) : (s.updDie d f).box = s.box := rfl
@[simp] theorem updDie_flash (d : Nat) (f : DieSt → DieSt) : (s.updDie d f).flash = s.flash := rfl
@[simp] theorem updDie_actStatus (d : Nat) (f : DieSt → DieSt) : (s.updDie d f).actStatus = s.actStatus := rfl
@[simp] theorem updDie_out (d : Nat) (f : DieSt → DieSt) : (s.updDie d f).out = s.out := rfl
@[simp] theorem updDie_freeCtr (d : Nat) (f : DieSt → DieSt) : (s.updDie d f).freeCtr = s.freeCtr := rfl
@[simp] theorem updDie_rndCtr (d : Nat) (f : DieSt → DieSt) : (s.updDie d f).rndCtr = s.rndCtr := rfl

/-! updPower -/

@[simp] theorem updPower_pending (f : PowerSt → PowerSt) : (s.updPower f).pending = s.pending := rfl
@[simp] theorem updPower_tsc (f : PowerSt → PowerSt) : (s.updPower f).tsc = s.tsc := rfl
@[simp] theorem updPower_life (f : PowerSt → PowerSt) : (s.updPower f).life = s.life := rfl
@[simp] theorem updPower_lifeSince (f : PowerSt → PowerSt) : (s.updPower f).lifeSince = s.lifeSince := rfl
@[simp] theorem updPower_cores (f : PowerSt → PowerSt) : (s.updPower f).cores = s.cores := rfl
@[simp] theorem updPower_bars (f : PowerSt → PowerSt) : (s.updPower f).bars = s.bars := rfl
@[simp] theorem updPower_sched (f : PowerSt → PowerSt) : (s.updPower f).sched = s.sched := rfl
@[simp] theorem updPower_mem (f : PowerSt → PowerSt) : (s.updPower f).mem = s.mem := rfl
@[simp] theorem updPower_adapters (f : PowerSt → PowerSt) : (s.updPower f).adapters = s.adapters := rfl
@[simp] theorem updPower_ports (f : PowerSt → PowerSt) : (s.updPower f).ports = s.ports := rfl
@[simp] theorem updPower_hubs (f : PowerSt → PowerSt) : (s.updPower f).hubs = s.hubs := rfl
@[simp] theorem updPower_landings (f : PowerSt → PowerSt) : (s.updPower f).landings = s.landings := rfl
@[simp] theorem updPower_devNum (f : PowerSt → PowerSt) : (s.updPower f).devNum = s.devNum := rfl
@[simp] theorem updPower_fab (f : PowerSt → PowerSt) : (s.updPower f).fab = s.fab := rfl
@[simp] theorem updPower_jobKey (f : PowerSt → PowerSt) : (s.updPower f).jobKey = s.jobKey := rfl
@[simp] theorem updPower_jobImages (f : PowerSt → PowerSt) : (s.updPower f).jobImages = s.jobImages := rfl
@[simp] theorem updPower_log (f : PowerSt → PowerSt) : (s.updPower f).log = s.log := rfl
@[simp] theorem updPower_flagMask (f : PowerSt → PowerSt) : (s.updPower f).flagMask = s.flagMask := rfl
@[simp] theorem updPower_husk (f : PowerSt → PowerSt) : (s.updPower f).husk = s.husk := rfl
@[simp] theorem updPower_opt (f : PowerSt → PowerSt) : (s.updPower f).opt = s.opt := rfl
@[simp] theorem updPower_clock (f : PowerSt → PowerSt) : (s.updPower f).clock = s.clock := rfl
@[simp] theorem updPower_align (f : PowerSt → PowerSt) : (s.updPower f).align = s.align := rfl
@[simp] theorem updPower_cpus (f : PowerSt → PowerSt) : (s.updPower f).cpus = s.cpus := rfl
@[simp] theorem updPower_sec (f : PowerSt → PowerSt) : (s.updPower f).sec = s.sec := rfl
@[simp] theorem updPower_fuses (f : PowerSt → PowerSt) : (s.updPower f).fuses = s.fuses := rfl
@[simp] theorem updPower_mgmt (f : PowerSt → PowerSt) : (s.updPower f).mgmt = s.mgmt := rfl
@[simp] theorem updPower_boot (f : PowerSt → PowerSt) : (s.updPower f).boot = s.boot := rfl
@[simp] theorem updPower_box (f : PowerSt → PowerSt) : (s.updPower f).box = s.box := rfl
@[simp] theorem updPower_flash (f : PowerSt → PowerSt) : (s.updPower f).flash = s.flash := rfl
@[simp] theorem updPower_actStatus (f : PowerSt → PowerSt) : (s.updPower f).actStatus = s.actStatus := rfl
@[simp] theorem updPower_out (f : PowerSt → PowerSt) : (s.updPower f).out = s.out := rfl
@[simp] theorem updPower_freeCtr (f : PowerSt → PowerSt) : (s.updPower f).freeCtr = s.freeCtr := rfl
@[simp] theorem updPower_rndCtr (f : PowerSt → PowerSt) : (s.updPower f).rndCtr = s.rndCtr := rfl

/-! updClock -/

@[simp] theorem updClock_pending (f : ClockSt → ClockSt) : (s.updClock f).pending = s.pending := rfl
@[simp] theorem updClock_tsc (f : ClockSt → ClockSt) : (s.updClock f).tsc = s.tsc := rfl
@[simp] theorem updClock_life (f : ClockSt → ClockSt) : (s.updClock f).life = s.life := rfl
@[simp] theorem updClock_lifeSince (f : ClockSt → ClockSt) : (s.updClock f).lifeSince = s.lifeSince := rfl
@[simp] theorem updClock_cores (f : ClockSt → ClockSt) : (s.updClock f).cores = s.cores := rfl
@[simp] theorem updClock_bars (f : ClockSt → ClockSt) : (s.updClock f).bars = s.bars := rfl
@[simp] theorem updClock_sched (f : ClockSt → ClockSt) : (s.updClock f).sched = s.sched := rfl
@[simp] theorem updClock_mem (f : ClockSt → ClockSt) : (s.updClock f).mem = s.mem := rfl
@[simp] theorem updClock_adapters (f : ClockSt → ClockSt) : (s.updClock f).adapters = s.adapters := rfl
@[simp] theorem updClock_ports (f : ClockSt → ClockSt) : (s.updClock f).ports = s.ports := rfl
@[simp] theorem updClock_hubs (f : ClockSt → ClockSt) : (s.updClock f).hubs = s.hubs := rfl
@[simp] theorem updClock_landings (f : ClockSt → ClockSt) : (s.updClock f).landings = s.landings := rfl
@[simp] theorem updClock_devNum (f : ClockSt → ClockSt) : (s.updClock f).devNum = s.devNum := rfl
@[simp] theorem updClock_fab (f : ClockSt → ClockSt) : (s.updClock f).fab = s.fab := rfl
@[simp] theorem updClock_jobKey (f : ClockSt → ClockSt) : (s.updClock f).jobKey = s.jobKey := rfl
@[simp] theorem updClock_jobImages (f : ClockSt → ClockSt) : (s.updClock f).jobImages = s.jobImages := rfl
@[simp] theorem updClock_log (f : ClockSt → ClockSt) : (s.updClock f).log = s.log := rfl
@[simp] theorem updClock_flagMask (f : ClockSt → ClockSt) : (s.updClock f).flagMask = s.flagMask := rfl
@[simp] theorem updClock_husk (f : ClockSt → ClockSt) : (s.updClock f).husk = s.husk := rfl
@[simp] theorem updClock_opt (f : ClockSt → ClockSt) : (s.updClock f).opt = s.opt := rfl
@[simp] theorem updClock_power (f : ClockSt → ClockSt) : (s.updClock f).power = s.power := rfl
@[simp] theorem updClock_align (f : ClockSt → ClockSt) : (s.updClock f).align = s.align := rfl
@[simp] theorem updClock_cpus (f : ClockSt → ClockSt) : (s.updClock f).cpus = s.cpus := rfl
@[simp] theorem updClock_sec (f : ClockSt → ClockSt) : (s.updClock f).sec = s.sec := rfl
@[simp] theorem updClock_fuses (f : ClockSt → ClockSt) : (s.updClock f).fuses = s.fuses := rfl
@[simp] theorem updClock_mgmt (f : ClockSt → ClockSt) : (s.updClock f).mgmt = s.mgmt := rfl
@[simp] theorem updClock_boot (f : ClockSt → ClockSt) : (s.updClock f).boot = s.boot := rfl
@[simp] theorem updClock_box (f : ClockSt → ClockSt) : (s.updClock f).box = s.box := rfl
@[simp] theorem updClock_flash (f : ClockSt → ClockSt) : (s.updClock f).flash = s.flash := rfl
@[simp] theorem updClock_actStatus (f : ClockSt → ClockSt) : (s.updClock f).actStatus = s.actStatus := rfl
@[simp] theorem updClock_out (f : ClockSt → ClockSt) : (s.updClock f).out = s.out := rfl
@[simp] theorem updClock_freeCtr (f : ClockSt → ClockSt) : (s.updClock f).freeCtr = s.freeCtr := rfl
@[simp] theorem updClock_rndCtr (f : ClockSt → ClockSt) : (s.updClock f).rndCtr = s.rndCtr := rfl

/-! updSec -/

@[simp] theorem updSec_pending (f : SecSt → SecSt) : (s.updSec f).pending = s.pending := rfl
@[simp] theorem updSec_tsc (f : SecSt → SecSt) : (s.updSec f).tsc = s.tsc := rfl
@[simp] theorem updSec_life (f : SecSt → SecSt) : (s.updSec f).life = s.life := rfl
@[simp] theorem updSec_lifeSince (f : SecSt → SecSt) : (s.updSec f).lifeSince = s.lifeSince := rfl
@[simp] theorem updSec_cores (f : SecSt → SecSt) : (s.updSec f).cores = s.cores := rfl
@[simp] theorem updSec_bars (f : SecSt → SecSt) : (s.updSec f).bars = s.bars := rfl
@[simp] theorem updSec_sched (f : SecSt → SecSt) : (s.updSec f).sched = s.sched := rfl
@[simp] theorem updSec_mem (f : SecSt → SecSt) : (s.updSec f).mem = s.mem := rfl
@[simp] theorem updSec_adapters (f : SecSt → SecSt) : (s.updSec f).adapters = s.adapters := rfl
@[simp] theorem updSec_ports (f : SecSt → SecSt) : (s.updSec f).ports = s.ports := rfl
@[simp] theorem updSec_hubs (f : SecSt → SecSt) : (s.updSec f).hubs = s.hubs := rfl
@[simp] theorem updSec_landings (f : SecSt → SecSt) : (s.updSec f).landings = s.landings := rfl
@[simp] theorem updSec_devNum (f : SecSt → SecSt) : (s.updSec f).devNum = s.devNum := rfl
@[simp] theorem updSec_fab (f : SecSt → SecSt) : (s.updSec f).fab = s.fab := rfl
@[simp] theorem updSec_jobKey (f : SecSt → SecSt) : (s.updSec f).jobKey = s.jobKey := rfl
@[simp] theorem updSec_jobImages (f : SecSt → SecSt) : (s.updSec f).jobImages = s.jobImages := rfl
@[simp] theorem updSec_log (f : SecSt → SecSt) : (s.updSec f).log = s.log := rfl
@[simp] theorem updSec_flagMask (f : SecSt → SecSt) : (s.updSec f).flagMask = s.flagMask := rfl
@[simp] theorem updSec_husk (f : SecSt → SecSt) : (s.updSec f).husk = s.husk := rfl
@[simp] theorem updSec_opt (f : SecSt → SecSt) : (s.updSec f).opt = s.opt := rfl
@[simp] theorem updSec_clock (f : SecSt → SecSt) : (s.updSec f).clock = s.clock := rfl
@[simp] theorem updSec_power (f : SecSt → SecSt) : (s.updSec f).power = s.power := rfl
@[simp] theorem updSec_align (f : SecSt → SecSt) : (s.updSec f).align = s.align := rfl
@[simp] theorem updSec_cpus (f : SecSt → SecSt) : (s.updSec f).cpus = s.cpus := rfl
@[simp] theorem updSec_fuses (f : SecSt → SecSt) : (s.updSec f).fuses = s.fuses := rfl
@[simp] theorem updSec_mgmt (f : SecSt → SecSt) : (s.updSec f).mgmt = s.mgmt := rfl
@[simp] theorem updSec_boot (f : SecSt → SecSt) : (s.updSec f).boot = s.boot := rfl
@[simp] theorem updSec_box (f : SecSt → SecSt) : (s.updSec f).box = s.box := rfl
@[simp] theorem updSec_flash (f : SecSt → SecSt) : (s.updSec f).flash = s.flash := rfl
@[simp] theorem updSec_actStatus (f : SecSt → SecSt) : (s.updSec f).actStatus = s.actStatus := rfl
@[simp] theorem updSec_out (f : SecSt → SecSt) : (s.updSec f).out = s.out := rfl
@[simp] theorem updSec_freeCtr (f : SecSt → SecSt) : (s.updSec f).freeCtr = s.freeCtr := rfl
@[simp] theorem updSec_rndCtr (f : SecSt → SecSt) : (s.updSec f).rndCtr = s.rndCtr := rfl

/-! updBoot -/

@[simp] theorem updBoot_pending (f : BootSt → BootSt) : (s.updBoot f).pending = s.pending := rfl
@[simp] theorem updBoot_tsc (f : BootSt → BootSt) : (s.updBoot f).tsc = s.tsc := rfl
@[simp] theorem updBoot_life (f : BootSt → BootSt) : (s.updBoot f).life = s.life := rfl
@[simp] theorem updBoot_lifeSince (f : BootSt → BootSt) : (s.updBoot f).lifeSince = s.lifeSince := rfl
@[simp] theorem updBoot_cores (f : BootSt → BootSt) : (s.updBoot f).cores = s.cores := rfl
@[simp] theorem updBoot_bars (f : BootSt → BootSt) : (s.updBoot f).bars = s.bars := rfl
@[simp] theorem updBoot_sched (f : BootSt → BootSt) : (s.updBoot f).sched = s.sched := rfl
@[simp] theorem updBoot_mem (f : BootSt → BootSt) : (s.updBoot f).mem = s.mem := rfl
@[simp] theorem updBoot_adapters (f : BootSt → BootSt) : (s.updBoot f).adapters = s.adapters := rfl
@[simp] theorem updBoot_ports (f : BootSt → BootSt) : (s.updBoot f).ports = s.ports := rfl
@[simp] theorem updBoot_hubs (f : BootSt → BootSt) : (s.updBoot f).hubs = s.hubs := rfl
@[simp] theorem updBoot_landings (f : BootSt → BootSt) : (s.updBoot f).landings = s.landings := rfl
@[simp] theorem updBoot_devNum (f : BootSt → BootSt) : (s.updBoot f).devNum = s.devNum := rfl
@[simp] theorem updBoot_fab (f : BootSt → BootSt) : (s.updBoot f).fab = s.fab := rfl
@[simp] theorem updBoot_jobKey (f : BootSt → BootSt) : (s.updBoot f).jobKey = s.jobKey := rfl
@[simp] theorem updBoot_jobImages (f : BootSt → BootSt) : (s.updBoot f).jobImages = s.jobImages := rfl
@[simp] theorem updBoot_log (f : BootSt → BootSt) : (s.updBoot f).log = s.log := rfl
@[simp] theorem updBoot_flagMask (f : BootSt → BootSt) : (s.updBoot f).flagMask = s.flagMask := rfl
@[simp] theorem updBoot_husk (f : BootSt → BootSt) : (s.updBoot f).husk = s.husk := rfl
@[simp] theorem updBoot_opt (f : BootSt → BootSt) : (s.updBoot f).opt = s.opt := rfl
@[simp] theorem updBoot_clock (f : BootSt → BootSt) : (s.updBoot f).clock = s.clock := rfl
@[simp] theorem updBoot_power (f : BootSt → BootSt) : (s.updBoot f).power = s.power := rfl
@[simp] theorem updBoot_align (f : BootSt → BootSt) : (s.updBoot f).align = s.align := rfl
@[simp] theorem updBoot_cpus (f : BootSt → BootSt) : (s.updBoot f).cpus = s.cpus := rfl
@[simp] theorem updBoot_sec (f : BootSt → BootSt) : (s.updBoot f).sec = s.sec := rfl
@[simp] theorem updBoot_fuses (f : BootSt → BootSt) : (s.updBoot f).fuses = s.fuses := rfl
@[simp] theorem updBoot_mgmt (f : BootSt → BootSt) : (s.updBoot f).mgmt = s.mgmt := rfl
@[simp] theorem updBoot_box (f : BootSt → BootSt) : (s.updBoot f).box = s.box := rfl
@[simp] theorem updBoot_flash (f : BootSt → BootSt) : (s.updBoot f).flash = s.flash := rfl
@[simp] theorem updBoot_actStatus (f : BootSt → BootSt) : (s.updBoot f).actStatus = s.actStatus := rfl
@[simp] theorem updBoot_out (f : BootSt → BootSt) : (s.updBoot f).out = s.out := rfl
@[simp] theorem updBoot_freeCtr (f : BootSt → BootSt) : (s.updBoot f).freeCtr = s.freeCtr := rfl
@[simp] theorem updBoot_rndCtr (f : BootSt → BootSt) : (s.updBoot f).rndCtr = s.rndCtr := rfl

/-! updFlash -/

@[simp] theorem updFlash_pending (f : FlashSt → FlashSt) : (s.updFlash f).pending = s.pending := rfl
@[simp] theorem updFlash_tsc (f : FlashSt → FlashSt) : (s.updFlash f).tsc = s.tsc := rfl
@[simp] theorem updFlash_life (f : FlashSt → FlashSt) : (s.updFlash f).life = s.life := rfl
@[simp] theorem updFlash_lifeSince (f : FlashSt → FlashSt) : (s.updFlash f).lifeSince = s.lifeSince := rfl
@[simp] theorem updFlash_cores (f : FlashSt → FlashSt) : (s.updFlash f).cores = s.cores := rfl
@[simp] theorem updFlash_bars (f : FlashSt → FlashSt) : (s.updFlash f).bars = s.bars := rfl
@[simp] theorem updFlash_sched (f : FlashSt → FlashSt) : (s.updFlash f).sched = s.sched := rfl
@[simp] theorem updFlash_mem (f : FlashSt → FlashSt) : (s.updFlash f).mem = s.mem := rfl
@[simp] theorem updFlash_adapters (f : FlashSt → FlashSt) : (s.updFlash f).adapters = s.adapters := rfl
@[simp] theorem updFlash_ports (f : FlashSt → FlashSt) : (s.updFlash f).ports = s.ports := rfl
@[simp] theorem updFlash_hubs (f : FlashSt → FlashSt) : (s.updFlash f).hubs = s.hubs := rfl
@[simp] theorem updFlash_landings (f : FlashSt → FlashSt) : (s.updFlash f).landings = s.landings := rfl
@[simp] theorem updFlash_devNum (f : FlashSt → FlashSt) : (s.updFlash f).devNum = s.devNum := rfl
@[simp] theorem updFlash_fab (f : FlashSt → FlashSt) : (s.updFlash f).fab = s.fab := rfl
@[simp] theorem updFlash_jobKey (f : FlashSt → FlashSt) : (s.updFlash f).jobKey = s.jobKey := rfl
@[simp] theorem updFlash_jobImages (f : FlashSt → FlashSt) : (s.updFlash f).jobImages = s.jobImages := rfl
@[simp] theorem updFlash_log (f : FlashSt → FlashSt) : (s.updFlash f).log = s.log := rfl
@[simp] theorem updFlash_flagMask (f : FlashSt → FlashSt) : (s.updFlash f).flagMask = s.flagMask := rfl
@[simp] theorem updFlash_husk (f : FlashSt → FlashSt) : (s.updFlash f).husk = s.husk := rfl
@[simp] theorem updFlash_opt (f : FlashSt → FlashSt) : (s.updFlash f).opt = s.opt := rfl
@[simp] theorem updFlash_clock (f : FlashSt → FlashSt) : (s.updFlash f).clock = s.clock := rfl
@[simp] theorem updFlash_power (f : FlashSt → FlashSt) : (s.updFlash f).power = s.power := rfl
@[simp] theorem updFlash_align (f : FlashSt → FlashSt) : (s.updFlash f).align = s.align := rfl
@[simp] theorem updFlash_cpus (f : FlashSt → FlashSt) : (s.updFlash f).cpus = s.cpus := rfl
@[simp] theorem updFlash_sec (f : FlashSt → FlashSt) : (s.updFlash f).sec = s.sec := rfl
@[simp] theorem updFlash_fuses (f : FlashSt → FlashSt) : (s.updFlash f).fuses = s.fuses := rfl
@[simp] theorem updFlash_mgmt (f : FlashSt → FlashSt) : (s.updFlash f).mgmt = s.mgmt := rfl
@[simp] theorem updFlash_boot (f : FlashSt → FlashSt) : (s.updFlash f).boot = s.boot := rfl
@[simp] theorem updFlash_box (f : FlashSt → FlashSt) : (s.updFlash f).box = s.box := rfl
@[simp] theorem updFlash_actStatus (f : FlashSt → FlashSt) : (s.updFlash f).actStatus = s.actStatus := rfl
@[simp] theorem updFlash_out (f : FlashSt → FlashSt) : (s.updFlash f).out = s.out := rfl
@[simp] theorem updFlash_freeCtr (f : FlashSt → FlashSt) : (s.updFlash f).freeCtr = s.freeCtr := rfl
@[simp] theorem updFlash_rndCtr (f : FlashSt → FlashSt) : (s.updFlash f).rndCtr = s.rndCtr := rfl

/-! updMg -/

@[simp] theorem updMg_pending (f : MgmtSt → MgmtSt) : (s.updMg f).pending = s.pending := rfl
@[simp] theorem updMg_tsc (f : MgmtSt → MgmtSt) : (s.updMg f).tsc = s.tsc := rfl
@[simp] theorem updMg_life (f : MgmtSt → MgmtSt) : (s.updMg f).life = s.life := rfl
@[simp] theorem updMg_lifeSince (f : MgmtSt → MgmtSt) : (s.updMg f).lifeSince = s.lifeSince := rfl
@[simp] theorem updMg_cores (f : MgmtSt → MgmtSt) : (s.updMg f).cores = s.cores := rfl
@[simp] theorem updMg_bars (f : MgmtSt → MgmtSt) : (s.updMg f).bars = s.bars := rfl
@[simp] theorem updMg_sched (f : MgmtSt → MgmtSt) : (s.updMg f).sched = s.sched := rfl
@[simp] theorem updMg_mem (f : MgmtSt → MgmtSt) : (s.updMg f).mem = s.mem := rfl
@[simp] theorem updMg_adapters (f : MgmtSt → MgmtSt) : (s.updMg f).adapters = s.adapters := rfl
@[simp] theorem updMg_ports (f : MgmtSt → MgmtSt) : (s.updMg f).ports = s.ports := rfl
@[simp] theorem updMg_hubs (f : MgmtSt → MgmtSt) : (s.updMg f).hubs = s.hubs := rfl
@[simp] theorem updMg_landings (f : MgmtSt → MgmtSt) : (s.updMg f).landings = s.landings := rfl
@[simp] theorem updMg_devNum (f : MgmtSt → MgmtSt) : (s.updMg f).devNum = s.devNum := rfl
@[simp] theorem updMg_fab (f : MgmtSt → MgmtSt) : (s.updMg f).fab = s.fab := rfl
@[simp] theorem updMg_jobKey (f : MgmtSt → MgmtSt) : (s.updMg f).jobKey = s.jobKey := rfl
@[simp] theorem updMg_jobImages (f : MgmtSt → MgmtSt) : (s.updMg f).jobImages = s.jobImages := rfl
@[simp] theorem updMg_log (f : MgmtSt → MgmtSt) : (s.updMg f).log = s.log := rfl
@[simp] theorem updMg_flagMask (f : MgmtSt → MgmtSt) : (s.updMg f).flagMask = s.flagMask := rfl
@[simp] theorem updMg_husk (f : MgmtSt → MgmtSt) : (s.updMg f).husk = s.husk := rfl
@[simp] theorem updMg_opt (f : MgmtSt → MgmtSt) : (s.updMg f).opt = s.opt := rfl
@[simp] theorem updMg_clock (f : MgmtSt → MgmtSt) : (s.updMg f).clock = s.clock := rfl
@[simp] theorem updMg_power (f : MgmtSt → MgmtSt) : (s.updMg f).power = s.power := rfl
@[simp] theorem updMg_align (f : MgmtSt → MgmtSt) : (s.updMg f).align = s.align := rfl
@[simp] theorem updMg_cpus (f : MgmtSt → MgmtSt) : (s.updMg f).cpus = s.cpus := rfl
@[simp] theorem updMg_sec (f : MgmtSt → MgmtSt) : (s.updMg f).sec = s.sec := rfl
@[simp] theorem updMg_fuses (f : MgmtSt → MgmtSt) : (s.updMg f).fuses = s.fuses := rfl
@[simp] theorem updMg_boot (f : MgmtSt → MgmtSt) : (s.updMg f).boot = s.boot := rfl
@[simp] theorem updMg_box (f : MgmtSt → MgmtSt) : (s.updMg f).box = s.box := rfl
@[simp] theorem updMg_flash (f : MgmtSt → MgmtSt) : (s.updMg f).flash = s.flash := rfl
@[simp] theorem updMg_actStatus (f : MgmtSt → MgmtSt) : (s.updMg f).actStatus = s.actStatus := rfl
@[simp] theorem updMg_out (f : MgmtSt → MgmtSt) : (s.updMg f).out = s.out := rfl
@[simp] theorem updMg_freeCtr (f : MgmtSt → MgmtSt) : (s.updMg f).freeCtr = s.freeCtr := rfl
@[simp] theorem updMg_rndCtr (f : MgmtSt → MgmtSt) : (s.updMg f).rndCtr = s.rndCtr := rfl

/-! updHusk -/

@[simp] theorem updHusk_pending (f : HuskSt → HuskSt) : (s.updHusk f).pending = s.pending := rfl
@[simp] theorem updHusk_tsc (f : HuskSt → HuskSt) : (s.updHusk f).tsc = s.tsc := rfl
@[simp] theorem updHusk_life (f : HuskSt → HuskSt) : (s.updHusk f).life = s.life := rfl
@[simp] theorem updHusk_lifeSince (f : HuskSt → HuskSt) : (s.updHusk f).lifeSince = s.lifeSince := rfl
@[simp] theorem updHusk_cores (f : HuskSt → HuskSt) : (s.updHusk f).cores = s.cores := rfl
@[simp] theorem updHusk_bars (f : HuskSt → HuskSt) : (s.updHusk f).bars = s.bars := rfl
@[simp] theorem updHusk_sched (f : HuskSt → HuskSt) : (s.updHusk f).sched = s.sched := rfl
@[simp] theorem updHusk_mem (f : HuskSt → HuskSt) : (s.updHusk f).mem = s.mem := rfl
@[simp] theorem updHusk_adapters (f : HuskSt → HuskSt) : (s.updHusk f).adapters = s.adapters := rfl
@[simp] theorem updHusk_ports (f : HuskSt → HuskSt) : (s.updHusk f).ports = s.ports := rfl
@[simp] theorem updHusk_hubs (f : HuskSt → HuskSt) : (s.updHusk f).hubs = s.hubs := rfl
@[simp] theorem updHusk_landings (f : HuskSt → HuskSt) : (s.updHusk f).landings = s.landings := rfl
@[simp] theorem updHusk_devNum (f : HuskSt → HuskSt) : (s.updHusk f).devNum = s.devNum := rfl
@[simp] theorem updHusk_fab (f : HuskSt → HuskSt) : (s.updHusk f).fab = s.fab := rfl
@[simp] theorem updHusk_jobKey (f : HuskSt → HuskSt) : (s.updHusk f).jobKey = s.jobKey := rfl
@[simp] theorem updHusk_jobImages (f : HuskSt → HuskSt) : (s.updHusk f).jobImages = s.jobImages := rfl
@[simp] theorem updHusk_log (f : HuskSt → HuskSt) : (s.updHusk f).log = s.log := rfl
@[simp] theorem updHusk_flagMask (f : HuskSt → HuskSt) : (s.updHusk f).flagMask = s.flagMask := rfl
@[simp] theorem updHusk_opt (f : HuskSt → HuskSt) : (s.updHusk f).opt = s.opt := rfl
@[simp] theorem updHusk_clock (f : HuskSt → HuskSt) : (s.updHusk f).clock = s.clock := rfl
@[simp] theorem updHusk_power (f : HuskSt → HuskSt) : (s.updHusk f).power = s.power := rfl
@[simp] theorem updHusk_align (f : HuskSt → HuskSt) : (s.updHusk f).align = s.align := rfl
@[simp] theorem updHusk_cpus (f : HuskSt → HuskSt) : (s.updHusk f).cpus = s.cpus := rfl
@[simp] theorem updHusk_sec (f : HuskSt → HuskSt) : (s.updHusk f).sec = s.sec := rfl
@[simp] theorem updHusk_fuses (f : HuskSt → HuskSt) : (s.updHusk f).fuses = s.fuses := rfl
@[simp] theorem updHusk_mgmt (f : HuskSt → HuskSt) : (s.updHusk f).mgmt = s.mgmt := rfl
@[simp] theorem updHusk_boot (f : HuskSt → HuskSt) : (s.updHusk f).boot = s.boot := rfl
@[simp] theorem updHusk_box (f : HuskSt → HuskSt) : (s.updHusk f).box = s.box := rfl
@[simp] theorem updHusk_flash (f : HuskSt → HuskSt) : (s.updHusk f).flash = s.flash := rfl
@[simp] theorem updHusk_actStatus (f : HuskSt → HuskSt) : (s.updHusk f).actStatus = s.actStatus := rfl
@[simp] theorem updHusk_out (f : HuskSt → HuskSt) : (s.updHusk f).out = s.out := rfl
@[simp] theorem updHusk_freeCtr (f : HuskSt → HuskSt) : (s.updHusk f).freeCtr = s.freeCtr := rfl
@[simp] theorem updHusk_rndCtr (f : HuskSt → HuskSt) : (s.updHusk f).rndCtr = s.rndCtr := rfl

/-! updFab -/

@[simp] theorem updFab_pending (f : FabSt → FabSt) : (s.updFab f).pending = s.pending := rfl
@[simp] theorem updFab_tsc (f : FabSt → FabSt) : (s.updFab f).tsc = s.tsc := rfl
@[simp] theorem updFab_life (f : FabSt → FabSt) : (s.updFab f).life = s.life := rfl
@[simp] theorem updFab_lifeSince (f : FabSt → FabSt) : (s.updFab f).lifeSince = s.lifeSince := rfl
@[simp] theorem updFab_cores (f : FabSt → FabSt) : (s.updFab f).cores = s.cores := rfl
@[simp] theorem updFab_bars (f : FabSt → FabSt) : (s.updFab f).bars = s.bars := rfl
@[simp] theorem updFab_sched (f : FabSt → FabSt) : (s.updFab f).sched = s.sched := rfl
@[simp] theorem updFab_mem (f : FabSt → FabSt) : (s.updFab f).mem = s.mem := rfl
@[simp] theorem updFab_adapters (f : FabSt → FabSt) : (s.updFab f).adapters = s.adapters := rfl
@[simp] theorem updFab_ports (f : FabSt → FabSt) : (s.updFab f).ports = s.ports := rfl
@[simp] theorem updFab_hubs (f : FabSt → FabSt) : (s.updFab f).hubs = s.hubs := rfl
@[simp] theorem updFab_landings (f : FabSt → FabSt) : (s.updFab f).landings = s.landings := rfl
@[simp] theorem updFab_devNum (f : FabSt → FabSt) : (s.updFab f).devNum = s.devNum := rfl
@[simp] theorem updFab_jobKey (f : FabSt → FabSt) : (s.updFab f).jobKey = s.jobKey := rfl
@[simp] theorem updFab_jobImages (f : FabSt → FabSt) : (s.updFab f).jobImages = s.jobImages := rfl
@[simp] theorem updFab_log (f : FabSt → FabSt) : (s.updFab f).log = s.log := rfl
@[simp] theorem updFab_flagMask (f : FabSt → FabSt) : (s.updFab f).flagMask = s.flagMask := rfl
@[simp] theorem updFab_husk (f : FabSt → FabSt) : (s.updFab f).husk = s.husk := rfl
@[simp] theorem updFab_opt (f : FabSt → FabSt) : (s.updFab f).opt = s.opt := rfl
@[simp] theorem updFab_clock (f : FabSt → FabSt) : (s.updFab f).clock = s.clock := rfl
@[simp] theorem updFab_power (f : FabSt → FabSt) : (s.updFab f).power = s.power := rfl
@[simp] theorem updFab_align (f : FabSt → FabSt) : (s.updFab f).align = s.align := rfl
@[simp] theorem updFab_cpus (f : FabSt → FabSt) : (s.updFab f).cpus = s.cpus := rfl
@[simp] theorem updFab_sec (f : FabSt → FabSt) : (s.updFab f).sec = s.sec := rfl
@[simp] theorem updFab_fuses (f : FabSt → FabSt) : (s.updFab f).fuses = s.fuses := rfl
@[simp] theorem updFab_mgmt (f : FabSt → FabSt) : (s.updFab f).mgmt = s.mgmt := rfl
@[simp] theorem updFab_boot (f : FabSt → FabSt) : (s.updFab f).boot = s.boot := rfl
@[simp] theorem updFab_box (f : FabSt → FabSt) : (s.updFab f).box = s.box := rfl
@[simp] theorem updFab_flash (f : FabSt → FabSt) : (s.updFab f).flash = s.flash := rfl
@[simp] theorem updFab_actStatus (f : FabSt → FabSt) : (s.updFab f).actStatus = s.actStatus := rfl
@[simp] theorem updFab_out (f : FabSt → FabSt) : (s.updFab f).out = s.out := rfl
@[simp] theorem updFab_freeCtr (f : FabSt → FabSt) : (s.updFab f).freeCtr = s.freeCtr := rfl
@[simp] theorem updFab_rndCtr (f : FabSt → FabSt) : (s.updFab f).rndCtr = s.rndCtr := rfl

/-! emit -/

@[simp] theorem emit_pending (o : Out) : (s.emit o).pending = s.pending := rfl
@[simp] theorem emit_tsc (o : Out) : (s.emit o).tsc = s.tsc := rfl
@[simp] theorem emit_life (o : Out) : (s.emit o).life = s.life := rfl
@[simp] theorem emit_lifeSince (o : Out) : (s.emit o).lifeSince = s.lifeSince := rfl
@[simp] theorem emit_cores (o : Out) : (s.emit o).cores = s.cores := rfl
@[simp] theorem emit_bars (o : Out) : (s.emit o).bars = s.bars := rfl
@[simp] theorem emit_sched (o : Out) : (s.emit o).sched = s.sched := rfl
@[simp] theorem emit_mem (o : Out) : (s.emit o).mem = s.mem := rfl
@[simp] theorem emit_adapters (o : Out) : (s.emit o).adapters = s.adapters := rfl
@[simp] theorem emit_ports (o : Out) : (s.emit o).ports = s.ports := rfl
@[simp] theorem emit_hubs (o : Out) : (s.emit o).hubs = s.hubs := rfl
@[simp] theorem emit_landings (o : Out) : (s.emit o).landings = s.landings := rfl
@[simp] theorem emit_devNum (o : Out) : (s.emit o).devNum = s.devNum := rfl
@[simp] theorem emit_fab (o : Out) : (s.emit o).fab = s.fab := rfl
@[simp] theorem emit_jobKey (o : Out) : (s.emit o).jobKey = s.jobKey := rfl
@[simp] theorem emit_jobImages (o : Out) : (s.emit o).jobImages = s.jobImages := rfl
@[simp] theorem emit_log (o : Out) : (s.emit o).log = s.log := rfl
@[simp] theorem emit_flagMask (o : Out) : (s.emit o).flagMask = s.flagMask := rfl
@[simp] theorem emit_husk (o : Out) : (s.emit o).husk = s.husk := rfl
@[simp] theorem emit_opt (o : Out) : (s.emit o).opt = s.opt := rfl
@[simp] theorem emit_clock (o : Out) : (s.emit o).clock = s.clock := rfl
@[simp] theorem emit_power (o : Out) : (s.emit o).power = s.power := rfl
@[simp] theorem emit_align (o : Out) : (s.emit o).align = s.align := rfl
@[simp] theorem emit_cpus (o : Out) : (s.emit o).cpus = s.cpus := rfl
@[simp] theorem emit_sec (o : Out) : (s.emit o).sec = s.sec := rfl
@[simp] theorem emit_fuses (o : Out) : (s.emit o).fuses = s.fuses := rfl
@[simp] theorem emit_mgmt (o : Out) : (s.emit o).mgmt = s.mgmt := rfl
@[simp] theorem emit_boot (o : Out) : (s.emit o).boot = s.boot := rfl
@[simp] theorem emit_box (o : Out) : (s.emit o).box = s.box := rfl
@[simp] theorem emit_flash (o : Out) : (s.emit o).flash = s.flash := rfl
@[simp] theorem emit_actStatus (o : Out) : (s.emit o).actStatus = s.actStatus := rfl
@[simp] theorem emit_freeCtr (o : Out) : (s.emit o).freeCtr = s.freeCtr := rfl
@[simp] theorem emit_rndCtr (o : Out) : (s.emit o).rndCtr = s.rndCtr := rfl

/-! updLanding -/

@[simp] theorem updLanding_pending (no : Nat) (f : Landing → Landing) : (s.updLanding no f).pending = s.pending := rfl
@[simp] theorem updLanding_tsc (no : Nat) (f : Landing → Landing) : (s.updLanding no f).tsc = s.tsc := rfl
@[simp] theorem updLanding_life (no : Nat) (f : Landing → Landing) : (s.updLanding no f).life = s.life := rfl
@[simp] theorem updLanding_lifeSince (no : Nat) (f : Landing → Landing) : (s.updLanding no f).lifeSince = s.lifeSince := rfl
@[simp] theorem updLanding_cores (no : Nat) (f : Landing → Landing) : (s.updLanding no f).cores = s.cores := rfl
@[simp] theorem updLanding_bars (no : Nat) (f : Landing → Landing) : (s.updLanding no f).bars = s.bars := rfl
@[simp] theorem updLanding_sched (no : Nat) (f : Landing → Landing) : (s.updLanding no f).sched = s.sched := rfl
@[simp] theorem updLanding_mem (no : Nat) (f : Landing → Landing) : (s.updLanding no f).mem = s.mem := rfl
@[simp] theorem updLanding_adapters (no : Nat) (f : Landing → Landing) : (s.updLanding no f).adapters = s.adapters := rfl
@[simp] theorem updLanding_ports (no : Nat) (f : Landing → Landing) : (s.updLanding no f).ports = s.ports := rfl
@[simp] theorem updLanding_hubs (no : Nat) (f : Landing → Landing) : (s.updLanding no f).hubs = s.hubs := rfl
@[simp] theorem updLanding_devNum (no : Nat) (f : Landing → Landing) : (s.updLanding no f).devNum = s.devNum := rfl
@[simp] theorem updLanding_fab (no : Nat) (f : Landing → Landing) : (s.updLanding no f).fab = s.fab := rfl
@[simp] theorem updLanding_jobKey (no : Nat) (f : Landing → Landing) : (s.updLanding no f).jobKey = s.jobKey := rfl
@[simp] theorem updLanding_jobImages (no : Nat) (f : Landing → Landing) : (s.updLanding no f).jobImages = s.jobImages := rfl
@[simp] theorem updLanding_log (no : Nat) (f : Landing → Landing) : (s.updLanding no f).log = s.log := rfl
@[simp] theorem updLanding_flagMask (no : Nat) (f : Landing → Landing) : (s.updLanding no f).flagMask = s.flagMask := rfl
@[simp] theorem updLanding_husk (no : Nat) (f : Landing → Landing) : (s.updLanding no f).husk = s.husk := rfl
@[simp] theorem updLanding_opt (no : Nat) (f : Landing → Landing) : (s.updLanding no f).opt = s.opt := rfl
@[simp] theorem updLanding_clock (no : Nat) (f : Landing → Landing) : (s.updLanding no f).clock = s.clock := rfl
@[simp] theorem updLanding_power (no : Nat) (f : Landing → Landing) : (s.updLanding no f).power = s.power := rfl
@[simp] theorem updLanding_align (no : Nat) (f : Landing → Landing) : (s.updLanding no f).align = s.align := rfl
@[simp] theorem updLanding_cpus (no : Nat) (f : Landing → Landing) : (s.updLanding no f).cpus = s.cpus := rfl
@[simp] theorem updLanding_sec (no : Nat) (f : Landing → Landing) : (s.updLanding no f).sec = s.sec := rfl
@[simp] theorem updLanding_fuses (no : Nat) (f : Landing → Landing) : (s.updLanding no f).fuses = s.fuses := rfl
@[simp] theorem updLanding_mgmt (no : Nat) (f : Landing → Landing) : (s.updLanding no f).mgmt = s.mgmt := rfl
@[simp] theorem updLanding_boot (no : Nat) (f : Landing → Landing) : (s.updLanding no f).boot = s.boot := rfl
@[simp] theorem updLanding_box (no : Nat) (f : Landing → Landing) : (s.updLanding no f).box = s.box := rfl
@[simp] theorem updLanding_flash (no : Nat) (f : Landing → Landing) : (s.updLanding no f).flash = s.flash := rfl
@[simp] theorem updLanding_actStatus (no : Nat) (f : Landing → Landing) : (s.updLanding no f).actStatus = s.actStatus := rfl
@[simp] theorem updLanding_out (no : Nat) (f : Landing → Landing) : (s.updLanding no f).out = s.out := rfl
@[simp] theorem updLanding_freeCtr (no : Nat) (f : Landing → Landing) : (s.updLanding no f).freeCtr = s.freeCtr := rfl
@[simp] theorem updLanding_rndCtr (no : Nat) (f : Landing → Landing) : (s.updLanding no f).rndCtr = s.rndCtr := rfl

end Sys2Proof.Machine
end

