-- ==== Sys2Proof/Laws/Memory.lean ====
section
/-! SUPPORT. The memories: every operation on HBM, a scratchpad or the flash keeps the canonical form, a read after a write gives what was
written, and a write leaves every other byte alone. -/

namespace Sys2Proof.Machine

/-- Reset memory lists nothing. -/
theorem memWf_reset : State.reset.memWf := ⟨rfl, fun _ => rfl, rfl⟩

/-! HBM. -/

theorem memWf_setSector {s : State} (h : s.memWf) (st a : Nat) (bs : List Byte) : (s.setSector st a bs).memWf :=
  ⟨SMap.wf_sets 0 _ _ _ h.1, h.2.1, h.2.2⟩

theorem memWf_dropHbm {s : State} (h : s.memWf) (p : Nat → Bool) :
    State.memWf { s with mem := { s.mem with hbm := s.mem.hbm.drop p } } :=
  ⟨SMap.wf_filter 0 _ _ h.1, h.2.1, h.2.2⟩

/-- What a sector reads after a write of a whole sector: the bytes written, and every other sector as before. -/
theorem sector_setSector (s : State) (st a : Nat) (bs : List Byte) (h : bs.length = 64) : (s.setSector st a bs).sector st a = bs := by
  have key := SMap.gets_sets_same (0 : Byte) bs s.mem.hbm (hbmKey st a)
  unfold State.setSector State.sector
  rw [List.take_of_length_le (by omega)]
  rwa [h] at key

/-- A write of a sector leaves every byte outside its 64 alone. -/
theorem get_setSector_of_out (s : State) (st a k : Nat) (bs : List Byte) (h : k < hbmKey st a ∨ hbmKey st a + 64 ≤ k) :
    (s.setSector st a bs).mem.hbm.get 0 k = s.mem.hbm.get 0 k := by
  refine SMap.get_sets_of_out 0 _ _ _ _ ?_
  rcases h with h | h
  · exact Or.inl h
  · refine Or.inr (Nat.le_trans ?_ h)
    simp only [List.length_take]
    omega

/-! Scratchpads. -/

theorem memWf_spadWrite {s : State} (h : s.memWf) (c a : Nat) (bs : List Byte) : (s.spadWrite c a bs).memWf := by
  refine ⟨h.1, fun d => ?_, h.2.2⟩
  unfold State.spadWrite
  rw [core_updCore]
  split
  · exact SMap.wf_sets 0 _ _ _ (h.2.1 c)
  · exact h.2.1 d

theorem spadRead_spadWrite (s : State) (c a : Nat) (bs : List Byte) : (s.spadWrite c a bs).spadRead c a bs.length = bs := by
  unfold State.spadRead State.spadWrite
  rw [core_updCore, if_pos rfl]
  exact SMap.gets_sets_same 0 bs _ a

theorem get_spadWrite_of_out (s : State) (c a k : Nat) (bs : List Byte) (h : k < a ∨ a + bs.length ≤ k) :
    ((s.spadWrite c a bs).core c).spad.get 0 k = (s.core c).spad.get 0 k := by
  unfold State.spadWrite
  rw [core_updCore, if_pos rfl]
  exact SMap.get_sets_of_out 0 bs _ a k h

/-! Flash. -/

theorem memWf_flashWrite {s : State} (h : s.memWf) (dev off : Nat) (bs : List Byte) : (s.flashWrite dev off bs).memWf :=
  ⟨h.1, h.2.1, SMap.wf_sets 0xFF _ _ _ h.2.2⟩

theorem memWf_flashErase {s : State} (h : s.memWf) (dev off n : Nat) : (s.flashErase dev off n).memWf :=
  ⟨h.1, h.2.1, SMap.wf_filter 0xFF _ _ h.2.2⟩

theorem flashRead_flashWrite (s : State) (dev off : Nat) (bs : List Byte) : (s.flashWrite dev off bs).flashRead dev off bs.length = bs :=
  SMap.gets_sets_same 0xFF bs _ _

theorem get_flashWrite_of_out (s : State) (dev off k : Nat) (bs : List Byte) (h : k < flashKey dev off ∨ flashKey dev off + bs.length ≤ k) :
    (s.flashWrite dev off bs).flash.bytes.get 0xFF k = s.flash.bytes.get 0xFF k :=
  SMap.get_sets_of_out 0xFF bs _ _ k h

/-! The erasure of a job's memory. -/

@[simp] theorem spad_zeroMemory (s : State) (c : Nat) : (s.zeroMemory.core c).spad = [] := by
  unfold State.core State.zeroMemory
  simp only
  rw [SMap.get_mapV _ _ _ _ rfl]

theorem memWf_zeroMemory {s : State} (h : s.memWf) : s.zeroMemory.memWf :=
  ⟨rfl, fun c => by rw [spad_zeroMemory]; rfl, h.2.2⟩

end Sys2Proof.Machine
end

