-- ==== Sys2Proof/Laws/Ops.lean ====
section
/-! SUPPORT. What the shared operations do, once for each: the issue of a command, a sequencer's moves, flags, the matrix and vector
engines when they have nothing else to do. -/

namespace Sys2Proof.Machine

/-! One core. -/

theorem OnlyCore.rfl' (s : State) (c : Nat) : OnlyCore s s c := ⟨rfl, fun _ _ => rfl⟩

theorem OnlyCore.then {s t u : State} {c : Nat} (h : OnlyCore s t c) (g : OnlyCore t u c) : OnlyCore s u c := by
  obtain ⟨h1, h2⟩ := h
  obtain ⟨g1, g2⟩ := g
  refine ⟨?_, fun d hd => (g2 d hd).trans (h2 d hd)⟩
  rw [g1, h1]

theorem onlyCore_upd (s : State) (c : Nat) (f : CoreSt → CoreSt) : OnlyCore s (s.updCore c f) c :=
  ⟨rfl, fun d h => by simp [h]⟩

theorem onlyCore_post (s : State) (c code sev src : Nat) (args : List Nat) : OnlyCore s (s.post code sev src args) c := by
  unfold State.post
  split
  · exact OnlyCore.rfl' s c
  · exact ⟨rfl, fun _ _ => rfl⟩

@[simp] theorem core_post (s : State) (code sev src : Nat) (args : List Nat) (d : Nat) : (s.post code sev src args).core d = s.core d := by
  unfold State.post
  split <;> rfl

/-! The sequencer. -/

@[simp] theorem core_advance (s : State) (c d : Nat) :
    (s.advance c).core d = if d = c then { s.core c with seq := (s.core c).seq.moved s.tsc } else s.core d := by
  simp [State.advance, seqNext, SeqSt.moved]

theorem onlyCore_advance (s : State) (c : Nat) : OnlyCore s (s.advance c) c := onlyCore_upd s c _

@[simp] theorem advance_strictOf (s : State) (c : Nat) : (s.advance c).strictOf c = s.strictOf c := by
  simp [State.strictOf, SeqSt.moved]

theorem core_seqWait (s : State) (c k : Nat) (w : Cmd) :
    (s.seqWait c k (some w)).core c = { s.core c with seq := (s.core c).seq.waits s.tsc k w } := by
  simp [State.seqWait, SeqSt.waits]

theorem onlyCore_seqWait (s : State) (c k : Nat) (w : Option Cmd) : OnlyCore s (s.seqWait c k w) c := onlyCore_upd s c _

theorem length_cmdBytes (w : Cmd) : (cmdBytes w).length = 16 := rfl

/-- A sequencer whose buffer holds its command fetches nothing for it (R140). -/
theorem fetchFor_of_atCmd {s : State} {c : Nat} {w : Cmd} {e o : Nat} (h : s.atCmd c w e o = true) : s.fetchFor c = s := by
  have hb : (s.core c).seq.buf.take 16 = cmdBytes w := by
    simp only [State.atCmd, Bool.and_eq_true, decide_eq_true_eq] at h
    exact h.1.1.2
  have hl : 16 ≤ (s.core c).seq.buf.length := by
    have := congrArg List.length hb
    rw [List.length_take, length_cmdBytes] at this
    omega
  simp [State.fetchFor, hl]

/-- Every outcome of an issue (R140, R162), on the state after the fetch of the command. -/
theorem issue_cases (s : State) (c : Nat) (w : Cmd) (e o : Nat) (mal gated bad full : Bool) (eff : State → State) :
    let u := s.fetchFor c
    (u.atCmd c w e o = false ∧ s.issue c w e o mal gated bad full eff = u) ∨
    (u.atCmd c w e o = true ∧ mal = true ∧ s.issue c w e o mal gated bad full eff = u.seqFault c 1 w) ∨
    (u.atCmd c w e o = true ∧ mal = false ∧ gated = true ∧ s.issue c w e o mal gated bad full eff = u.seqFault c 3 w) ∨
    (u.atCmd c w e o = true ∧ mal = false ∧ gated = false ∧ bad = true ∧ s.issue c w e o mal gated bad full eff = u.seqFault c 2 w) ∨
    (u.atCmd c w e o = true ∧ mal = false ∧ gated = false ∧ bad = false ∧ full = true ∧
      s.issue c w e o mal gated bad full eff = u.seqWait c 2 none) ∨
    (u.atCmd c w e o = true ∧ mal = false ∧ gated = false ∧ bad = false ∧ full = false ∧
      s.issue c w e o mal gated bad full eff = eff (u.advance c)) := by
  intro u
  simp only [State.issue]
  cases h : u.atCmd c w e o <;> cases mal <;> cases gated <;> cases bad <;> cases full <;> simp [u]

theorem issue_ok {s : State} {c : Nat} {w : Cmd} {e o : Nat} {mal gated bad full : Bool} (eff : State → State)
    (h : s.atCmd c w e o = true) (h1 : mal = false) (h2 : gated = false) (h3 : bad = false) (h4 : full = false) :
    s.issue c w e o mal gated bad full eff = eff (s.advance c) := by
  simp [State.issue, fetchFor_of_atCmd h, h, h1, h2, h3, h4]

theorem issueSq_ok {s : State} {c : Nat} {w : Cmd} {o : Nat} {mal gated bad : Bool} (eff : State → State)
    (h : s.sqTakes c w o) (h1 : mal = false) (h2 : gated = false) (h3 : bad = false) : s.issueSq c w o mal gated bad eff = eff s := by
  obtain ⟨a, b, d⟩ := h
  simp [State.issueSq, fetchFor_of_atCmd a, a, b, d, h1, h2, h3]

/-! Flags. -/

@[simp] theorem core_setFlagReg (s : State) (u : FlagUnit) (r : FlagReg) (d : Nat) :
    (s.setFlagReg u r).core d = match u with
      | .mxe c => if d = c then { s.core d with mxe := { (s.core d).mxe with flags := r } } else s.core d
      | .vxe c => if d = c then { s.core d with vxe := { (s.core d).vxe with flags := r } } else s.core d
      | .sfu c => if d = c then { s.core d with sfu := { (s.core d).sfu with flags := r } } else s.core d
      | .hub _ => s.core d := by
  cases u <;> simp only [State.setFlagReg, core_updCore]
  · split
    · rename_i h; rw [h]
    · rfl
  · split
    · rename_i h; rw [h]
    · rfl
  · split
    · rename_i h; rw [h]
    · rfl
  · rfl

theorem core_flagCycle (s : State) (u : FlagUnit) (clr set : BitVec 4) :
    ∃ r : FlagReg, r.v = ((s.flagReg u).v &&& ~~~clr) ||| set ∧ ∀ d, (s.flagCycle u clr set).core d = (s.setFlagReg u r).core d := by
  unfold State.flagCycle
  refine ⟨{ (s.flagReg u) with
    v := ((s.flagReg u).v &&& ~~~clr) ||| set, posted := (!(s.flagReg u).posted || decide (clr ≠ 0)) &&
      decide ((((s.flagReg u).v &&& ~~~clr) ||| set) &&& ~~~(s.flagReg u).v &&& s.flagMask ≠ 0) || !(!(s.flagReg u).posted || decide (clr ≠ 0)) }, rfl, ?_⟩
  intro d
  simp only []
  split <;> simp

/-- A raise leaves every register of the core but one NUMFLAGS register, whose bits only rise (R47, R48). -/
theorem core_raiseFlags (s : State) (u : FlagUnit) (set : BitVec 4) :
    ∃ r : FlagReg, r.v = (s.flagReg u).v ||| set ∧ ∀ d, (s.raiseFlags u set).core d = (s.setFlagReg u r).core d := by
  unfold State.raiseFlags
  split
  · rename_i h
    refine ⟨s.flagReg u, by simp [h], fun d => ?_⟩
    cases u <;> simp only [core_setFlagReg, State.flagReg]
    · split
      · rename_i h'; rw [h']
      · rfl
    · split
      · rename_i h'; rw [h']
      · rfl
    · split
      · rename_i h'; rw [h']
      · rfl
  · obtain ⟨r, h1, h2⟩ := core_flagCycle s u 0 set
    have h3 : ∀ x : BitVec 4, x &&& 15#4 = x := by decide
    exact ⟨r, by simpa [h3] using h1, h2⟩

theorem onlyCore_flagCycle (s : State) (u : FlagUnit) (c : Nat) (clr set : BitVec 4)
    (h : (∃ i : Fin 136, i.val = c ∧ (u = .mxe i ∨ u = .vxe i ∨ u = .sfu i))) : OnlyCore s (s.flagCycle u clr set) c := by
  obtain ⟨i, hi, hu⟩ := h
  have hs : ∀ r, OnlyCore s (s.setFlagReg u r) c := by
    intro r
    rcases hu with rfl | rfl | rfl <;> simp only [State.setFlagReg, hi] <;> exact onlyCore_upd s c _
  unfold State.flagCycle
  simp only []
  split
  · exact (hs _).then (onlyCore_post _ c _ _ _ _)
  · exact hs _

theorem onlyCore_raiseFlags (s : State) (u : FlagUnit) (c : Nat) (set : BitVec 4)
    (h : (∃ i : Fin 136, i.val = c ∧ (u = .mxe i ∨ u = .vxe i ∨ u = .sfu i))) : OnlyCore s (s.raiseFlags u set) c := by
  unfold State.raiseFlags
  split
  · exact OnlyCore.rfl' s c
  · exact onlyCore_flagCycle s u c 0 set h

/-! The matrix engine. -/

@[simp] theorem core_updMxe (s : State) (c d : Nat) (f : MxeSt → MxeSt) :
    (s.updMxe c f).core d = if d = c then { s.core c with mxe := f (s.core c).mxe } else s.core d := by
  simp [State.updMxe]

theorem onlyCore_updMxe (s : State) (c : Nat) (f : MxeSt → MxeSt) : OnlyCore s (s.updMxe c f) c := onlyCore_upd s c _

theorem arrRun_nil (n : Nat) (s : State) (c : Nat) (h : (s.core c).mxe.arrQ = []) : State.arrRun n s c = s := by
  cases n <;> simp [State.arrRun, h]

theorem pump_nil (n : Nat) (s : State) (c : Nat) (h : (s.core c).mxe.drains = []) : State.pump n s c = s := by
  cases n <;> simp [State.pump, h]

/-- A matrix engine with no work stays as it is. -/
theorem mxeRun_nil (s : State) (c : Nat) (h : (s.core c).mxe.arrQ = []) (h' : (s.core c).mxe.drains = []) : s.mxeRun c = s := by
  unfold State.mxeRun
  split
  · rfl
  · rw [arrRun_nil 40 s c h, pump_nil 128 s c h']

theorem arrRun_mac (n : Nat) (s : State) (c m i kg l a b x y : Nat) (q : List (Nat × ArrItem)) (h : (s.core c).mxe.arrQ = (m, .mac i kg l a b x y) :: q) :
    State.arrRun n s c = s := by
  cases n <;> simp [State.arrRun, h]

theorem mxeRun_mac (s : State) (c m i kg l a b x y : Nat) (q : List (Nat × ArrItem)) (h : (s.core c).mxe.arrQ = (m, .mac i kg l a b x y) :: q)
    (h' : (s.core c).mxe.drains = []) : s.mxeRun c = s := by
  unfold State.mxeRun
  split
  · rfl
  · rw [arrRun_mac 40 s c m i kg l a b x y q h, pump_nil 128 s c h']

/-! The vector engine. -/

@[simp] theorem core_updVxe (s : State) (c d : Nat) (f : VxeSt → VxeSt) :
    (s.updVxe c f).core d = if d = c then { s.core c with vxe := f (s.core c).vxe } else s.core d := by
  simp [State.updVxe]

theorem onlyCore_updVxe (s : State) (c : Nat) (f : VxeSt → VxeSt) : OnlyCore s (s.updVxe c f) c := onlyCore_upd s c _

theorem vxRun_nil (n : Nat) (s : State) (c : Nat) (h : (s.core c).vxe.pipes = []) (h' : (s.core c).vxe.q = []) : State.vxRun n s c = s := by
  cases n with
  | zero => rfl
  | succ n =>
    simp only [State.vxRun, h, h', vxReady]
    split <;> rfl

/-! Scratchpads. -/

@[simp] theorem core_spadWrite (s : State) (c d a : Nat) (bs : List Byte) :
    (s.spadWrite c a bs).core d = if d = c then { s.core c with spad := (s.core c).spad.sets 0 a bs } else s.core d := by
  simp [State.spadWrite]

theorem onlyCore_spadWrite (s : State) (c a : Nat) (bs : List Byte) : OnlyCore s (s.spadWrite c a bs) c := onlyCore_upd s c _

end Sys2Proof.Machine
end

