-- ==== Sys2Proof/Laws/Requests.lean ====
section
/-! SUPPORT. What a write request does once its object is reached: refused for its value, refused for the state, or taken. -/

namespace Sys2Proof.Machine

/-- The requests of a module whose object dictionary does not answer go by. -/
theorem request_silent {s : State} (h : s.odAnswers = false) (q : OdReq) (idx sub : Nat) (b : List Byte) (act : State → Act) :
    s.request q idx sub b act = s := by
  simp [State.request, h]

/-- A module whose object dictionary answers runs the request and tells the requester its status. -/
theorem request_answer {s : State} {q : OdReq} {idx sub : Nat} {b : List Byte} {act : State → Act} (h : s.odAnswers = true) :
    s.request q idx sub b act = (s.odRequest q idx sub b act).1.answer q (s.odRequest q idx sub b act).2 := by
  unfold State.request State.answer
  rw [h]
  cases q.cpu <;> rfl

/-- Every outcome of an admitted request that fits its object's type (R412): INVALID, STATE, or its effect, on the state that the action
log has taken it down in (R376). -/
theorem request_cases {s : State} {q : OdReq} {idx sub : Nat} {b : List Byte} {o : Obj} (act : State → Act) (h : s.admits q idx b)
    (hi : objectsAt idx ≠ []) (hb : banked idx = false) (ho : objOf idx sub = some o) (hr : o.acc ≠ .ro) (hf : o.ty.fits b.length = true) :
    s.request q idx sub b act =
      (let s0 := s.noteAct o.acc idx sub 0
       let a := act s0
       if a.inv then ((a.rej.getD s0).noteAct o.acc idx sub 3).answer q 3
       else if a.bad then ((a.rej.getD s0).noteAct o.acc idx sub 2).answer q 2
       else if loggedObj idx (decide (o.acc = .act)) then (act (s0.appendLog idx sub b)).eff.answer q 0
       else a.eff.answer q 0) := by
  obtain ⟨h1, h2, h3⟩ := h
  have e : s.odRequest q idx sub b act = s.odApply o idx sub b act := by simp [State.odRequest, hi, hb, ho, h2, hr, hf]
  rw [request_answer h1, e]
  simp only [State.odApply, h3, Bool.not_true, Bool.or_false]
  split
  · rfl
  · split
    · rfl
    · split <;> rfl

/-- An accepted action: its effect, on the state that has taken it. -/
theorem request_taken {s : State} {q : OdReq} {idx sub : Nat} {b : List Byte} {o : Obj} (act : State → Act) (h : s.admits q idx b)
    (hi : objectsAt idx ≠ []) (hb : banked idx = false) (ho : objOf idx sub = some o) (ha : o.acc = .act) (hf : o.ty.fits b.length = true)
    (hn : (act (s.noteAct .act idx sub 0)).inv = false) (hs : (act (s.noteAct .act idx sub 0)).bad = false) :
    s.request q idx sub b act = (act (s.taken idx sub b)).eff.answer q 0 := by
  rw [request_cases act h hi hb ho (by simp [ha]) hf]
  simp only [ha, hn, hs, State.taken, decide_true, Bool.false_eq_true, if_false]
  cases loggedObj idx true <;> rfl

end Sys2Proof.Machine
end

