-- ==== Sys2Proof/Tests/Slice0.lean ====
section
/-! SUPPORT. The model's own tests: an ill-formed term for each check of WellFormed, states that meet the hypotheses of every statement, and
the effect of single commands on small states. -/

namespace Sys2Proof.Tests

open Machine

set_option Elab.async false

/-! States for the witnesses. -/

/-- A module that runs an image whose only core, core 0, stands at the command `w`. -/
def at_ (w : Cmd) (k : CoreSt) : State :=
  { sched := { st := 3, secs := [{ typ := 1, core := 0, sub := 0, off := 0, len := 64 }] }, clock := { locked := true },
    boot := { phase := .on }, life := 4, mem := { hbm := SMap.sets 0 [] 0 (cmdBytes w) },
    cores := [(0, { k with clken := 31, seq := { k.seq with st := 1, len := 64, buf := cmdBytes w } })] }

/-- The same module when the command of operation code `w` has begun and waits. -/
def held (w : Cmd) (k : CoreSt) : State := at_ w k |>.updCore 0 (fun k => { k with seq := { k.seq with st := 2, cmd := some w } })

/-- A module in READY. -/
def ready : State := { life := 2, clock := { locked := true }, boot := { phase := .on }, hubs := [(0, { clken := 0xFF, cpuEn := 0xFF }), (1, { clken := 0x1F })] }

/-- A request of an owner by the management port. -/
def owner : OdReq := { role := .owner, cpu := none }

/-- A packet with nothing in it but its type, from module 1 to module 0. -/
def pk0 (typ : Nat) : Packet :=
  { ver := 3, ptype := typ, fm := false, e2e := false, epchk := false, rsvd := 0, slice := 0, epoch := 0, dstdev := 0, srcdev := 1, stream := 0,
    addr := 0, tag := 0, txn := 0, arg := 0, payload := [], e2eTag := [], code := pktCode typ }

/-- A module in READY whose first region and cores are clocked. -/
def clocked : State := { ready with mem := { regions := [(0, { clken := 3 })] }, cores := [(0, { clken := 31 })] }

/-! The matrix engine: MX.OPEN, MX.MAC, MX.MERGE and MX.CLOSE of slot 0, BF16 by BF16. -/

def wOpen : Cmd := ⟨0x11055000, 0, 0, 0⟩
def wMac : Cmd := ⟨0x12000100, 0, 0, 0⟩
def wMerge : Cmd := ⟨0x14000000, 0, 0, 0⟩
def wClose : Cmd := ⟨0x13070000, 0, 0, 0⟩
def opened : CoreSt := { mxe := { slots := [(0, { st := 1, afmt := 5, bfmt := 5 })] } }
def drain0 : Drain := { slot := 0, w := wClose, num := 0, row := 0 }

/-- A command on a state also meets the hypotheses of the statement's clause for an engine that has work. -/
theorem witness_MxPasses :
    (at_ wOpen {}).mxPasses 0 wOpen 1 (mxOpenMal ((at_ wOpen {}).core 0).mxe.cfg wOpen) ∧
    (at_ wMac opened).mxPasses 0 wMac 2 (mxMacMal 0 (some (opened.mxe.slot 0)) wMac) ∧
    (at_ wMerge opened).mxPasses 0 wMerge 4 (mxMergeMal 0 wMerge) ∧
    (at_ wClose opened).mxPasses 0 wClose 3 (mxCloseMal 0 (some (opened.mxe.slot 0)) wClose) ∧
    mxeFull ((held wOpen {}).core 0).mxe = false ∧ (held wOpen {}).clkOn 0 1 = true ∧ quiet [] := by
  unfold State.mxPasses quiet; decide +kernel

theorem witness_MxOpenBindsASlot :
    ((at_ wOpen {}).mxTakes 0 wOpen 1 (mxOpenMal ((at_ wOpen {}).core 0).mxe.cfg wOpen) ∧
      (((at_ wOpen {}).core 0).mxe.slot (mxSlot wOpen)).st = 0) ∧
    (let s := at_ wOpen { mxe := { slots := [(0, { st := 2 })] } };
      s.atCmd 0 wOpen 1 1 = true ∧ mxOpenMal (s.core 0).mxe.cfg wOpen = false ∧ s.clkOn 0 1 = true ∧ ((s.core 0).mxe.slot (mxSlot wOpen)).st = 2) ∧
    (let s := held wOpen {};
      (s.core 0).seq.cmd = some wOpen ∧ (s.core 0).seq.st = 2 ∧ cmdEng wOpen = 1 ∧ ((s.core 0).mxe.slot (mxSlot wOpen)).st = 0 ∧ s.mxeFree 0) := by
  unfold State.mxTakes State.mxeFree; decide +kernel

theorem witness_MxMacAccumulatesItsGroups :
    (let s := at_ wMac opened;
      ((s.core 0).mxe.slot (mxSlot wMac)).st = 1 ∧
      s.mxTakes 0 wMac 2 (mxMacMal (s.core 0).mxe.cfg (some ((s.core 0).mxe.slot (mxSlot wMac))) wMac)) ∧
    (let s := at_ wMac { mxe := { opened.mxe with arrQ := [(0, .mac 0 1 1 0 0 0 0)] } };
      (s.core 0).mxe.arrQ = [(0, .mac 0 1 1 0 0 0 0)] ∧ (s.core 0).mxe.drains = [] ∧ (s.core 0).mxePaused = false ∧ s.clkOn 0 1 = true ∧
        arrHeld (s.core 0).mxe 0 (.mac 0 1 1 0 0 0 0) = false) := by
  unfold State.mxTakes State.mxeFree; decide +kernel

theorem witness_MxMergeAndClose :
    (let s := at_ wMerge opened;
      ((s.core 0).mxe.slot (mxSlot wMerge)).st = 1 ∧ s.mxTakes 0 wMerge 4 (mxMergeMal (s.core 0).mxe.cfg wMerge)) ∧
    (let s := at_ wClose opened;
      ((s.core 0).mxe.slot (mxSlot wClose)).st = 1 ∧
      s.mxTakes 0 wClose 3 (mxCloseMal (s.core 0).mxe.cfg (some ((s.core 0).mxe.slot (mxSlot wClose))) wClose) ∧
      cfgRoute (s.core 0).mxe.cfg = false) ∧
    (let s := at_ wClose { mxe := { opened.mxe with drains := [drain0] } };
      (s.core 0).mxe.arrQ = [] ∧ (s.core 0).mxe.drains = [drain0] ∧ s.clkOn 0 1 = true ∧ (s.core 0).mxePaused = false ∧ cfgRoute (s.core 0).mxe.cfg = false) ∧
    (let d := { drain0 with row := 127 };
      let s := at_ wClose { mxe := { opened.mxe with drains := [d], cfg := 1 } };
      (s.core 0).mxe.arrQ = [] ∧ (s.core 0).mxe.drains = [d] ∧ s.clkOn 0 1 = true ∧ (s.core 0).mxePaused = false ∧ cfgRoute (s.core 0).mxe.cfg = true ∧
      d.row + 1 = (s.core 0).mxe.rows d.slot ∧ (s.core 0).mxe.hq.length < 64) ∧
    (let s := at_ wClose { mxe := { opened.mxe with drains := [drain0], cfg := 1, hq := List.replicate 63 [] } };
      (s.core 0).mxe.arrQ = [] ∧ (s.core 0).mxe.drains = [drain0] ∧ (s.core 0).mxePaused = false ∧ cfgRoute (s.core 0).mxe.cfg = true ∧
      drain0.row + 1 < (s.core 0).mxe.rows drain0.slot ∧ (s.core 0).mxe.hq.length = 63) := by
  unfold State.mxTakes State.mxeFree; decide +kernel

/-! The vector engine: VL 4, RLEN 2. -/

/-- The word of an instruction with VD 4, VA 0 and VB `vb`. -/
def vx (op vb : Nat) (w1 w2 w3 : Word) : Cmd := ⟨BitVec.ofNat 32 (2 * 2 ^ 28 + op * 2 ^ 22 + (if op = 1 ∨ op = 3 ∨ op = 4 then 0 else 4 * 2 ^ 17) + vb * 2 ^ 7), w1, w2, w3⟩
def lanes : CoreSt := { vxe := { vl := 4, rlen := 2 } }
def lanes32 : CoreSt := { vxe := { vl := 32, rlen := 32 } }
def wAdd : Cmd := vx 0x08 0 0x70000000 0 0
def wPop : Cmd := vx 0x05 8 0x70000000 0x100 0

theorem witness_VxLengthsLoadsAndStores :
    (let w := vx 0x01 0 0 0 0x00400200;
      let s := at_ w {};
      s.atCmd 0 w 2 0x01 = true ∧ vxMal w (s.core 0).vxe.vl (s.core 0).vxe.rlen = false ∧ s.clkOn 0 2 = true ∧ (s.core 0).vxe.q.length < 32) ∧
    ((Instr.vxAdd 0 wAdd, 0x08) ∈ [(Instr.vxAdd 0 wAdd, 0x08)] ∧ (at_ wAdd {}).vxPasses 0 wAdd 0x08 ∧ (at_ wAdd {}).vxTakes 0 wAdd 0x08 ∧ ((at_ wAdd {}).core 0).vxe.vl = 0) ∧
    (let w := vx 0x02 0 0x70000000 0 0; (at_ w lanes).vxTakes 0 w 0x02 ∧ ((at_ w lanes).core 0).vxe.vl ≠ 0) ∧
    (let w := vx 0x03 0 0x70000000 0 0; (at_ w lanes).vxTakes 0 w 0x03 ∧ ((at_ w lanes).core 0).vxe.vl ≠ 0) ∧
    (let w := vx 0x04 0 0x70000000 0 0; (at_ w lanes).vxTakes 0 w 0x04 ∧ ((at_ w lanes).core 0).vxe.vl ≠ 0) := by
  unfold State.vxPasses State.vxTakes State.vxeFree; decide +kernel

theorem witness_VxHqpopTakesEntries :
    (let s := at_ wPop { lanes with mxe := { cfg := 1, hq := [List.replicate 400 1] } };
      s.vxPasses 0 wPop 0x05 ∧ s.vxTakes 0 wPop 0x05 ∧ vxCount wPop ≤ (s.core 0).mxe.hq.length) ∧
    (let i : VxItem := { w := wPop, strict := false, vl := 4, rlen := 2 };
      let s := at_ wPop { vxe := { pipes := [i] }, mxe := { hq := [[1]] } };
      (s.core 0).vxe.pipes = [i] ∧ (s.core 0).vxe.q = [] ∧ cmdOp i.w = 0x05 ∧ vxCount i.w = (s.core 0).vxe.popped + 1 ∧ (s.core 0).mxe.hq = [[1]] ∧
        (s.core 0).vxePaused = false ∧ s.clkOn 0 2 = true) := by
  unfold State.vxPasses State.vxTakes State.vxeFree; decide +kernel

theorem witness_VxElementwise :
    (((at_ wAdd lanes).core 0).vxe.vl ≠ 0 ∧ (at_ wAdd lanes).vxTakes 0 wAdd 0x08) ∧
    (let w := vx 0x0D 0 0x70000000 0 0; ((at_ w lanes).core 0).vxe.vl ≠ 0 ∧ (at_ w lanes).vxTakes 0 w 0x0D) := by
  unfold State.vxTakes State.vxeFree; decide +kernel

theorem witness_VxConvertAndQuantise :
    (let w := vx 0x10 0 0x75000000 0 0; ((at_ w lanes).core 0).vxe.vl ≠ 0 ∧ (at_ w lanes).vxTakes 0 w 0x10) ∧
    (let w := vx 0x11 8 0x71000400 0 0; ((at_ w lanes32).core 0).vxe.vl ≠ 0 ∧ (at_ w lanes32).vxTakes 0 w 0x11) ∧
    (let w := vx 0x12 8 0x17000400 0 0; ((at_ w lanes32).core 0).vxe.vl ≠ 0 ∧ (at_ w lanes32).vxTakes 0 w 0x12) := by
  unfold State.vxTakes State.vxeFree; decide +kernel

theorem witness_VxRowStatistics :
    (let w := vx 0x14 0 0x70000000 0 0; ((at_ w lanes).core 0).vxe.vl ≠ 0 ∧ (at_ w lanes).vxTakes 0 w 0x14) ∧
    (let w := vx 0x15 0 0x70000000 0 0; ((at_ w lanes).core 0).vxe.vl ≠ 0 ∧ (at_ w lanes).vxTakes 0 w 0x15) ∧
    (let w := vx 0x20 0 0x70000000 0 0; ((at_ w lanes).core 0).vxe.vl ≠ 0 ∧ (at_ w lanes).vxTakes 0 w 0x20) ∧
    (let w := vx 0x21 0 0x70000000 0 0; ((at_ w lanes).core 0).vxe.vl ≠ 0 ∧ (at_ w lanes).vxTakes 0 w 0x21) ∧
    (let w := vx 0x22 0 0x70000000 0 0; ((at_ w lanes).core 0).vxe.vl ≠ 0 ∧ (at_ w lanes).vxTakes 0 w 0x22) ∧
    (let w := vx 0x23 0 0x70000000 0 0; ((at_ w lanes).core 0).vxe.vl ≠ 0 ∧ (at_ w lanes).vxTakes 0 w 0x23) := by
  unfold State.vxTakes State.vxeFree; decide +kernel

theorem witness_VxFunction :
    let w := vx 0x18 0 0x77002000 0 0; ((at_ w lanes).core 0).vxe.vl ≠ 0 ∧ (at_ w lanes).vxTakes 0 w 0x18 := by
  unfold State.vxTakes State.vxeFree; decide +kernel


/-! The sequencer. -/

theorem witness_SqCommandsThatWait :
    (let w : Cmd := ⟨0x41000000, 7, 9, 0⟩;
      let s := at_ w {};
      s.sqTakes 0 w 1 ∧ (idleMask (s.core 0) 7 && modeClash (s.core 0).mxe (bit w.w0 23)) = false) ∧
    (let w : Cmd := ⟨0x42100000, 0, 0, 0⟩;
      let s := at_ w { mxe := { arrQ := [(0, .load 0 0 [])] } };
      s.sqTakes 0 w 2 ∧ idleMask (s.core 0) (sqEmask w) = false) ∧
    (let w : Cmd := ⟨0x44700000, 0x40, 0, 1⟩; (at_ w {}).sqTakes 0 w 4) ∧
    (let w : Cmd := ⟨0x46080000, 0, 0, 0⟩;
      let s := at_ w {};
      s.sqTakes 0 w 6 ∧ s.engGated 0 (sqEngsel w) = false ∧ s.clkOn 0 4 = true) ∧
    (let w : Cmd := ⟨0x4708000F, 0, 0, 0⟩;
      let s := at_ w {};
      s.sqTakes 0 w 7 ∧ s.engGated 0 (sqEngsel w) = false) ∧
    (let w : Cmd := ⟨0x4A000000, 0, 0, 0⟩; (at_ w {}).sqTakes 0 w 10) := by
  unfold State.sqTakes; decide +kernel

theorem witness_SegmentBoundaryBegins :
    let w : Cmd := ⟨0x41000000, 7, 9, 0⟩;
    let s := held w {};
    s.begun 0 1 = some w ∧ idleMask (s.core 0) 7 = true ∧ modeClash (s.core 0).mxe (bit w.w0 23) = false ∧ (s.core 0).seq.seg = none := by
  decide +kernel

def wWaitg : Cmd := ⟨0x43800000, 0x1000, 0, 1⟩

theorem witness_WaitsGoOnWhenMet :
    (let w : Cmd := ⟨0x42100000, 0, 0, 0⟩;
      ((at_ w {}).sqTakes 0 w 2 ∧ idleMask ((at_ w {}).core 0) (sqEmask w) = true) ∧
      (held w {}).begun 0 2 = some w ∧ idleMask ((held w {}).core 0) (sqEmask w) = true) ∧
    (let s := at_ wWaitg {};
      s.sliceWaits deviceStream (sqGoff wWaitg) = false ∧ (s.devRead (sqGoff wWaitg) 8).2 = some (List.replicate 8 0) ∧ s.sched.st = 3 ∧ s.sqTakes 0 wWaitg 3 ∧
        ofLe (List.replicate 8 0) < sqTarget wWaitg) := by
  unfold State.sqTakes; decide +kernel

def gate5 (s : State) : State := (s.devWrite (sqGoff wWaitg) (leBytes 8 5))

theorem witness_WaitsGoOnWhenMet_gate :
    ((gate5 (at_ wWaitg {})).devRead (sqGoff wWaitg) 8).2 = some (leBytes 8 5) ∧ (gate5 (at_ wWaitg {})).sched.st = 3 ∧
    (gate5 (at_ wWaitg {})).sqTakes 0 wWaitg 3 ∧ sqTarget wWaitg ≤ ofLe (leBytes 8 5) ∧
    ((gate5 (held wWaitg {})).devRead (sqGoff wWaitg) 8).2 = some (leBytes 8 5) ∧ (gate5 (held wWaitg {})).begun 0 3 = some wWaitg ∧
    (gate5 (held wWaitg {})).sliceWaits deviceStream (sqGoff wWaitg) = false := by
  unfold State.sqTakes; decide +kernel

/-- The gate's band changes its mode; its sector is poisoned. -/
def changing (s : State) : State := { s with mem := { s.mem with bandChg := [(bandOf (sqGoff wWaitg), true)] } }
def poisoned (s : State) : State :=
  let r := s.resolve (sqGoff wWaitg)
  s.updRegion r.1 (fun g => { g with poison := [r.2 / 64 * 64] })

theorem witness_WaitsGoOnWhenMet_stops :
    ((changing (at_ wWaitg {})).sliceWaits deviceStream (sqGoff wWaitg) = true ∧ (changing (at_ wWaitg {})).sqTakes 0 wWaitg 3 ∧
      (changing (held wWaitg {})).begun 0 3 = some wWaitg ∧ (changing (at_ wWaitg {})).sched.st = 3) ∧
    ((poisoned (at_ wWaitg {})).sliceWaits deviceStream (sqGoff wWaitg) = false ∧ (poisoned (at_ wWaitg {})).sqTakes 0 wWaitg 3 ∧
      ((poisoned (at_ wWaitg {})).devRead (sqGoff wWaitg) 8).2 = none ∧ (poisoned (held wWaitg {})).begun 0 3 = some wWaitg) := by
  unfold State.sqTakes; decide +kernel

theorem witness_BarriersCountAndRelease :
    (let w : Cmd := ⟨0x45000002, 0, 0, 0⟩;
      let s := { at_ w {} with bars := [(2, { mask := [0, 1] })] };
      s.sqTakes 0 w 5 ∧ (s.bar (sqBarid w)).mask.contains 0 = true) ∧
    (let s : State := { bars := [(2, { mask := [0, 1], inflight := [0] })] };
      (s.bar 2).inflight = [0] ∧ (s.hub (s.barHub 2)).fenced = false ∧ s.clock.lost = false ∧
        (s.bar 2).arrived + 1 ≠ (s.bar 2).mask.length) ∧
    (let s : State := { bars := [(2, { mask := [0, 1], inflight := [0], arrived := 1, waiting := [1] })] };
      (s.bar 2).inflight = [0] ∧ (s.bar 2).arrived + 1 = (s.bar 2).mask.length) := by
  unfold State.sqTakes; decide +kernel

theorem witness_FlagsAreReadAndCleared :
    (let w : Cmd := ⟨0x46080000, 0, 0, 0⟩;
      (held w {}).begun 0 6 = some w ∧ engSelIdle ((held w {}).core 0) (sqEngsel w) = true) ∧
    (let w : Cmd := ⟨0x4708000F, 0, 0, 0⟩;
      (held w {}).begun 0 7 = some w ∧ engSelIdle ((held w {}).core 0) (sqEngsel w) = true) ∧
    (ready.busUp = true ∧ { ready with cores := [(0, { clken := 31 })] }.flagClocked (.mxe 0) = true ∧
      { ready with cores := [(0, { clken := 31 })] }.busUp = true) ∧
    (let v : Word := 0xFFF8000F;
      ready.admits owner 0x0701 (leBytes 4 v.toNat) ∧ fld v 31 29 ≠ 6 ∧ (fld v 28 23 ≤ 33 ∨ fld v 28 23 = 0x3F) ∧ fld v 18 4 = 0 ∧
        clearUnits v ≠ []) := by
  unfold State.admits; decide +kernel

theorem witness_LoopsRepeatTheirBody :
    (let w : Cmd := ⟨0x48000000, 3, 0, 0⟩; (at_ w {}).sqTakes 0 w 8) ∧
    (let w : Cmd := ⟨0x49000000, 0, 0, 0⟩;
      let s := at_ w { seq := { loops := [⟨16, 3, 0⟩] } };
      s.sqTakes 0 w 9 ∧ (s.core 0).seq.loops = [⟨16, 3, 0⟩]) := by
  unfold State.sqTakes; decide +kernel

theorem witness_EndsOfAnImage :
    (let w : Cmd := ⟨0x4A000000, 0, 0, 0⟩;
      (held w {}).begun 0 10 = some w ∧ idleMask ((held w {}).core 0) 7 = true ∧ (held w {}).sched.st = 3 ∧
        (∀ d ∈ (held w {}).imageCores, d ≠ 0 → ((held w {}).core d).seq.st = 3)) ∧
    (let w : Cmd := ⟨0x42100000, 0, 0, 0⟩;
      let s := { held w {} with tsc := 40000000 };
      s.sched.st = 3 ∧ s.clock.lost = false ∧ (s.core 0).seq.st = 2 ∧ (s.core 0).seq.stallPosted = false ∧
        s.sched.stallLimit * 400 ≤ s.tsc - (s.core 0).seq.lastIssue) ∧
    (let s : State := { sched := { st := 3, faulting := true } };
      s.sched.st = 3 ∧ s.sched.faulting = true ∧ s.clock.lost = false ∧ s.faultHalt.haltDone = true ∧ s.sched.halted = false) := by
  decide +kernel

theorem witness_SignalsAddToGates :
    (let w : Cmd := ⟨0x44700000, 0x40, 0, 1⟩;
      (held w {}).begun 0 4 = some w ∧ idleMask ((held w {}).core 0) (sqEmask w) = true ∧ ((held w {}).core 0).ste.sigBusy < 16 ∧
        ((held w {}).core 0).ste.sigWait = []) ∧
    (let w : Cmd := ⟨0x44700000, 0x40, 0x40000100, 1⟩;
      let s := held w { ste := { sigBusy := 16 } };
      s.begun 0 4 = some w ∧ idleMask (s.core 0) (sqEmask w) = true ∧ 16 ≤ (s.core 0).ste.sigBusy) := by
  decide +kernel

theorem witness_FailedChecksFault :
    let w : Cmd := ⟨0x4A000001, 0, 0, 0⟩; (at_ w {}).atCmd 0 w 4 10 = true ∧ (sqMal w 0 || false || false) = true ∧ (at_ w {}).sched.halted = false := by
  decide +kernel

/-! The stream engine. -/

/-- A contiguous read of one sector of HBM into scratchpad 0; a landing from direction 1 with tag 7; a gather from HBM. -/
def dCopy : List Word := [0x03100000, 1, 0x10000, 1, 1, 0, 0, 0x2000, 0, 0, 0xE0, 0, 0, 0, 0, 0]
def dLand : List Word := [0x03500000, 1, 0x10000, 0, 0, 0, 0, 0, 0, 0x2000, 0, 0x00070001, 0, 0, 0, 0]
def dGather : List Word := [0x03200400, 1, 0x10000, 1, 1, 0, 0, 0x2000, 0, 0, 0xE0, 0x3000, 0, 0, 0, 4]
def bytesOf (d : List Word) : List Byte := d.flatMap (fun w => leBytes 4 w.toNat)

/-- A running image whose core 0 has one descriptor, at offset 0x1000. -/
def withDesc (w : Cmd) (d : List Word) (k : CoreSt) : State :=
  let s := at_ w k
  { s with
    sched := { s.sched with secs := s.sched.secs ++ [{ typ := 6, core := 0, sub := 0, off := 0x1000, len := 64 }] },
    mem := { s.mem with hbm := s.mem.hbm.sets 0 0x20000000000 (bytesOf d) } }

def wIssue : Cmd := ⟨0x31000000, 0, 0, 0⟩
def busy (d : List Word) : Strm := { busy := true, desc := d }
def streaming (t : Strm) : State := withDesc wIssue dCopy { ste := { slots := [(0, t)] } }

theorem witness_StIssueJoinsItsQueue :
    (let s := withDesc wIssue dCopy {};
      s.atCmd 0 wIssue 3 1 = true ∧ s.clkOn 0 3 = true ∧ s.stIssueMal s.sched.secs s.sched.imgOff 0 wIssue = false ∧
      s.descAt s.sched.secs s.sched.imgOff 0 (stDesc wIssue) = some dCopy ∧ s.descBad s.sched.secs s.sched.imgOff dCopy [] = false ∧
      (s.core 0).ste.q.length < 64) ∧
    64 ≤ ((withDesc wIssue dCopy { ste := { q := List.replicate 64 ⟨wIssue, []⟩ } }).core 0).ste.q.length := by
  decide +kernel

theorem witness_StreamTakesTheLowestSlot :
    (let s := withDesc wIssue dCopy { ste := { q := [⟨wIssue, []⟩] } };
      (s.core 0).ste.q = [⟨wIssue, []⟩] ∧ (s.strm 0 0).busy = false ∧ s.sched.st = 3 ∧ s.sched.faulting = false ∧ s.clkOn 0 3 = true ∧
      descOff s.sched.secs s.sched.imgOff 0 (stDesc wIssue) = some 0x1000 ∧ (s.memRead (streamNo 0 0) 0x1000 64 0 noErr).2 = some (bytesOf dCopy) ∧
      s.descFault 0 (wordsLe 16 (bytesOf dCopy)) [] = none ∧ dType (wordsLe 16 (bytesOf dCopy)) ≠ 5) ∧
    (let s := withDesc wIssue dLand { ste := { q := [⟨wIssue, []⟩] } };
      let d := wordsLe 16 (bytesOf dLand);
      (s.memRead (streamNo 0 0) 0x1000 64 0 noErr).2 = some (bytesOf dLand) ∧ s.descFault 0 d [] = none ∧ dType d = 5 ∧ s.landingFor (dIndir d) (dTag d) = none ∧
      (s.landings.filter (fun l => l.indir = dIndir d)).length < 16) ∧
    (let s := withDesc wIssue (0x00100000 :: dCopy.drop 1) { ste := { q := [⟨wIssue, []⟩] } };
      (s.memRead (streamNo 0 0) 0x1000 64 0 noErr).2.isSome = true ∧
      s.descFault 0 (wordsLe 16 (bytesOf (0x00100000 :: dCopy.drop 1))) [] = some 1) ∧
    (let s := withDesc wIssue dCopy { ste := { q := [⟨wIssue, []⟩] } };
      let r := s.resolve 0x1000;
      let u := s.updRegion r.1 (fun g => { g with poison := [r.2 / 64 * 64] });
      (u.memRead (streamNo 0 0) 0x1000 64 0 noErr).2 = none ∧ (u.core 0).ste.q = [⟨wIssue, []⟩]) := by
  decide +kernel

theorem witness_SteGrantSendsARequest :
    (let s := streaming (busy dCopy);
      s.sched.st = 3 ∧ s.sched.faulting = false ∧ s.clkOn 0 3 = true ∧
      (s.core 0).ste.slots.all (fun x => decide (strmNext x.2 ≠ .badIndex)) = true ∧ SMap.wf {} (s.core 0).ste.slots = true ∧
      (s.strm 0 0).busy = true ∧ chooseSlot (s.core 0) s.tsc = some 0 ∧ strmNext (s.strm 0 0) = .unit 0 0x2000 0xE000000000 ∧
      s.gaLocal 0x2000 = true ∧ placeOf (gaOff 0x2000) = .hbm 0x2000) ∧
    (let s := streaming (busy dGather);
      chooseSlot ((s.indexEnds 0).core 0) s.tsc = some 0 ∧ chooseSlot ((withDesc wIssue dCopy {}).indexEnds 0 |>.core 0) 0 = none ∧
      chooseSlot (s.core 0) s.tsc = some 0 ∧ strmNext (s.strm 0 0) = .index 0xC0 ∧ s.gaLocal (64 * 0xC0) = true ∧
      placeOf (gaOff (64 * 0xC0)) = .hbm 0x3000) := by
  decide +kernel

theorem witness_ResponsesAndRetirement :
    (let r : Resp := { slot := 0, kind := .unit 0 0xE000000000, data := [], status := 0 };
      let s := withDesc wIssue dCopy { ste := { slots := [(0, { busy dCopy with outst := [r.kind] })], resp := [r] } };
      (s.core 0).ste.resp[0]? = some r ∧ (s.strm 0 0).busy = true ∧ (s.strm 0 0).outst.contains r.kind = true ∧ (s.strm 0 0).held = [] ∧ s.clock.lost = false ∧
      dType (s.strm 0 0).desc = 1 ∧ (s.strm 0 0).status = 0 ∧ r.kind = .unit 0 0xE000000000 ∧ (r.data = [] ∨ r.status ≠ 0)) ∧
    (let r : Resp := { slot := 0, kind := .unit 0 0xE000000000, data := [], status := 0 };
      let s := withDesc wIssue dCopy { ste := { slots := [(0, { busy dCopy with outst := [r.kind], status := 1 })], resp := [r] } };
      (s.strm 0 0).busy = true ∧ (s.strm 0 0).outst.contains r.kind = true ∧ (s.strm 0 0).status = 1) ∧
    (let r : Resp := { slot := 3, kind := .index 0, data := [], status := 0 };
      let s := withDesc wIssue dCopy { ste := { resp := [r] } };
      (s.core 0).ste.resp[0]? = some r ∧ (s.strm 0 r.slot).busy = false ∧ s.clock.lost = false) ∧
    (let s := streaming { busy dCopy with g := 1 }; s.strmOver 0 0 = true ∧ (s.strm 0 0).status = 0 ∧ (s.strm 0 0).sig = false) ∧
    (let s := streaming { busy dCopy with g := 1, sig := true }; s.strmOver 0 0 = true ∧ (s.strm 0 0).status = 0 ∧ (s.strm 0 0).sig = true) ∧
    (let s := streaming { busy dCopy with status := 3 }; s.strmOver 0 0 = true ∧ (s.strm 0 0).status ≠ 0) := by
  decide +kernel

theorem witness_SignalsAddToGates_entry :
    let g : GateAdd := { gaddr := 0x4000010000000000, add := 1, epoch := 0 };
    let s := at_ wIssue { ste := { sigWait := [g] } };
    (s.core 0).ste.sigWait = [g] ∧ (s.core 0).ste.sigBusy < 16 ∧ s.clock.lost = false ∧ s.gaLocal g.gaddr = false ∧ s.gaLocal 0x40 = true := by
  decide +kernel

theorem witness_HeldReelPackets :
    (let pk := { pk0 0x30 with tag := 7, payload := List.replicate 64 1 };
      let l : Landing := { core := 0, slot := 0, indir := 1, tag := 7, fwd := false, outdir := 0, dst := 0x2000, len := 64 };
      let s : State := { ready with fab := { ready.fab with reelHeld := [(6, pk, 0)] }, landings := [l] };
      s.fab.reelHeld = [(6, pk, 0)] ∧ s.clock.lost = false ∧ s.landingFor (6 / 6) pk.tag = some l ∧
      pk.epoch % 65536 = s.sched.placeEpoch % 65536 ∧ pk.addr + pk.payload.length ≤ l.len ∧
      ({ pk with epoch := 1 } : Packet).epoch % 65536 ≠ s.sched.placeEpoch % 65536 ∧ s.sched.placeEpoch < 65536) ∧
    (let s : State := { ready with fab := { ready.fab with reelHeld := [(6, pk0 0x30, 0)] }, tsc := 400000 };
      s.fab.reelHeld = [(6, pk0 0x30, 0)] ∧ (6 / 6, (pk0 0x30).tag) ∉ s.fab.reelPosted ∧ s.fab.reelHoldLimit * 400 ≤ s.tsc - 0 ∧ s.clock.lost = false) := by
  decide +kernel

/-! The schedule image. -/

def held1 : State :=
  { ready with sched := { st := 2, nentry := 1, secs := [{ typ := 1, core := 0, sub := 0, off := 0x40, len := 16 }] } }
def running : State := { held1 with sched := { held1.sched with st := 3 }, life := 4 }

/-- A module that loads an image of no section: its header has no magic word, so the load is refused. -/
def loading : State := { ready with sched := { st := 1 } }

theorem witness_LoadsCommitOrRefuse :
    (ready.admits owner 0x0601 (leBytes 8 (0x1000 : BitVec 64).toNat) ∧ ready.sched.st = 0) ∧
    (held1.admits owner 0x0601 (leBytes 8 (0x1000 : BitVec 64).toNat) ∧ schedIdle held1.sched.st = true) ∧
    (loading.sched.st = 1 ∧ loading.clock.lost = false ∧ ∀ c, c < 136 → (loading.core c).sfu.checking = none) ∧
    (let m := loading.imageRead loading.sched.loadOff;
      (m.1.loadCheck loading.sched.loadOff).1 ≠ 0 ∧ (m.1.loadCheck loading.sched.loadOff).1 < 4) := by
  unfold State.admits; decide +kernel

theorem witness_StartsRunTheirEntry :
    held1.admits owner 0x0602 (leBytes 1 (0 : BitVec 8).toNat) ∧ schedIdle held1.sched.st = true ∧ (0 : BitVec 8).toNat < held1.sched.nentry ∧
    held1.sched.secs.filter (fun y => decide (y.typ = 1 ∧ y.sub = 0 ∧ y.core = 0)) = [⟨1, 0, 0, 0x40, 16⟩] ∧
    (∀ x ∈ held1.sched.secs, x.core ≠ 5) := by
  unfold State.admits; decide +kernel

theorem witness_StopsAndEpochs_stop :
    (running.admits owner 0x0603 (leBytes 1 (0 : BitVec 8).toNat) ∧ running.sched.st = 3) ∧
    (let s : State := { running with sched := { running.sched with st := 5 } };
      s.sched.st = 5 ∧ s.haltDone = true ∧ s.clock.lost = false ∧ 0 ∈ s.imageCores ∧ 1 ∉ s.imageCores) := by
  unfold State.admits; decide +kernel

theorem witness_StopsAndEpochs_epochs :
    (running.admits owner 0x0621 (leBytes 2 (1 : BitVec 16).toNat) ∧ (1 : BitVec 16).toNat = (running.sched.placeEpoch + 1) % 65536 ∧
      running.sched.st ≠ 1) ∧
    (running.admits owner 0x0621 (leBytes 2 (5 : BitVec 16).toNat) ∧ (5 : BitVec 16).toNat ≠ (running.sched.placeEpoch + 1) % 65536) := by
  unfold State.admits; decide +kernel

/-! Function tables, windows, control cores. -/

/-- The core in which every engine is clocked, with a function table being checked in slot 8. -/
def checking : State := { clocked with cores := [(0, { clken := 31, sfu := { checking := some 8 } })] }

theorem witness_FunctionTablesLoad :
    (clocked.busUp = true ∧ clocked.clkOn 0 2 = true) ∧
    ((checking.core 0).sfu.checking = some 8 ∧ checking.clkOn 0 2 = true ∧ stageCheck (checking.core 0).sfu.stage ≠ 0) ∧
    fld (0xB : Word) 3 0 ≥ 8 ∧ fld (3 : Word) 3 0 < 8 := by
  decide +kernel

theorem witness_FlagsAreReadAndCleared_stores :
    (clocked.busUp = true ∧ clocked.flagClocked (.vxe 0) = true) ∧
    (let v : Word := 0x0038000F;
      clocked.admits owner 0x0701 (leBytes 4 v.toNat) ∧ fld v 31 29 ≠ 6 ∧ (fld v 28 23 ≤ 33 ∨ fld v 28 23 = 0x3F) ∧ fld v 18 4 = 0 ∧
      clearUnits v ≠ []) ∧
    (let v : Word := 0xFFF8000F;
      clocked.admits owner 0x0701 (leBytes 4 v.toNat) ∧ fld v 31 29 ≠ 6 ∧ fld v 28 23 = 0x3F ∧ fld v 18 4 = 0 ∧ clearUnits v ≠ [] ∧
      (∃ w ∈ clearUnits v, clocked.flagClocked w = false) ∧ ∃ w ∈ clearUnits v, clocked.flagClocked w = true) := by
  unfold State.admits; decide +kernel

theorem witness_ControlWindowStores_configuration :
    (clocked.busUp = true ∧ clocked.clkOn 0 1 = true ∧ ¬ ((clocked.core 0).mxe.slots.any (fun x => decide (x.2.st ≠ 0)) = true) ∧
      fld (1 : Word) 7 4 ≤ 3 ∧ (fld (1 : Word) 7 4 ≠ 0 → isWide 0 = true) ∧ ¬ (fld (0x40 : Word) 7 4 ≤ 3)) ∧
    ((clocked.core 0).seq.st ≠ 1 ∧ (clocked.core 0).seq.st ≠ 2 ∧ (bit (0x12 : Word) 4 = true ∨ fld (0x12 : Word) 3 1 = 0) ∧
      ¬ (bit (2 : Word) 4 = true ∨ fld (2 : Word) 3 1 = 0)) := by
  decide +kernel

theorem witness_ControlWindowStores_windows :
    clocked.cpuRuns 0 = true ∧
    (placeOf (0xE100000040 : BitVec 40).toNat = .coreCtl 0 0x40 ∧ clocked.clkOn 0 4 = true) ∧
    (placeOf (0xE200000010 : BitVec 40).toNat = .mscCtl 0 0x10 ∧ (clocked.region 0).clken.getLsbD 1 = true ∧ (clocked.region 0).op = none) ∧
    (placeOf (0xE101000100 : BitVec 40).toNat = .hubCtl 0 0x100 ∧ (clocked.hub 0).clken.getLsbD 2 = true) ∧
    (clocked.windowStore (placeOf (0xE100000040 : BitVec 40).toNat) 4 1).isSome = true ∧
    clocked.gatedAt (placeOf (0xE100010010 : BitVec 40).toNat) = true ∧ clocked.gatedAt (placeOf (0xE100000040 : BitVec 40).toNat) = false := by
  decide +kernel

theorem witness_ControlCoreAccesses :
    clocked.cpuRuns 0 = true ∧
    (placeOf (0xE000000008 : BitVec 40).toNat = .spad 0 8 ∧ 8 % 4 = 0 ∧ clocked.clkOn 0 4 = true) ∧
    (placeOf (0x10 : BitVec 40).toNat = .hbm 0x10 ∧ naturally 0x10 4 = true ∧ clocked.gatedAt (.hbm 0x10) = false ∧
      clocked.sliceWaits (cpuStream (0 / 8)) 0x10 = false ∧ (clocked.memRead (cpuStream (0 / 8)) 0x10 4 0 noErr).2 = some [0, 0, 0, 0]) ∧
    (let s : State := { clocked with mem := { clocked.mem with bandChg := [(bandOf 0x10, true)] } };
      s.cpuRuns 0 = true ∧ s.gatedAt (.hbm 0x10) = false ∧ s.sliceWaits (cpuStream (0 / 8)) 0x10 = true) ∧
    (clocked.gatedAt (placeOf (0xE000400000 : BitVec 40).toNat) = true ∧ placeOf (0xE000400000 : BitVec 40).toNat ≠ .unmapped) ∧
    (naturally (0x12 : BitVec 40).toNat 4 = false ∧ placeOf (0x12 : BitVec 40).toNat = .hbm 0x12) ∧
    (2 < 4 ∧ placeOf (0xE000000008 : BitVec 40).toNat = .spad 0 8) := by
  decide +kernel

/-! Device memory and die-to-die ports. -/

/-- The first scratchpad fill of core 0's stream slot 0: a read of 64 bytes at stack address 0. -/
def req0 : MemReq := { owner := .stream 0 0 (.unit 0 0xE000000000), band := 0, addr := 0, op := .read, hint := 0 }
def region0 (g : RegionSt) : State := { clocked with mem := { regions := [(0, { g with clken := 3 })] } }
def line1 : Line := ⟨0, false, false, List.replicate 64 1⟩

theorem witness_MemoryServesAndIsMaintained_maintenance :
    (let v : BitVec 16 := 0x8003;
      ready.admits owner 0x0501 (leBytes 2 v.toNat) ∧ v.toNat % 64 ≤ 35 ∧ nfld v.toNat 14 6 = 0 ∧ ready.schedBusy = false ∧
      ready.bandInUse (v.toNat % 64) = false ∧ ready.bandBusy (v.toNat % 64) = false ∧ ready.homed (v.toNat % 64) ≠ v.toNat.testBit 15) ∧
    (let s : State := { ready with mem := { bandChg := [(3, true)] } };
      s.mem.bandChg = [(3, true)] ∧ s.clock.lost = false ∧ ∀ r, r < 24 → ∀ x ∈ (s.region r).adm, x.band ≠ 3) ∧
    ((Instr.mscClean 0, 1) ∈ [(Instr.mscClean 0, 1)] ∧ (clocked.region 0).clken.getLsbD 1 = true ∧ clocked.clock.lost = false) ∧
    (((region0 { op := some 1 }).region 0).op = some 1 ∧ (region0 { op := some 1 }).clock.lost = false) ∧
    (((region0 { baseHi := 0x100 }).region 0).op = none ∧ fld ((region0 { baseHi := 0x100 }).region 0).baseHi 31 8 ≠ 0) ∧
    (let s := region0 { op := some 2, baseLo := 0x1000, len := 1, sets := [(0, [line1])] };
      (s.region 0).op = some 2 ∧ ∃ x ∈ (s.region 0).sets, ∃ l ∈ x.2, s.inMscRange 0 l = false) := by
  unfold State.admits; decide +kernel

theorem witness_MemoryServesAndIsMaintained_requests :
    (let s := region0 { q := [req0], sets := [(0, [line1])] };
      (s.region 0).q.find? (fun q => !s.bandBusy q.band && !heldLine (s.region 0) q) = some req0 ∧ (s.region 0).clken.getLsbD 1 = true ∧
      s.clock.lost = false ∧ s.servedHere 0 req0 = true ∧ req0.owner = .stream 0 0 (.unit 0 0xE000000000) ∧ req0.op = .read ∧
      s.findLine 0 req0.addr = some line1) ∧
    (let s := region0 { q := [req0] };
      (s.region 0).q.find? (fun q => !s.bandBusy q.band && !heldLine (s.region 0) q) = some req0 ∧ s.servedHere 0 req0 = false ∧
      (s.canAdmit (s.region 0).adm (s.reqStream req0) req0.addr && !s.behindHeld (s.region 0).held (s.reqStream req0) req0.addr) = true) ∧
    (let s := region0 { q := [req0], held := [{ req0 with addr := 0x10000000 }] };
      (s.region 0).q.find? (fun q => !s.bandBusy q.band && !heldLine (s.region 0) q) = some req0 ∧ s.servedHere 0 req0 = false ∧
      s.behindHeld (s.region 0).held (s.reqStream req0) req0.addr = true) ∧
    (let s := region0 { held := [req0] };
      bankKey req0.addr = (0 : Fin 32).val * 48 + (0 : Fin 48).val ∧ s.clock.lost = false ∧
      s.nextRobin ((s.region 0).banks.get {} 0).lastAdm (s.admissible (s.region 0) 0) = some req0) ∧
    (let s := region0 { adm := [req0] };
      (s.region 0).adm[0]? = some req0 ∧ bankTurn (s.region 0) req0 = true ∧ (s.region 0).clken.getLsbD 0 = true) ∧
    (8 * 5 < spadBytes ∧ clocked.clkOn 0 4 = true) ∧ clocked.busUp = true ∧ (0x80 + 0) ∉ clocked.power.hot := by
  decide +kernel

/-- Good flits of the adapter that joins die 0 to die `src`: a request of class 1 with the sequence number `seq`, and the replay request
for the flit 2. -/
def flit0 (seq dst : Nat) : List Byte := mkFlit dst 1 1 seq (List.replicate 250 0)
def ask2 : List Byte := mkFlit 0 1 0 0 (0xFF :: 2 :: List.replicate 248 0)
def adapter0 (x : AdapterSt) : State := { ready with adapters := [(0, { x with up := true })] }

theorem witness_FlitsAreDeliveredInOrder_flits :
    (((adapter0 {}).adapter 0).up = true ∧ (adapter0 {}).clock.lost = false ∧ ((adapter0 {}).adapter 0).rxExp = 0) ∧
    (flitOk (flit0 0 0) = true ∧ flSeq (flit0 0 0) = 0 ∧ isReplay (flit0 0 0) = false ∧ flDst (flit0 0 0) = (0 : Fin 24).val / 4) ∧
    (flitOk (flit0 0 1) = true ∧ flDst (flit0 0 1) ≠ (0 : Fin 24).val / 4) ∧
    (flitOk (flit0 5 0) = true ∧ flSeq (flit0 5 0) ≠ ((adapter0 {}).adapter 0).rxExp) ∧
    (flitOk ask2 = true ∧ flSeq ask2 = 0 ∧ isReplay ask2 = true) ∧
    (flitOk (List.replicate 256 0) = false ∧ ((adapter0 { discarding := true }).adapter 0).discarding = true ∧
      ((adapter0 {}).adapter 0).discarding = false ∧ ((adapter0 {}).adapter 0).reqCount < 7) := by
  decide +kernel

theorem witness_FlitsAreDeliveredInOrder_replay :
    (let x := (adapter0 { txCount := 4, replay := [flit0 0 1, flit0 1 1, flit0 2 1, flit0 3 1], askPos := some 3, askCount := 7 }).adapter 0;
      (if x.askPos = some (x.flitPos 2) then x.askCount + 1 else 1) < 8 ∧
      8 ≤ (if x.askPos = some (x.flitPos 3) then x.askCount + 1 else 1) ∧ x.failed = false) ∧
    (let x := (adapter0 { discarding := true }).adapter 0; x.discarding = true ∧ x.reqCount < 7) := by
  decide +kernel

/-! Links. -/

def portIn (st : Nat) (q : PortSt) : State := { ready with tsc := 500000000, ports := [(0, { q with st := st })] }
def frame0 (fseq : Nat) : Frame := { word := { slotc := [], fseq := fseq, ackseq := 0, nak := false, crkind := 0, crcnt := 0, keyph := 0, tagpart := 0 }, slots := [] }
/-- Every codeword free of errors; one that the code corrects; one with more than 15 wrong symbols. -/
def goodObs : FrameObs := { errors := [], lane := [0, 1, 2, 3, 4, 5, 6, 7] }
def fixedObs : FrameObs := { errors := [0, 15], lane := [0, 1, 2, 3, 4, 5, 6, 7] }
def badObs : FrameObs := { errors := [0, 16], lane := [0, 1, 2, 3, 4, 5, 6, 7] }
def msg (typ n : Nat) : LinkMsg := { ver := 3, typ := typ, rsvd := 0, mseq := 0, body := List.replicate n 0 }

theorem witness_FramesAreSentAndTaken_sent :
    ((portIn 8 {}).clock.lost = false ∧ ((portIn 8 {}).port 0).framing = true) ∧
    (let q0 := ((portIn 8 { resend := [frame0 4] }).port 0).startResend;
      q0.resend = frame0 4 :: [] ∧ ¬ ((frame0 4).word.fseq % 4 = 0 ∧ 8 ≤ ({ q0.countResent (frame0 4) with resend := [] }).resentOf 4)) ∧
    (let q0 := ((portIn 8 { resend := [frame0 4], resent := [(4, 7)] }).port 0).startResend;
      q0.resend = frame0 4 :: [] ∧ (frame0 4).word.fseq % 4 = 0 ∧ 8 ≤ ({ q0.countResent (frame0 4) with resend := [] }).resentOf 4) ∧
    (((portIn 8 { resendFrom := some 3, buf := [frame0 4] }).port 0).startResend.resend = [frame0 4]) ∧
    (((portIn 8 {}).port 0).startResend.resend = [] ∧ (∀ x ∈ ((portIn 8 {}).port 0).txBulk, x.land = none) ∧
      ((portIn 8 {}).port 0).begun = false ∧ ((portIn 8 { begun := true }).port 0).begun = true) := by
  decide +kernel

theorem witness_FramesAreSentAndTaken_taken :
    (badLanes goodObs = 0 ∧ badLanes fixedObs = 0 ∧ correctedLanes fixedObs = 1 ∧ badLanes badObs = 1) ∧
    ((frame0 0).word.fseq = ((portIn 8 {}).port 0).rxNext ∧ ((portIn 8 {}).port 0).rxGroup.length < 3) ∧
    (let q := (portIn 8 { rxNext := 3, rxGroup := [frame0 0, frame0 1, frame0 2] }).port 0;
      (frame0 3).word.fseq = q.rxNext ∧ q.rxGroup.length = 3 ∧ q.enc = false) ∧
    (let q := (portIn 8 { rxNext := 3, rxGroup := [frame0 0, frame0 1, frame0 2], enc := true }).port 0;
      (frame0 3).word.fseq = q.rxNext ∧ q.rxGroup.length = 3 ∧ q.enc = true ∧ q.rxHeld = []) ∧
    (let q := (portIn 8 { rxNext := 8, rxBad := true }).port 0; (frame0 3).word.fseq ≠ q.rxNext ∧ q.rxBad = true) ∧
    (let q := (portIn 8 { rxNext := 8 }).port 0;
      q.seenFrame (frame0 7) = true ∧ (frame0 7).word.fseq ≠ q.rxNext ∧ q.seenFrame (frame0 12) = false) := by
  decide +kernel

theorem witness_PortsAndSlices_ports :
    (let s := portIn 8 {};
      s.clock.lost = false ∧ (s.port 0).framing = true ∧ (msg 1 8).typ = 1 ∧ linkShape (msg 1 8) = true ∧ (msg 1 8).body.length = 8 ∧
      (msg 1 7).body.length ≠ 8 ∧ linkShape { msg 1 8 with ver := 0 } = false ∧ ¬ (s.align.mode = 2 ∧ s.align.parent = 0) ∧
      (s.port 0).lastKa + 800 ≤ s.tsc ∧ 2 ≤ ((List.range 9).filter (fun i => (3 : BitVec 9).getLsbD i && (s.port 0).laneUsed i)).length) ∧
    (let s := { portIn 8 {} with align := { mode := 2, parent := 0 } }; s.align.mode = 2 ∧ s.align.parent = (0 : Fin 40).val) ∧
    (let s := portIn 1 {};
      (s.port 0).st = 1 ∧ (s.port 0).downTick + s.fab.waltzRetry * 400 ≤ s.tsc ∧ s.mayTrain 0 = true ∧
      ({ s with clock := { locked := true, lost := true } } : State).mayTrain 0 = false) ∧
    (((portIn 2 {}).port 0).st = 2 ∧ 2 ≤ popcount (3 : BitVec 9).toNat 9 ∧ popcount (1 : BitVec 9).toNat 9 < 2 ∧ topRate 7 ≠ 0 ∧
      topRate 0 = 0 ∧ (portHub 0) ∉ (portIn 2 {}).sec.entropyBad ∧ (portHub 0) ∈ ({ portIn 2 {} with sec := { entropyBad := [0] } } : State).sec.entropyBad ∧
      ((portIn 2 {}).port 0).stepStart + 16000000 ≤ (portIn 2 {}).tsc) ∧
    (let q := (portIn 3 {}).port 0;
      3 ≤ q.st ∧ q.st ≤ 6 ∧ q.stepStart + (if q.st = 3 then 5 else if q.st = 6 then 1 else 2) * 400000 ≤ (portIn 3 {}).tsc) := by
  decide +kernel

theorem witness_PortsAndSlices_writes :
    ((portIn 8 {}).admits owner 0x0812 [2] ∧ (portIn 1 {}).admits owner 0x0812 [2] ∧ ((portIn 1 {}).port 0).st ≠ 8) ∧
    ((portIn 0 {}).admits owner 0x0812 [1] ∧ (portIn 0 {}).mayTrain 0 = true ∧ ((portIn 0 {}).port 0).st = 0) ∧
    ((portIn 1 {}).admits owner 0x0812 [3] ∧ (portIn 1 {}).mayTrain 0 = true ∧ ((portIn 1 {}).port 0).st = 1) ∧
    ((portIn 7 {}).admits owner 0x0812 [3] ∧ (portIn 7 {}).mayTrain 0 = true ∧ ((portIn 7 {}).port 0).st = 7) ∧
    ((portIn 8 {}).admits owner 0x0812 [3] ∧ (portIn 8 {}).mayTrain 0 = true ∧ ((portIn 8 {}).port 0).st = 8) ∧
    (let v : Word := 0x80000005;
      expPeerBad v = false ∧ ∀ k ∈ [1, 6, 7, 8], (portIn k {}).admits owner 0x0813 (leBytes 4 v.toNat)) ∧
    (let n := { (portIn 1 {}).port 0 with expPeer := (0x80000005 : Word) };
      ¬ (n.st = 6 ∨ (n.st = 7 ∧ (n.hold = 6 ∨ n.hold = 7))) ∧ (n.st = 8 → n.neighbourCheck = 0)) ∧
    (((portIn 6 {}).port 0).st = 6 ∧ ((portIn 7 { hold := 7 }).port 0).hold = 7) ∧
    (let n := { (portIn 8 {}).port 0 with expPeer := (0x80000005 : Word) }; n.st = 8 ∧ n.neighbourCheck ≠ 0) ∧
    (let b : List Byte := List.replicate 32 7;
      (portIn 8 {}).admits owner 0x0814 b ∧ b.length = 32 ∧ ({ (portIn 8 {}).port 0 with expKey := b } : PortSt).neighbourCheck ≠ 0) ∧
    (let v : BitVec 64 := 0x400002000;
      ready.admits owner 0x0902 (leBytes 8 v.toNat) ∧ ready.schedBusy = false ∧ (actSliceSet ready v).inv = false) ∧
    ready.admits owner 0x0906 (leBytes 1 (1 : BitVec 8).toNat) := by
  unfold State.admits; decide +kernel

/-- What a report and a capability block must show beyond their length rests on signatures, which are free (log 2): no witness names one
that holds. -/
theorem witness_TheWaltzSteps :
    ((portIn 3 {}).clock.lost = false ∧ ∀ typ ∈ [2, 3, 4, 5, 6, 7], linkShape (msg typ 1) = true ∧ (msg typ 1).typ = typ) ∧
    ((Instr.hello 0 (msg 2 0), 2, 3, 34) ∈ [(Instr.hello 0 (msg 2 0), 2, 3, 34)] ∧ (msg 2 0).body.length ≠ 34) ∧
    (((portIn 3 {}).port 0).st = 3 ∧ (msg 2 34).body.length = 34 ∧ bodyOf ((portIn 3 {}).port 0).rcvd 2 = none) ∧
    ((msg 3 9216).body.length = 9216 ∧ bodyOf ((portIn 3 {}).port 0).rcvd 3 = none ∧ (portHub 0) ∉ (portIn 3 {}).sec.entropyBad) ∧
    (((portIn 4 {}).port 0).st = 4 ∧ (msg 4 1184).body.length = 1184 ∧ bodyOf ((portIn 4 {}).port 0).rcvd 4 = none) ∧
    (let q := (portIn 4 { secretOut := [1] }).port 0;
      q.st = 4 ∧ (msg 5 1088).body.length = 1088 ∧ bodyOf q.rcvd 5 = none ∧ q.secretOut ≠ []) ∧
    (((portIn 5 {}).port 0).st = 5 ∧ (msg 6 3584).body.length = 3584 ∧ bodyOf ((portIn 5 {}).port 0).rcvd 6 = none) ∧
    (((portIn 6 {}).port 0).st = 6 ∧ (msg 7 1).body.length = 1 ∧ leAt (msg 7 1).body 0 1 = 0 ∧ (msg 7 2).body.length ≠ 1 ∧
      ((portIn 7 { hold := 8 }).port 0).st = 7 ∧ ((portIn 7 { hold := 8 }).port 0).hold = 8) ∧
    ((msg 0 1).typ = 0 ∧ 7 < (msg 9 1).typ ∧ ((portIn 7 {}).port 0).framing = true ∧ ((portIn 3 {}).port 0).framing = true) := by
  decide +kernel

/-! The fabric, collectives, training. -/

/-- Device 1 of a slice of devices 0 to 2 along x, with the ports 0, 3 and 6 UP. -/
def sliced : State :=
  { clocked with devNum := 1, fab := { sliceW := 0x400002000 }, ports := [(0, { st := 8, ver := 3 }), (3, { st := 8, ver := 3 }), (6, { st := 8, ver := 3 })] }
def pkt (typ dst : Nat) : Packet := { pk0 typ with slice := 1, srcdev := 0, dstdev := dst }
/-- The same packet with the placement epoch before that of `sliced`. -/
def olden (pk : Packet) : Packet := { pk with epchk := true, epoch := 65535 }

/-- A packet that arrives from the torus: what `State.arrives` asks of it, as a check. -/
def torusIn (s : State) (p : Fin 40) (pk : Packet) : Bool := s.portTakes p pk && decide (p.val < 36) && (s.torusCheck p pk).isNone

theorem torusIn_arrives (s : State) (p : Fin 40) (pk : Packet) (h : torusIn s p pk = true) : s.arrives p pk pk s := by
  simp only [torusIn, Bool.and_eq_true, decide_eq_true_eq, Option.isNone_iff_eq_none] at h
  exact ⟨h.1.1, .inl ⟨h.1.2, h.2, rfl, rfl⟩⟩

/-- What arrives from the tree rests on a tag of AES-GCM, and what the fabric manager sends too: both are free (log 2), so no witness names
such a packet; from the torus every packet of the slice without FM arrives. -/
theorem witness_PacketsAndFloods_onward :
    let pk := { pkt 0x10 2 with arg := 1 };
    let u := sliced.freePackets (pktCode 0x10) [(6, pk)];
    torusIn sliced 6 pk = true ∧ pk.dstdev ≠ sliced.devNum ∧ (Instr.pktRead 6 ⟨pk, []⟩, 0x10) ∈ [(Instr.pktRead 6 ⟨pk, []⟩, 0x10)] ∧
    pk.ptype = 0x10 ∧ u.inBlock pk.dstdev = true ∧ u.nextDir pk.dstdev = some 0 ∧ u.pickPort 0 (pktCode 0x10) (some (6 % 6)) = some 0 ∧
    pk.epchk = false ∧ (torusIn sliced 6 (pkt 0x31 2) = true ∧ 3 ≤ (sliced.port 0).ver) := by
  decide +kernel

theorem witness_PacketsAndFloods_requests :
    (let pk := { pkt 0x10 1 with arg := 1 };
      torusIn sliced 6 pk = true ∧ pk.dstdev = sliced.devNum ∧ pk.ptype = 0x10 ∧ pk.epchk = false ∧ inSectors pk.addr (64 * pk.arg) = true ∧
      inSectors 0xE000000000 (64 * pk.arg) = false ∧ torusIn sliced 6 { pk with addr := 0xE000000000 } = true) ∧
    (let pk := { pkt 0x11 1 with payload := List.replicate 64 1 };
      torusIn sliced 6 pk = true ∧ pk.ptype = 0x11 ∧ pk.epchk = false ∧ inSectors pk.addr pk.payload.length = true) ∧
    (let pk := { pkt 0x12 1 with arg := 5 };
      torusIn sliced 6 pk = true ∧ pk.ptype = 0x12 ∧ pk.addr % 64 = 0 ∧ pk.addr + 8 ≤ hbmTop ∧
      torusIn sliced 6 { pk with addr := 8 } = true ∧ 8 % 64 ≠ 0) := by
  decide +kernel

theorem witness_PacketsAndFloods_epochs :
    (∀ ty ∈ [0x12, 0x21, 0x05, 0x31],
      let pk := olden (pkt ty 1);
      torusIn sliced 6 pk = true ∧ pk.ptype = ty ∧ pk.epchk = true ∧
      32768 ≤ (pk.epoch + 65536 - sliced.sched.placeEpoch) % 65536) ∧
    (let pk := { pkt 0x21 1 with epchk := true }; torusIn sliced 6 pk = true ∧ pk.epoch = sliced.sched.placeEpoch) := by
  decide +kernel

theorem witness_PacketsAndFloods_responses :
    (let x : Txn := { owner := .stream 0 0 [.unit 0 0], port := 6 };
      let s : State := { sliced with fab := { sliced.fab with txns := [(0, some x)] } };
      let pk := { pkt 0x20 1 with payload := List.replicate 64 1 };
      torusIn s 6 pk = true ∧ s.fab.txns.get none pk.txn = some x ∧ pk.payload.length = 64 * [ReqKind.unit 0 0].length ∧
      torusIn s 6 (pkt 0x21 1) = true ∧ torusIn s 6 { pkt 0x22 1 with arg := 3 } = true) ∧
    (sliced.fab.txns.get none 0 = none ∧ torusIn sliced 6 (pkt 0x21 1) = true ∧ torusIn sliced 6 (pkt 0x05 1) = true) ∧
    (let pk := { pkt 0x04 1 with payload := [0, 0, 0, 0x10, 0x06, 0x07, 0, 0] };
      torusIn sliced 6 pk = true ∧ pk.fm = false ∧ sliced.odAnswers = true ∧ 4 ≤ pk.payload.length ∧ beAt pk.payload 2 1 = 0 ∧
      beAt pk.payload 3 1 = 0x10 ∧ reqShape false (pk.payload.drop 4) = true) ∧
    (let s : State := { sliced with life := 0 }; torusIn s 6 (pkt 0x04 1) = true ∧ s.life = 0) ∧
    (torusIn sliced 6 (pkt 0x31 1) = true ∧ (pkt 0x31 1).epchk = false ∧ (sliced.hub (portHub 6)).coll.st ≠ 2) ∧
    (let o : OpenPk := { core := 0, slot := 0, write := false, dst := 2, off := 0, epchk := false, epoch := 0, hint := 0, kinds := [], data := [] };
      let s : State := { sliced with fab := { sliced.fab with opens := [(0, some o)] } };
      s.fab.opens.get none 0 = some o ∧ s.clock.lost = false) := by
  decide +kernel

/-- `sliced` with a landing of 256 bytes armed for the tag 0 of direction 1. -/
def armed (held : List (Nat × Packet × Nat)) : State :=
  { sliced with
    landings := [{ core := 0, slot := 0, indir := 1, tag := 0, fwd := false, outdir := 0, dst := 0xE000000000, len := 256 }]
    fab := { sliced.fab with reelHeld := held } }

theorem witness_PacketsAndFloods_reel :
    (let pk := olden (pkt 0x30 1);
      torusIn sliced 6 pk = true ∧ pk.ptype = 0x30 ∧ 32768 ≤ (pk.epoch + 65536 - sliced.sched.placeEpoch) % 65536) ∧
    (let pk := pkt 0x30 1;
      torusIn sliced 6 pk = true ∧ pk.epoch = sliced.sched.placeEpoch ∧ sliced.landingFor (6 / 6) pk.tag = none ∧
      sliced.fab.reelOff = false) ∧
    (let s : State := { sliced with fab := { sliced.fab with reelOff := true } };
      torusIn s 6 (pkt 0x30 1) = true ∧ s.landingFor (6 / 6) (pkt 0x30 1).tag = none ∧ s.fab.reelOff = true) ∧
    (let s := armed [(6, pkt 0x30 1, 0)];
      torusIn s 6 (pkt 0x30 1) = true ∧ (s.landingFor (6 / 6) (pkt 0x30 1).tag).isSome = true ∧ s.reelBehind (6 / 6) 0 = true) ∧
    (let s := armed [];
      let pk := { pkt 0x30 1 with addr := 256, payload := List.replicate 64 1 };
      torusIn s 6 pk = true ∧ (s.landingFor (6 / 6) pk.tag).map Landing.len = some 256 ∧ s.reelBehind (6 / 6) 0 = false ∧
      256 < pk.addr + pk.payload.length ∧ torusIn s 6 { pk with addr := 0 } = true ∧ 0 + pk.payload.length ≤ 256) := by
  decide +kernel

theorem witness_PacketsAndFloods_floods :
    (let s : State := { sliced with fab := { sliced.fab with flood := [(0, 0)] } };
      torusIn s 6 (pkt 1 1) = true ∧ ((pkt 1 1).srcdev, (pkt 1 1).arg) ∈ s.fab.flood) ∧
    (torusIn sliced 6 (pkt 1 1) = true ∧ (pkt 1 1).fm = false ∧ ((pkt 1 1).srcdev, (pkt 1 1).arg) ∉ sliced.fab.flood) ∧
    (let pk := { pkt 2 1 with payload := [0, 0, 1, 3] ++ List.replicate 28 0 };
      torusIn sliced 6 pk = true ∧ fencePlOk pk = true ∧ fenceKind pk = 1 ∧
      (let s : State := { sliced with husk := { st := 3 } };
        torusIn s 6 pk = true ∧ 3 ≤ s.husk.st ∧ s.husk.st ≤ 8 ∧ s.husk.fenced = false)) ∧
    (let pk := { pkt 2 1 with payload := [0, 0, 2, 3] ++ List.replicate 28 0 };
      let s : State := { sliced with husk := { st := 7 } };
      torusIn s 6 pk = true ∧ fencePlOk pk = true ∧ fenceKind pk = 2 ∧ s.husk.flushing = false ∧ s.husk.flushed = false ∧
      s.devNum ∉ s.husk.lost ∧ s.husk.st = 7 ∧ leAt pk.payload 8 8 = s.husk.openGen) ∧
    (let pk := { pkt 3 1 with payload := [0, 0, 1, 3] ++ List.replicate 28 0 };
      let s : State := { sliced with husk := { st := 9 } };
      torusIn s 6 pk = true ∧ fencePlOk pk = true ∧ s.husk.st = 9 ∧ sliced.husk.st ≠ 9) := by
  decide +kernel

/-- Device 1 with an image that runs and a collective sequencer of hub 0 in state `st`. -/
def collIn (k : CollSt) : State :=
  { sliced with sched := { st := 3 }, hubs := [(0, { clken := 0xFF, coll := k }), (1, { clken := 0x1F })] }
def desc0 : List Word := List.replicate 32 0
/-- A descriptor that starts when its gate reaches 1. -/
def desc1 : List Word := List.replicate 10 0 ++ [1] ++ List.replicate 21 0

theorem witness_CollectivesAndSteps_collectives :
    ((sliced.hub 0).clken.getLsbD 2 = true ∧ sliced.clock.lost = false ∧ bit (1 : Word) 0 = true ∧ bit (2 : Word) 0 = false) ∧
    (let s := collIn { st := 1, table := [desc0] };
      (s.hub 0).coll.st = 1 ∧ s.sched.st = 3 ∧ (s.hub 0).clken.getLsbD 2 = true ∧ s.sliceWaits deviceStream (cStartG (s.collDesc 0)) = false ∧
      (s.devRead (cStartG (s.collDesc 0)) 8).2 = some (List.replicate 8 0) ∧ cStartT (s.collDesc 0) ≤ ofLe (List.replicate 8 0) ∧
      (let w : State := { s with mem := { s.mem with bandChg := [(bandOf 0, true)] } };
        w.sliceWaits deviceStream (cStartG (w.collDesc 0)) = true)) ∧
    (let s := collIn { st := 1, table := [desc1] };
      s.sliceWaits deviceStream (cStartG (s.collDesc 0)) = false ∧
      (s.devRead (cStartG (s.collDesc 0)) 8).2 = some (List.replicate 8 0) ∧ ofLe (List.replicate 8 0) < cStartT (s.collDesc 0)) ∧
    (let s := collIn { st := 2, table := [desc0] };
      (s.hub 0).coll.st = 2 ∧ (s.hub 0).coll.prog = [] ∧ (s.hub 0).coll.acks = 0 ∧ s.sched.st = 3 ∧ cDoneAdd (s.collDesc 0) = 0 ∧
      (s.hub 0).coll.queue = []) := by
  decide +kernel

theorem witness_CollectivesAndSteps_steps :
    (let s : State := { ready with sched := { st := 2 } };
      s.opt.running = none ∧ s.admits owner 0x0B05 (leBytes 8 (1 : BitVec 64).toNat) ∧ (1 : BitVec 64).toNat = (s.opt.step + 1) % 2 ^ 64 ∧
      s.sched.st ≠ 0 ∧ s.sched.st ≠ 1 ∧ s.sched.st ≠ 5 ∧ (∀ i, i < s.opt.count → s.groupFails 1 i = false) ∧ s.opt.gate + 8 ≤ hbmTop) ∧
    (let s : State := { ready with sched := { st := 2 }, opt := { count := 1 } };
      0 < s.opt.count ∧ s.groupFails 1 0 = true ∧ s.opt.running = none ∧ s.admits owner 0x0B05 (leBytes 8 (1 : BitVec 64).toNat)) ∧
    (let s : State := { ready with opt := { prepared := 1 } };
      s.admits owner 0x0B06 (leBytes 8 (1 : BitVec 64).toNat) ∧ s.opt.prepared = 1 ∧ s.admits owner 0x0B07 (leBytes 8 (1 : BitVec 64).toNat) ∧
      s.sched.st ≠ 1 ∧ s.sched.st ≠ 5 ∧ s.schedBusy = false) ∧ ready.clock.lost = false := by
  unfold State.admits; decide +kernel

/-! The Husk. -/

def huskIn (k : HuskSt) : State := { clocked with husk := k, hubs := [(0, { clken := 0xFF, cpuEn := 0xFF }), (1, { clken := 0x1F, par := {} })] }
def huskPar (k : HuskSt) (p : ParSt) : State :=
  { huskIn k with hubs := [(0, { clken := 0xFF, par := p }), (1, { clken := 0x1F, par := p })] }

theorem witness_HuskActionsAndTheirEnds_actions_refused :
    (let s : State := { huskIn {} with hubs := [(0, { clken := 0xFD }), (1, { clken := 0x1F })] }; s.parityGated = true) ∧
    (let s := huskIn { lost := [0] };
      s.huskShut = true ∧ s.parityGated = false ∧ s.admits owner 0x0A20 (leBytes 1 (0 : BitVec 8).toNat) ∧
      s.admits owner 0x0A21 (leBytes 8 (5 : BitVec 64).toNat) ∧ s.admits owner 0x0A22 (leBytes 8 (5 : BitVec 64).toNat) ∧
      s.admits owner 0x0A23 (leBytes 8 (5 : BitVec 64).toNat) ∧ s.admits owner 0x0A25 (leBytes 1 (0 : BitVec 8).toNat) ∧
      s.admits owner 0x0A26 (leBytes 8 (5 : BitVec 64).toNat)) ∧
    (let s := huskIn { st := 3, gen := 4 }; s.huskShut = false ∧ s.husk.st = 3 ∧ (7 : BitVec 64).toNat ≠ s.husk.gen + 1 ∧
      s.admits owner 0x0A22 (leBytes 8 (7 : BitVec 64).toNat)) ∧
    (let s := huskIn { st := 7, openGen := 5, members := 2 };
      s.parityGated = false ∧ s.admits owner 0x0A24 (leBytes 8 (5 : BitVec 64).toNat) ∧ s.husk.st = 7 ∧ (5 : BitVec 64).toNat = s.husk.openGen ∧
      (s.devRead s.husk.sealGate 8).2 = some (List.replicate 8 0) ∧ ofLe (List.replicate 8 0) < s.husk.members) := by
  unfold State.admits; decide +kernel

theorem witness_HuskActionsAndTheirEnds_actions :
    ((huskIn {}).parityGated = false ∧ (huskIn {}).huskShut = false ∧ (huskIn {}).admits owner 0x0A20 (leBytes 1 (0 : BitVec 8).toNat)) ∧
    ((huskIn { st := 1 }).huskShut = false ∧ (huskIn { st := 1 }).admits owner 0x0A21 (leBytes 8 (5 : BitVec 64).toNat) ∧
      (huskIn { st := 1 }).listCheck (0x1000 : BitVec 64).toNat = 0 ∧ (huskIn { st := 1 }).admits owner 0x0A26 (leBytes 8 (0x1000 : BitVec 64).toNat)) ∧
    ((huskIn { st := 3, gen := 4 }).huskShut = false ∧ (huskIn { st := 3, gen := 4 }).admits owner 0x0A22 (leBytes 8 (5 : BitVec 64).toNat) ∧
      (5 : BitVec 64).toNat = (huskIn { st := 3, gen := 4 }).husk.gen + 1) ∧
    ((huskIn { st := 5, openGen := 5 }).huskShut = false ∧ (huskIn { st := 5, openGen := 5 }).admits owner 0x0A23 (leBytes 8 (5 : BitVec 64).toNat)) ∧
    ((huskIn { st := 9, decision := 1 }).huskShut = false ∧ (huskIn { st := 9, decision := 1 }).admits owner 0x0A25 (leBytes 1 (0 : BitVec 8).toNat)) ∧
    (let s := huskIn { st := 7, openGen := 5 };
      s.parityGated = false ∧ s.admits owner 0x0A24 (leBytes 8 (5 : BitVec 64).toNat) ∧ s.husk.st = 7 ∧ s.husk.flushing = false ∧
      s.husk.flushed = false ∧ s.devNum ∉ s.husk.lost ∧ (5 : BitVec 64).toNat = s.husk.openGen ∧
      (s.devRead s.husk.sealGate 8).2 = some (List.replicate 8 0) ∧ s.husk.members ≤ ofLe (List.replicate 8 0)) ∧
    (huskIn {}).admits owner 0x0A27 (leBytes 1 (0 : BitVec 8).toNat) ∧
    ((huskIn { st := 9 }).admits owner 0x0A28 (leBytes 8 (5 : BitVec 64).toNat) ∧ (huskIn { st := 9 }).parityGated = false) ∧
    ((huskIn {}).admits owner 0x0A33 [1, 2] ∧ [(1 : Byte), 2].length ≤ 32 ∧ (huskIn {}).schedBusy = false) := by
  unfold State.admits; decide +kernel

theorem witness_HuskActionsAndTheirEnds_work :
    ((huskIn { loading := true }).husk.loading = true ∧ (huskIn {}).clock.lost = false ∧ (huskIn { loading := true, st := 1 }).husk.st = 1) ∧
    ((huskPar { st := 2 } { work := 1 }).husk.st = 2 ∧ (huskPar { st := 2 } { work := 1 }).parDone 1 = true) ∧
    ((huskPar { st := 4 } { work := 2 }).parDone 2 = true ∧ (huskPar { st := 9 } { work := 2 }).parDone 2 = true) ∧
    ((huskPar { st := 8 } { work := 5 }).parDone 5 = true ∧ (huskPar { st := 9 } { work := 5 }).parDone 5 = true) ∧
    (huskPar { st := 10 } { work := 6 }).parDone 6 = true ∧
    (let s := huskPar { st := 6 } { work := 4 };
      s.husk.st = 6 ∧ s.parDone 4 = true ∧ ¬ ((s.par 0).fail = true ∨ (s.par 1).fail = true) ∧ s.husk.coord = s.devNum ∧
      (huskPar { st := 6, coord := 9 } { work := 4 }).husk.coord ≠ (huskPar { st := 6, coord := 9 } { work := 4 }).devNum) ∧
    (let s : State := { huskIn { settleAt := some 0 } with tsc := 80000 }; s.husk.settleAt = some 0 ∧ 0 + s.husk.settle * 400 ≤ s.tsc) ∧
    (huskIn { flushing := true }).husk.flushing = true ∧
    (let s := huskPar {} { work := 2, wait := [1], cur := some 0 }; (s.par 0).wait ≠ [] ∧ (s.par 0).cur ≠ none ∧ (s.par 0).work ≠ 4) ∧
    (let s := huskPar {} { work := 4, wait := [1], cur := some 0 }; (s.par 0).wait ≠ [] ∧ (s.par 0).cur ≠ none ∧ (s.par 0).work = 4) := by
  decide +kernel

/-- A rebuild that ends whole, one that fails, and one that an end of the Husk's work halts. -/
theorem witness_HuskActionsAndTheirEnds_rebuild : ∀ x ∈ [(false, false), (true, false), (true, true), (false, true)],
    let s := huskPar { st := 11, from_ := 1 } { work := 7, fail := x.1, halt := x.2 };
    s.parStopped = false ∧ ((s.par 0).work = 7 ∧ (s.par 0).todo = [] ∧ (s.par 0).cur = none) ∧
    ((s.par 1).work = 7 ∧ (s.par 1).todo = [] ∧ (s.par 1).cur = none) ∧ ((s.par 0).fail = true ↔ x.1 = true) ∧
    ((s.par 0).halt = true ↔ x.2 = true) := by
  decide +kernel

/-! Clocks and power. -/

def clk (k : ClockSt) : State := { ready with clock := k }

theorem witness_ClocksQualifyAndFail :
    ((clk {}).powered = true ∧ (clk {}).clock.trimmed = false ∧ (clk {}).clock.locked = false ∧ (clk {}).clock.lost = false) ∧
    ((clk { xtalRun := 65000 }).clock.good.getLsbD 1 = false ∧ 65536 ≤ (clk { xtalRun := 65000 }).clock.xtalRun + 1055 ∧
      (clk { xtalRun := 5 }).clock.xtalRun + 1055 < 65536) ∧
    (let k := (clk { good := 3, rackSeen := true, rackLong := 4 }).clock;
      k.good.getLsbD 1 = true ∧ k.good.getLsbD 2 = false ∧ k.rackSeen = true ∧ 4 ≤ k.rackLong ∧ (clk { good := 3 }).clock.rackSeen = false) ∧
    (within 1024 1024 31 = true ∧ within 2000 1024 31 = false ∧ within 3200 3200 32 = true ∧ (clk { good := 7 }).clock.good.getLsbD 2 = true) ∧
    (let k := (clk { good := 2, trimmed := true }).clock; k.good.getLsbD 1 = true ∧ k.trimmed = true ∧ k.good.getLsbD 0 = false) ∧
    ((clk { good := 3, locked := true }).admits owner 0x0302 (leBytes 1 (1 : BitVec 8).toNat) ∧ (clk { good := 3, locked := true }).sched.st ≠ 3 ∧
      ∀ p, p < 40 → ((clk { good := 3, locked := true }).port p).st ≤ 2) ∧
    ((clk { good := 1, locked := true }).clock.good.getLsbD (clk { good := 1, locked := true }).clock.active = true ∧
      (clk { good := 1, locked := true }).clock.locked = true) ∧
    (clk { lost := true }).clock.lost = true := by
  unfold State.admits; decide +kernel

theorem witness_LevelsAndEnables :
    (ready.clock.lost = false ∧ ready.powered = true ∧
      (let s : State := { ready with power := { dies := [(0, { target := 1, level := 2, ramping := true })] } };
        s.wantLevel 0 ≠ (s.die 0).target ∧ (s.die 0).ramping = true ∧ ¬ (s.die 0).level ≤ (s.die 0).target ∧ (s.die 0).byLevel = false)) ∧
    (ready.admits owner 0x0310 (leBytes 1 (3 : BitVec 8).toNat) ∧ (3 : BitVec 8).toNat ≤ 3 ∧ (3 : BitVec 8).toNat ≠ 2 ∧
      (ready.region 0).clken.toNat &&& ((3 : BitVec 8).toNat ^^^ 3) = 0) ∧
    (let s : State := { ready with hubs := [(0, { clken := 0x70 })] };
      s.admits owner 0x0311 (leBytes 2 (0xF0 : BitVec 16).toNat) ∧ (0xF0 : BitVec 16).toNat ≤ 0xFF ∧
      (∀ i, clears (s.hub 0).clken.toNat (0xF0 : BitVec 16).toNat i = false) ∧ (s.hub 0).fenced = false) ∧
    (ready.admits owner 0x0312 (leBytes 1 (0xFF : BitVec 8).toNat) ∧ clears (ready.hub 0).cpuEn.toNat (0xFF : BitVec 8).toNat 0 = false ∧
      (ready.hub 0).fenced = false) ∧
    (ready.admits owner 0x0306 (leBytes 4 (0 : Word).toNat) ∧ (actClockOutSel ready 0).inv = false ∧ (ready.hub 0).clken.getLsbD 7 = true) := by
  refine ⟨?_, ?_, ?_, ?_, ?_⟩
  · decide +kernel
  · unfold State.admits; decide +kernel
  · refine ⟨?_, ?_, ?_, ?_⟩
    · unfold State.admits; decide +kernel
    · decide
    · intro i
      by_cases h : i < 8
      · interval_cases i <;> decide
      · have : (0x70 : Nat).testBit i = false := Nat.testBit_lt_two_pow (Nat.lt_of_lt_of_le (by decide) (Nat.pow_le_pow_right (by decide) (Nat.le_of_not_lt h)))
        exact Bool.and_eq_false_imp.mpr (fun e => absurd (this.symm.trans e) (by decide))
    · decide
  · unfold State.admits; decide +kernel
  · unfold State.admits; decide +kernel

theorem witness_SupplyAndTemperature :
    (ready.busUp = true ∧ (30000 ≤ 37000 ∧ 37000 ≤ 63000)) ∧
    (let s : State := { ready with power := { low := 10 } }; s.busUp = true ∧ 29000 < 30000 ∧ 10 ≤ s.power.low ∧ ready.power.low < 10) ∧
    (let s : State := { ready with power := { high := 10 } }; s.busUp = true ∧ 63000 < 64000 ∧ 10 ≤ s.power.high) ∧
    (let s : State := { ready with power := { stage := 2, good := [0, 1001, 0, 0] } };
      1 ≤ s.power.stage ∧ s.power.stage ≤ 4 ∧ 1001 ≤ s.power.good.getD (s.power.stage - 1) 0 ∧ 100 ≤ s.power.sinceLeave) ∧
    (∀ l ∈ [[(40000 : Int)], []], ∀ x ∈ l, x < 110000) ∧
    (let s : State := { ready with power := { hot := [2] } };
      let ts : List (List Int) := [[0, 0, 111000]];
      s.busUp = true ∧ 0 < 6 ∧ (ts.getD 0 [])[2]? = some 111000 ∧ (110000 : Int) ≤ 111000 ∧ 0 * 16 + 2 ∈ s.power.hot) ∧
    (let s : State := { ready with power := { stage := 5 } };
      s.busUp = true ∧ 5 ≤ s.power.stage ∧ s.box.writing = none ∧ s.box.waiting = none ∧ s.husk.flushing = false) ∧
    (let s : State := { ready with power := { stage := 5 }, hubs := [(0, { fenced := true })] };
      s.busUp = true ∧ (s.hub 0).fenced = true ∧ s.husk.flushing = false) := by
  decide +kernel

/-! The object dictionary, sessions, events. -/

theorem witness_ObjectWrites :
    ready.odAnswers = true ∧ objectsAt (0x1100 : BitVec 16).toNat = [] ∧ objOf (0x0607 : BitVec 16).toNat (3 : BitVec 8).toNat = none ∧
    (objOf (0x0607 : BitVec 16).toNat (0 : BitVec 8).toNat = some ⟨0x0607, 0, 0, .u32, .rw⟩ ∧ denied .none true 0x0607 = true ∧
      denied .owner true 0x0607 = false ∧ OTy.u32.fits [(1 : Byte)].length = false) ∧
    (objOf 0x0600 0 = some ⟨0x0600, 0, 0, .u8, .ro⟩ ∧ denied .owner true 0x0600 = false) ∧
    (¬ (1 ≤ ofLe (leBytes 4 0) ∧ ofLe (leBytes 4 0) ≤ 60000000) ∧ (1 ≤ ofLe (leBytes 4 7) ∧ ofLe (leBytes 4 7) ≤ 60000000) ∧
      (leBytes 4 7).length = 4 ∧ banked 0x0607 = false ∧ banked 0x0D70 = true ∧ owner.cpu = none ∧ admitted 5 0x0607 (leBytes 4 7) = false ∧ admitted ready.life 0x0607 (leBytes 4 7) = true) := by
  decide +kernel

theorem witness_WindowAccesses :
    ready.cpuRuns 0 = true ∧ placeOf (0xE306070000 : BitVec 40).toNat = .od 0x06070000 ∧
    (naturally (0x06070000 % 256) 4 = true ∧ ready.odAnswers = true ∧ (objOf (0x06070000 / 65536) (0x06070000 / 256 % 256)).isSome = true) ∧
    (placeOf (0xE306070102 : BitVec 40).toNat = .od 0x06070102 ∧ objOf (0x06070102 / 65536) (0x06070102 / 256 % 256) = none) ∧
    (objOf 0x0607 0 = some ⟨0x0607, 0, 0, .u32, .rw⟩ ∧ OTy.u32.width = some 4) ∧
    (placeOf (0xE308140100 : BitVec 40).toNat = .od 0x08140100 ∧ objOf (0x08140100 / 65536) (0x08140100 / 256 % 256) = some ⟨0x0814, 1, 40, .blob 32, .rw⟩ ∧
      (OTy.blob 32).width = none ∧ naturally (0x08140100 % 256) 8 = true ∧ naturally (0x08140101 % 256) 8 = false) ∧
    (placeOf (0xE306070001 : BitVec 40).toNat = .od 0x06070001 ∧ naturally (0x06070001 % 256) 4 = false ∧ (0x06070001 % 256) ≠ 0) ∧
    (let s : State := { ready with boot := { phase := .on, resetWait := some 0 } }; s.cpuRuns 0 = true ∧ s.odAnswers = false) ∧
    (256 < (257 : Word).toNat ∧ (32 : Word).toNat ≤ 256 ∧ (ready.cpu 0).staged = none) ∧
    ({ ready with cpus := [(0, { staged := some 0x081401 })] }.cpu 0).staged = some 0x081401 := by
  decide +kernel

def session0 (f : Session → Session) : Session := f { id := 5, client := 0xFE80 * 2 ^ 112 + 1, cport := 7, half := false, role := .operator, last := 0 }
def withSession (x : Session) : State :=
  { ready with mgmt := { addr := [0x20, 1] ++ zeros 13 ++ [1], sessions := [x] }, tsc := 1000 }
def dg (typ session seq : Nat) (body tag : List Byte) : Datagram :=
  { client := 0xFE80 * 2 ^ 112 + 1, cport := 7, host := ofBe ([0x20, 1] ++ zeros 13 ++ [1]), hport := 20563, magic := 0x5441, ver := 3, typ := typ,
    session := session, seq := seq, seg := 0, nseg := 1, body := body, tag := tag }

theorem gcmCrypt_twice (k iv bs : List Byte) : gcmCrypt k iv (gcmCrypt k iv bs) = bs := by
  apply List.ext_getElem
  · simp [gcmCrypt]
  · intro i h1 h2
    simp [gcmCrypt]

/-- A datagram of session `x` whose plaintext is `b`. -/
def sealed (x : Session) (typ : Nat) (b : List Byte) : Datagram :=
  let d := dg typ 5 1 (gcmCrypt x.kc (gcmIv x.ic (dg typ 5 1 [] [])) b) []
  { d with tag := mgTag x.kc (gcmIv x.ic d) (dgHeader d) b }

theorem own_host (x : Session) : (withSession x).ownAddr (ofBe ([0x20, 1] ++ zeros 13 ++ [1])) = true := by
  unfold State.ownAddr
  rw [Bool.or_eq_true]
  right
  show (!allZero ([0x20, 1] ++ zeros 13 ++ [1]) && decide (ofBe ([0x20, 1] ++ zeros 13 ++ [1]) = ofBe ([0x20, 1] ++ zeros 13 ++ [1]))) = true
  decide +kernel

theorem sealed_heard (x : Session) (typ : Nat) (b : List Byte) (hx : (withSession x).session 5 false = some x) (hb : b.length ≤ 1000) :
    (withSession x).hears (sealed x typ b) typ x b := by
  refine ⟨(by decide +kernel : ready.mgmtOn = true), rfl, ?_, hx, ?_, by simp [sealed, dg]⟩
  · have e : (sealed x typ b).host = ofBe ([0x20, 1] ++ zeros 13 ++ [1]) := rfl
    have hl : (gcmCrypt x.kc (gcmIv x.ic (dg typ 5 1 [] [])) b).length = b.length := by simp [gcmCrypt]
    have ht : ∀ k iv h c, (mgTag k iv h c).length = 16 := by intros; simp [mgTag, slice]
    simp only [State.dgramOk, e, own_host]
    simp only [sealed, dg, dgSize, ht, hl] at *
    simp [withSession]
    omega
  · have iv0 : gcmIv x.ic (sealed x typ b) = gcmIv x.ic (dg typ 5 1 [] []) := rfl
    have e : (sealed x typ b).body = gcmCrypt x.kc (gcmIv x.ic (dg typ 5 1 [] [])) b := rfl
    simp only [Session.open_, iv0, e, gcmCrypt_twice]
    rw [if_pos]
    rfl

/-- Datagrams outside a session, of a few bytes. -/
theorem plain_ok (x : Session) (typ session seq : Nat) (body : List Byte) (hb : body.length ≤ 1216) :
    (withSession x).dgramOk (dg typ session seq body []) = true := by
  have e : (dg typ session seq body []).host = ofBe ([0x20, 1] ++ zeros 13 ++ [1]) := rfl
  simp only [State.dgramOk, e, own_host]
  simp [dg, dgSize, withSession]
  omega

def x0 : Session := session0 id
def x1 : Session := session0 (fun x => { x with done := [(1, dg 0x12 5 1 [] [])], high := 1 })

theorem witness_SessionRequestsAndMessages :
    (let b : List Byte := [0x06, 0x07, 0, 0];
      (withSession x0).hears (sealed x0 0x10 b) 0x10 x0 b ∧ (sealed x0 0x10 b).session ≠ 0 ∧ x0.high ≤ (sealed x0 0x10 b).seq + 15 ∧
      x0.done.find? (fun p => decide (p.1 = (sealed x0 0x10 b).seq)) = none ∧ b.length = 4 ∧
      (withSession x1).hears (sealed x1 0x10 b) 0x10 x1 b ∧ x1.high ≤ (sealed x1 0x10 b).seq + 15 ∧
      x1.done.find? (fun p => decide (p.1 = (sealed x1 0x10 b).seq)) = some (1, dg 0x12 5 1 [] [])) ∧
    ((withSession x0).mgmtOn = true ∧ (withSession x0).dgramOk (dg 0x10 0 1 [0x06, 0x07, 0, 0] []) = true) ∧
    (let b : List Byte := [0x06, 0x07, 0, 0, 0, 0, 0, 4, 0, 0, 0, 9];
      (withSession x0).hears (sealed x0 0x11 b) 0x11 x0 b ∧ 8 ≤ b.length ∧ b.length = 8 + beAt b 6 2) ∧
    (withSession x0).hears (sealed x0 0x16 []) 0x16 x0 [] ∧
    (let b := List.replicate 9 (0 : Byte); (withSession x0).hears (sealed x0 0x13 b) 0x13 x0 b ∧ b.length = 9 ∧ beAt b 8 1 ≤ 3) ∧
    (let b := List.replicate 8 (0 : Byte); (withSession x0).hears (sealed x0 0x15 b) 0x15 x0 b ∧ b.length = 8) ∧
    (withSession x0).hears (sealed x0 0x17 []) 0x17 x0 [] ∧
    ((withSession x0).dgramOk (dg 0x16 6 1 [] []) = true ∧ (withSession x0).session 6 false = none) := by
  refine ⟨⟨sealed_heard _ _ _ (by decide +kernel) (by decide), by simp [sealed, dg], by decide, by simp [x0, session0], rfl,
    sealed_heard _ _ _ (by decide +kernel) (by decide), by decide, by simp [x1, session0, sealed, dg]⟩, ⟨by decide +kernel, plain_ok _ _ _ _ _ (by decide)⟩,
    ⟨sealed_heard _ _ _ (by decide +kernel) (by decide), by decide, by decide⟩, sealed_heard _ _ _ (by decide +kernel) (by decide),
    ⟨sealed_heard _ _ _ (by decide +kernel) (by decide), by decide, by decide⟩, ⟨sealed_heard _ _ _ (by decide +kernel) (by decide), by decide⟩,
    sealed_heard _ _ _ (by decide +kernel) (by decide), plain_ok _ _ _ _ _ (by decide), by decide +kernel⟩

/-- A HELLO comes in two segments. -/
def hello1 : Datagram := { dg 1 0 1 (List.replicate 1216 1) [] with nseg := 2 }
def hello2 : Datagram := { dg 1 0 1 [1, 3] [] with nseg := 2, seg := 1 }
def helloHalf : State :=
  { withSession x0 with mgmt := { (withSession x0).mgmt with sessions := [], asm := [
    { session := 0, seq := 1, typ := 1, client := hello1.client, cport := 7, nseg := 2, since := 0, segs := [(0, hello1.body)] }] } }

theorem witness_SessionsOpenAndEnd :
    ((withSession x0).mgmtOn = true ∧ (withSession x0).dgramOk hello1 = true ∧ hello1.typ = 1 ∧ hello1.session = 0 ∧ hello1.tag = [] ∧
      hello1.nseg ≠ 1 ∧ ∀ e ∈ (withSession x0).mgmt.asm, e.of hello1 = false) ∧
    (helloHalf.mgmtOn = true ∧ helloHalf.dgramOk hello2 = true ∧ (helloHalf.gather hello2).2 = some (hello1.body ++ [1, 3]) ∧
      (hello1.body ++ [1, 3]).length = 1218 ∧ leAt (hello1.body ++ [1, 3]) 1216 1 ≤ leAt (hello1.body ++ [1, 3]) 1217 1 ∧
      (helloHalf.mgmt.hellos.filter (fun n => decide (helloHalf.tsc < n + 1000 * msTicks))).length < 16 ∧
      helloHalf.purge.mgmt.sessions.length < 8) ∧
    (let x := session0 (fun x => { x with half := true, since := 0 });
      (withSession x).mgmtOn = true ∧ (withSession x).dgramOk (dg 3 5 1 [] []) = true ∧ (withSession x).session 5 true = some x ∧
      ((withSession x).gather (dg 3 5 1 [] [])).2 = some []) := by
  have h : ∀ (s : State) (d : Datagram), s.mgmt.addr = (withSession x0).mgmt.addr → d.host = ofBe ([0x20, 1] ++ zeros 13 ++ [1]) → s.ownAddr d.host = true := by
    intro s d e f
    have := own_host x0
    unfold State.ownAddr at *
    rw [e, f]
    exact this
  refine ⟨⟨by decide +kernel, ?_, rfl, rfl, rfl, by decide, by decide⟩, ⟨by decide +kernel, ?_, by decide +kernel, by decide +kernel,
    by decide +kernel, by decide +kernel, by decide +kernel⟩, by decide +kernel, plain_ok _ _ _ _ _ (by decide), by decide +kernel, by decide +kernel⟩
  · simp only [State.dgramOk, h (withSession x0) hello1 rfl rfl]
    decide +kernel
  · simp only [State.dgramOk, h helloHalf hello2 rfl rfl]
    decide +kernel

theorem witness_EventsAreDelivered :
    (let x := session0 (fun x => { x with subscribed := true });
      let s : State := { withSession x with log := { next := 1, recs := [(0, { code := 0x0201, sev := 1 })] } };
      s.mgmtOn = true ∧ s.session 5 false = some x ∧ x.subscribed = true ∧ (x.sent.map (fun m => m.2.2.1.length)).sum < 64 ∧
      ((s.eventsFrom 0 x.minSev).take 16).getLast? = some { code := 0x0201, sev := 1 } ∧ x.evSeq + 1 ≠ 0xFFFFFFFF) ∧
    (let m := (3, 0, [4], dg 0x14 5 3 [] []);
      let x := session0 (fun x => { x with sent := [m], last := 99999999 });
      let s : State := { withSession x with tsc := 100000000 };
      s.mgmtOn = true ∧ s.session 5 false = some x ∧ x.sent.find? (fun m => decide (m.1 = 3 ∧ m.2.1 + 100000000 ≤ s.tsc)) = some m) ∧
    ((withSession x0).mgmtOn = true ∧ (withSession x0).reachesAddr (0xFE80 * 2 ^ 112 + 1) = true ∧
      (withSession x0).ownAddr (ofBe ([0x20, 1] ++ zeros 13 ++ [1])) = true) := by
  refine ⟨by decide +kernel, by decide +kernel, by decide +kernel, by decide +kernel, own_host _⟩

/-! Events, records, security, boot. -/

def ev0 : Ev := { code := 0x0201, sev := 1, tsc := 10 }
def logged (l : LogSt) (tsc : Nat) : State := { ready with log := l, tsc := tsc }

theorem witness_EventsReachTheLog :
    ((logged { raised := [ev0] } 5000).log.raised = [ev0] ∧ ev0.tsc + 1600 < 5000 ∧
      (logged { raised := [ev0] } 5000).log.next - (logged { raised := [ev0] } 5000).log.oldest < 8192) ∧ (500 ≤ ev0.tsc + 1600) ∧
    (let s := logged { held := [ev0, { ev0 with tsc := 11 }] } 5000;
      ev0 ∈ s.log.held ∧ (∀ x ∈ s.log.held, x ≠ ev0 → ev0.key < x.key) ∧ s.clock.lost = false ∧ ev0.tsc + 1600 ≤ s.tsc) ∧
    (8192 ≤ (logged { next := 8192 } 0).log.next - (logged { next := 8192 } 0).log.oldest) ∧
    (let b := leBytes 2 0xF001 ++ List.replicate 42 (0 : Byte);
      ready.admits owner 0x0D03 b ∧ b.length = 44 ∧ 0xF000 ≤ leAt b 0 2 ∧ leAt b 2 1 ≤ 3 ∧ leAt b 3 1 = 0) ∧
    (let b := leBytes 2 0xEFFF ++ List.replicate 42 (0 : Byte);
      ready.admits owner 0x0D03 b ∧ b.length = 44 ∧ (leAt b 0 2 < 0xF000 ∨ 3 < leAt b 2 1 ∨ leAt b 3 1 ≠ 0)) := by
  unfold State.admits; decide +kernel

def flashing (f : FlashSt) : State := { ready with flash := f }
def one : List Byte := leBytes 1 (1 : BitVec 8).toNat

theorem witness_FlashRecordsAndSlots_configuration :
    (ready.admits owner 0x0203 one ∧ ready.admits owner 0x0204 one ∧ ready.flash.cfgBusy = none ∧
      (flashing { cfgBusy := some none }).admits owner 0x0203 one ∧ (flashing { cfgBusy := some none }).flash.cfgBusy ≠ none) ∧
    ((flashing { cfgBusy := some (some (List.replicate 2100 7)) }).busUp = true ∧ (List.replicate 2100 (7 : Byte)).length = 2100 ∧
      ((flashing { cfgBusy := some none }).hub 0).fenced = false) ∧
    (let s : State := { flashing { cfgBusy := some none } with hubs := [(0, { fenced := true })] };
      s.busUp = true ∧ s.flash.cfgBusy ≠ none ∧ (s.hub 0).fenced = true) := by
  unfold State.admits; decide +kernel

theorem witness_FlashRecordsAndSlots_slots :
    (ready.admits owner 0x0E81 one ∧ ready.fwBusy = false ∧ (flashing { fwErasing := true }).fwBusy = true) ∧
    ((flashing { fwErasing := true }).flash.fwErasing = true ∧ (flashing { fwErasing := true }).busUp = true ∧
      ((flashing { fwErasing := true }).hub 0).fenced = false) ∧
    (let b := List.replicate 256 (1 : Byte);
      ready.admits owner 0x0E83 b ∧ b.length = 256 ∧ ready.flash.fwOffset + 256 ≤ 0x1800000 ∧ ready.flashErased ready.flash.fwTarget 0 256 = true ∧
      0x1800000 < (flashing { fwOffset := 0x1800000 }).flash.fwOffset + 256) ∧
    ready.admits owner 0x0E84 one ∧
    (let s : State := { flashing { fwErasing := true } with hubs := [(0, { fenced := true })] };
      s.flash.fwErasing = true ∧ s.busUp = true ∧ (s.hub 0).fenced = true) := by
  unfold State.admits; decide +kernel

theorem witness_ResetsWaitForTheirRecord :
    (ready.admits owner 0x0202 (leBytes 1 (0xA5 : BitVec 8).toNat) ∧ (ready.hub 0).fenced = false ∧ ready.box.writing = none) ∧
    (let s : State := { ready with hubs := [(0, { fenced := true })] };
      s.admits owner 0x0202 (leBytes 1 (0xA5 : BitVec 8).toNat) ∧ (s.hub 0).fenced = true) ∧
    (ready.admits owner 0x0202 one ∧ (1 : BitVec 8) ≠ 0xA5) ∧ ready.admits owner 0x0C34 one ∧
    (let s : State := { ready with sec := { dbgOpen := true, dbgEnd := 5 } };
      s.busUp = true ∧ s.sec.dbgOpen = true ∧ s.tsc < s.sec.dbgEnd ∧ s.boot.resetWait = none) ∧
    (let s : State := { ready with sec := { dbgOpen := true } };
      s.busUp = true ∧ s.sec.dbgOpen = true ∧ s.sec.dbgEnd ≤ s.tsc ∧ s.boot.resetWait = none ∧ (s.hub 0).fenced = false ∧ s.box.writing = none) := by
  unfold State.admits; decide +kernel

theorem witness_OwnershipMovesFuses :
    ready.admits owner 0x0C05 one ∧ ready.admits owner 0x0C24 one ∧
    (let s : State := { ready with sec := { runningSvn := 3 } };
      s.admits owner 0x0C24 one ∧ s.fuses.svnFloor < s.sec.runningSvn) ∧ ready.sec.runningSvn ≤ ready.fuses.svnFloor := by
  unfold State.admits; decide +kernel

theorem witness_JobsTakeAndReleaseTheModule :
    (ready.admits owner 0x0C10 (List.replicate 40 1) ∧ (List.replicate 40 (1 : Byte)).length = 40 ∧ ready.jobBusy = false) ∧
    ready.admits owner 0x0C12 one ∧ ready.admits owner 0x0C13 (List.replicate 32 1) ∧
    (let s : State := { ready with life := 4, sched := { st := 3 } };
      s.admits owner 0x0C10 (List.replicate 40 1) ∧ s.admits owner 0x0C12 one ∧ s.jobBusy = true) := by
  unfold State.admits; decide +kernel

theorem witness_AttestationDebugEntropy :
    (ready.admits owner 0x0C21 (List.replicate 32 1) ∧ (List.replicate 32 (1 : Byte)).length = 32) ∧
    (let s : State := { ready with sec := { nonce := some [1] } }; s.sec.nonce = some [1] ∧ s.busUp = true) ∧
    (ready.admits owner 0x0C33 one ∧ ready.logHub ∉ ready.sec.entropyBad) ∧
    (ready.busUp = true ∧ (ready.hub 0).clken.getLsbD 4 = true ∧ (ready.hub 0).fenced = false) := by
  unfold State.admits; decide +kernel

def phased (p : Phase) (b : BootSt) : State := { boot := { b with phase := p } }

theorem witness_PowerAndPins :
    State.reset.boot.phase = .off ∧ (phased .charging {}).boot.phase = .charging ∧
    ((phased .on {}).boot.pinLow = false ∧ (phased .on {}).boot.phase = .on) ∧ (phased .held { pinLow := true }).boot.pinLow = true ∧
    (phased .safe {}).boot.phase = .safe ∧ (phased .charging {}).boot.pinLow = false ∧ ready.powered = true := by
  decide +kernel

def testing (n : Nat) : State := { ready with life := 1, boot := { ready.boot with item := n } }

theorem witness_BootEndsInReadyOrShell :
    (let s : State := { phased .on {} with clock := { locked := true } };
      s.boot.phase = .on ∧ s.clock.locked = true ∧ s.life = 0 ∧ s.boot.rom = false ∧ (s.hub 0).fenced = false ∧
      (({ s with hubs := [(0, { fenced := true })] } : State).hub 0).fenced = true) ∧
    (let s : State := { ready with life := 0, boot := { ready.boot with accepted := true } };
      s.busUp = true ∧ s.life = 0 ∧ s.boot.accepted = true ∧ (s.hub 0).fenced = false) ∧
    ((testing 3).busUp = true ∧ (testing 3).life = 1 ∧ (testing 3).boot.item ≠ 0 ∧ (testing 3).boot.item ≠ 9 ∧ (testing 9).boot.item = 9 ∧
      ((testing 3).hub 0).fenced = false) ∧
    (itemOutcome 3 { repaired := false, portFail := 0, southFault := false, otherFault := true, laneRepairs := [] } = 4 ∧
      itemOutcome 9 { repaired := true, portFail := 0, southFault := false, otherFault := false, laneRepairs := [] } ≠ 4) ∧
    (let s : State := { testing 3 with tsc := 36000000000 }; s.boot.testStart + 36000000000 ≤ s.tsc) := by
  decide +kernel

theorem witness_RecordsOfTheBlackBox :
    (ready.admits owner 0x0E04 one ∧ (ready.hub 0).fenced = false ∧ ready.box.writing = none) ∧
    (let s : State := { ready with hubs := [(0, { fenced := true })], box := { newest := 3 } };
      s.admits owner 0x0E04 one ∧ (s.hub 0).fenced = true ∧ s.admits owner 0x0E01 (leBytes 8 (2 : BitVec 64).toNat)) ∧
    (let s : State := { ready with box := { newest := 3 } };
      s.admits owner 0x0E01 (leBytes 8 (2 : BitVec 64).toNat) ∧ (1 ≤ 2 ∧ 2 ≤ s.box.newest ∧ s.box.newest < 2 + 8192) ∧
      ¬ (1 ≤ 5 ∧ 5 ≤ s.box.newest ∧ s.box.newest < 5 + 8192)) ∧
    (let s : State := { ready with box := { erasing := [5] } }; 5 ∈ s.box.erasing ∧ s.clock.lost = false) := by
  unfold State.admits; decide +kernel

def recording : State := { ready with box := { writing := some (1, List.replicate 4096 1) } }

theorem witness_RecordsOfTheBlackBox_written :
    (recording.box.waiting = none ∧ recording.busUp = true ∧ recording.boot.resetWait = none ∧ (recording.hub 0).fenced = false) ∧
    (let s : State := { recording with boot := { phase := .on, resetWait := some 2 }, hubs := [(0, { fenced := true })] };
      s.busUp = true ∧ (s.hub 0).fenced = true ∧ s.boot.resetWait = some 2) := by decide +kernel

theorem witness_RecordsOfTheBlackBox_writing :
    recording.box.writing = some (1, List.replicate 4096 1) ∧ (List.replicate 4096 (1 : Byte)).length = 4096 :=
  ⟨rfl, List.length_replicate⟩

theorem witness_RecordsOfTheBlackBox_asked : recording.admits owner 0x0E04 one ∧ recording.box.writing ≠ none := by
  refine ⟨?_, fun h => Option.some_ne_none _ (witness_RecordsOfTheBlackBox_writing.1.symm.trans h)⟩
  unfold State.admits; decide +kernel

theorem witness_StepRunsTheFrontCommand :
    ({ ready with pending := [.hbmRefresh 0] } : State).pending = .hbmRefresh 0 :: [] ∧ ready.pending = [] := by
  decide +kernel

/-- A witness for FusesMoveOneWay: a step that answers a next state. -/
theorem witness_FusesMoveOneWay : ∃ t, step { ready with pending := [.hbmRefresh 0] } = Host.Outcome.next t := ⟨_, rfl⟩

/-- A witness for FusesStayLegal: legal fuses, and a step from them. -/
theorem witness_FusesStayLegal :
    ready.fuses.Legal ∧ ∃ t, step { ready with pending := [.hbmRefresh 0] } = Host.Outcome.next t :=
  ⟨⟨by decide, by decide, by decide⟩, _, rfl⟩

/-! Well-formedness: an ill-formed command for each check. -/

def wfFrame : Frame :=
  { word := { slotc := List.replicate 20 0, fseq := 0, ackseq := 0, nak := false, crkind := 0, crcnt := 0, keyph := 0, tagpart := 0 },
    slots := List.replicate 20 (List.replicate 256 0) }
def wfObs : FrameObs := { errors := List.replicate 8 0, lane := [0, 1, 2, 3, 4, 5, 6, 7] }
def wfMsg : LinkMsg := { ver := 3, typ := 1, rsvd := 0, mseq := 0, body := [] }
def wfDatagram : Datagram :=
  { client := 1, cport := 1, host := 2, hport := 1, magic := 0x5441, ver := 3, typ := 1, session := 0, seq := 1, seg := 0,
    nseg := 1, body := [], tag := [] }
def wfReport : ItemReport := { repaired := false, portFail := 0, southFault := false, otherFault := false, laneRepairs := [] }

theorem test_wf_accepts : wfFrame.wf = true ∧ wfObs.wf = true ∧ wfMsg.wf = true ∧ (pk0 1).wf = true ∧ wfDatagram.wf = true ∧ wfReport.wf = true ∧
    (Instr.frameReceive 0 wfFrame wfObs).wf = true := by decide +kernel

theorem test_wf_frame_slots : (Instr.frameReceive 0 { wfFrame with slots := [] } wfObs).wf = false := by decide +kernel
theorem test_wf_frame_word : (Instr.frameReceive 0 { wfFrame with word := { wfFrame.word with fseq := 4096 } } wfObs).wf = false ∧
    (Instr.frameReceive 0 { wfFrame with word := { wfFrame.word with ackseq := 4096 } } wfObs).wf = false ∧
    (Instr.frameReceive 0 { wfFrame with word := { wfFrame.word with crkind := 8 } } wfObs).wf = false ∧
    (Instr.frameReceive 0 { wfFrame with word := { wfFrame.word with crcnt := 2048 } } wfObs).wf = false ∧
    (Instr.frameReceive 0 { wfFrame with word := { wfFrame.word with keyph := 2 } } wfObs).wf = false ∧
    (Instr.frameReceive 0 { wfFrame with word := { wfFrame.word with slotc := [8] } } wfObs).wf = false := by decide +kernel
theorem test_wf_lanes : (Instr.frameReceive 0 wfFrame { wfObs with lane := [0] }).wf = false ∧
    (Instr.frameReceive 0 wfFrame { wfObs with errors := [545, 0, 0, 0, 0, 0, 0, 0] }).wf = false := by decide +kernel
theorem test_wf_link_message : (Instr.hello 0 { wfMsg with ver := 256 }).wf = false ∧ (Instr.keepalive 0 { wfMsg with typ := 256 }).wf = false ∧
    (Instr.caps 0 { wfMsg with rsvd := 2 ^ 48 }).wf = false ∧ (Instr.verdict 0 { wfMsg with mseq := 2 ^ 32 }).wf = false := by decide +kernel
theorem test_wf_packet : (Instr.pktRead 0 ⟨{ pk0 5 with txn := 65536 }, []⟩).wf = false ∧ (Instr.pktStop 0 { pk0 1 with e2e := true }).wf = false ∧
    (Instr.pktData 0 { pk0 8 with dstdev := 2 ^ 17 }).wf = false ∧ (Instr.pktReel 0 { pk0 11 with stream := 2 ^ 13 }).wf = false ∧
    (Instr.pktAck 0 { pk0 0x21 with code := 8 }).wf = false := by decide +kernel
theorem test_wf_datagram : (Instr.toaHello { wfDatagram with seg := 256 }).wf = false ∧ (Instr.toaRead { wfDatagram with tag := [0] }).wf = false := by
  decide +kernel
theorem test_wf_width : (Instr.controlWindowWrite 0 0 3 0).wf = false ∧ (Instr.odWindowLoad 0 0 16).wf = false ∧
    (Instr.odWindowStore 0 0 0 0).wf = false ∧ (Instr.controlCoreAccess 0 .load 0 5 0 .clean ⟨[], [], 0⟩).wf = false := by decide +kernel
theorem test_wf_codeword : (Instr.hbmScrub 0 ⟨[(68, 1)], [], 0⟩).wf = false ∧ (Instr.hbmRequestComplete 0 0 ⟨[], [(68, 1)], 0⟩).wf = false := by
  decide +kernel
theorem test_wf_spad_word : (Instr.spadScrub 0 393216 .clean).wf = false ∧ (Instr.spadScrub 0 393215 .clean).wf = true := by decide +kernel
theorem test_wf_flit : (Instr.d2dFlitReceive 0 []).wf = false := by decide +kernel
theorem test_wf_peer_key : (Instr.expectedPeerWrite owner 0 (.key [])).wf = false := by decide +kernel
theorem test_wf_stream : (Instr.packetCloseTimer (2 ^ 13)).wf = false := by decide +kernel
theorem test_wf_session : (Instr.eventSend 0).wf = false ∧ (Instr.eventResend 1 0).wf = false ∧ (Instr.authTimeout 0).wf = false ∧
    (Instr.sessionIdleTimeout (2 ^ 32)).wf = false ∧ (Instr.reassemblyTimeout (2 ^ 32) 1).wf = false := by decide +kernel
theorem test_wf_report : (Instr.selftestItem { wfReport with laneRepairs := List.replicate 25 0 }).wf = false := by decide +kernel
theorem test_wf_address : (Instr.managementPortFrame { client := 2 ^ 128, host := 0, len := 64, kind := .discarded }).wf = false := by decide +kernel

/-! The manual's worked examples. -/

/-- Chapter 2, "one tie, two modes". -/
theorem test_round_tie : cvt false cFP32 cBF16 0x3F808000 = (0x3F81, fINX) ∧ cvt true cFP32 cBF16 0x3F808000 = (0x3F80, fINX) := by decide +kernel
theorem test_round_e4m3 : cvt false cFP32 cE4M3 0x41880000 = (0x59, fINX) ∧ cvt true cFP32 cE4M3 0x41880000 = (0x58, fINX) ∧
    cvt false cFP32 cE4M3 0xC1880000 = (0xD9, fINX) ∧ cvt true cFP32 cE4M3 0x43FA0000 = (0x7E, fOVF ||| fINX) ∧
    cvt false cFP32 cE4M3 0x43E80000 = (0x7E, fOVF ||| fINX) ∧ cvt true cFP32 cE4M3 0x43E80000 = (0x7E, fINX) := by decide +kernel
theorem test_round_subnormal : mulF false cFP32 0x00C00000 0x3F000000 = (0, fUNF) ∧ mulF true cFP32 0x00C00000 0x3F000000 = (0x00600000, 0) := by
  decide +kernel

/-- Chapter 2, "choosing a scale". -/
theorem test_scale : chooseScale cINT8 (0x40400000 :: List.replicate 31 0) = some 0x3CC2 ∧ quant false cINT8 0x40400000 0x3CC2 = (127, fINX) := by
  decide +kernel

/-- Chapter 3, "a small term lost after cancellation". -/
def cancelling : List (Nat × Nat) := (0x3FC0, 0x3FC0) :: (0xBFC0, 0x3FC0) :: (0x2180, 0x3FC0) :: List.replicate 13 (0, 0x3F80)
theorem test_group_cancels : groupAcc false cBF16 cBF16 0 cancelling 0 0 0 = (0, fINX) ∧
    groupAcc true cBF16 cBF16 0 cancelling 0 0 0 = (0x21C00000, 0) := by decide +kernel

/-- Chapter 3, "a NaN and an over-range product in one dot product", cases A, B and C. -/
def hazards (n : Nat) (a b : Nat × Nat) : List (Nat × Nat) :=
  List.replicate 3 (0x3F80, 0x4000) ++ a :: List.replicate 5 (0x3F80, 0x4000) ++ b :: List.replicate n (0x3F80, 0x4000)
theorem test_group_fast_nan : groupAcc false cBF16 cBF16 0 (hazards 6 (0x7FC5, 0x4000) (0x7180, 0x7180)) 0 0 0 = (0x7FC00000, fINV ||| fOVF) ∧
    groupAcc false cBF16 cBF16 0 (hazards 6 (0x7180, 0x7180) (0x7FC5, 0x4000)) 0 0 0 = (0x7FC00000, fINV ||| fOVF) := by decide +kernel
theorem test_group_strict_nan : groupAcc true cBF16 cBF16 0 (hazards 6 (0x7FC5, 0x4000) (0x7180, 0x7180)) 0 0 0 = (0x7FC50000, 0) ∧
    groupAcc true cBF16 cBF16 0 (hazards 6 (0x7180, 0x7180) (0x7FC5, 0x4000)) 0 0 0 = (0x7FC50000, fOVF ||| fINX) ∧
    groupAcc true cBF16 cBF16 0 (hazards 6 (0x7F85, 0x4000) (0x7180, 0x7180)) 0 0 0 = (0x7FC50000, fINV) := by decide +kernel

/-- Chapter 4, "a seam crossing". -/
def seamEnds : List (Word × Word) :=
  [(0, 0x3E800000), (0x3E800000, 0x3EC00000), (0x3EC00000, 0x3F000000), (0x3F000000, 0x3F400000), (0x3F400000, 0x3F600000),
   (0x3F600000, 0x3F700000), (0x3F700000, 0x3F780000), (0x3F780000, 0x3F800000)]
def seam (i : Nat) : Word :=
  if i = 0 then 0x03034000 else if i = 1 then 0xFE000000 else if i < 16 then 0
  else
    let s := (i - 16) / 8
    let e := seamEnds.getD s (0, 0)
    if i % 8 = 0 then e.1
    else if i % 8 = 1 then (if s = 3 then 0x3E800000 else if s = 4 then 0x3E000000 else 0)
    else if i % 8 = 2 then (if s = 3 then 0x3C800000 else 0)
    else if i % 8 = 4 then e.1
    else if i % 8 = 5 then e.2
    else 0
theorem test_seam : evalFn seam seam false cFP32 cFP32 0x3F7FC000 = (0x3F400000, 0) ∧ evalFn seam seam false cFP32 cFP32 0x3F800000 = (0x3F400000, 0) ∧
    evalFn seam seam false cFP32 cFP32 0x3F802000 = (0x3F402000, 0) := by decide +kernel

/-! The commands. -/

/-- CRC-32C of the string "123456789" is 0xE306_9283, the check value of its standard. -/
theorem test_crc : crc32c [0x31, 0x32, 0x33, 0x34, 0x35, 0x36, 0x37, 0x38, 0x39] = 0xE3069283 := by decide +kernel

/-- R131: MX.OPEN binds slot 0 and the sequencer goes on to the next command. -/
def stepOpen : State := { at_ wOpen {} with pending := [.mxOpen 0 ⟨wOpen, []⟩] }
def after (s : State) (f : State → Bool) : Bool := match step s with | .next t => f t | _ => false
theorem test_open_binds : after stepOpen (fun t => decide (((t.core 0).mxe.slot 0).st ≠ 0)) = true := by decide +kernel
theorem test_open_advances : after stepOpen (fun t => decide ((t.core 0).seq.pc = 16)) = true := by decide +kernel

/-- The queue is taken from its front; an empty one lets a tick of the TSC pass. -/
theorem test_queue : after { ready with pending := [.hbmRefresh 0, .powerOn] } (fun t => decide (t.pending = [.powerOn])) = true := by decide +kernel
theorem test_tick : after ready (fun t => decide (t.tsc = ready.tsc + 1)) = true := by decide +kernel

/-- R412, R413: ScheduleState is read-only (ACCESS), 0x0600.9 does not exist (NOSUB), and two bytes do not fit a U8 (TYPE). -/
theorem test_request_order : (ready.odWrite owner 0x0600 0 [3]).2 = 1 ∧ (ready.odWrite owner 0x0600 9 [3]).2 = 5 ∧
    (ready.odWrite owner 0x0603 0 [3, 0]).2 = 6 := by decide +kernel

end Sys2Proof.Tests
end

/-! SUPPORT. A read through the slices of device memory touches the memory and the event log only. -/

namespace Sys2Proof.Machine

/-- The module differs in its device memory and in the event log only. -/
def MemOnly (s t : State) : Prop := t = { s with mem := t.mem, log := t.log }

theorem MemOnly.refl (s : State) : MemOnly s s := rfl

theorem MemOnly.trans {s t u : State} (h : MemOnly s t) (g : MemOnly t u) : MemOnly s u := by
  unfold MemOnly at h g ⊢
  rw [g, h]

theorem MemOnly.cores {s t : State} (h : MemOnly s t) : t.cores = s.cores := by
  rw [h]

theorem MemOnly.cpu {s t : State} (h : MemOnly s t) (c : Nat) : t.cpu c = s.cpu c := by
  rw [h]
  rfl

theorem memOnly_updRegion (s : State) (r : Nat) (f : RegionSt → RegionSt) : MemOnly s (s.updRegion r f) := rfl

theorem memOnly_setSector (s : State) (st a : Nat) (bs : List Byte) : MemOnly s (s.setSector st a bs) := rfl

theorem memOnly_setErr (s : State) (st a : Nat) (e : HbmErr) : MemOnly s (s.setErr st a e) := rfl

theorem memOnly_setLines (s : State) (st a : Nat) (ls : List Line) : MemOnly s (s.setLines st a ls) := rfl

theorem memOnly_stackWrite (s : State) (st a : Nat) (bs : List Byte) : MemOnly s (s.stackWrite st a bs) := rfl

theorem memOnly_post (s : State) (code sev src : Nat) (args : List Nat) : MemOnly s (s.post code sev src args) := by
  unfold State.post
  split <;> rfl

theorem memOnly_postUe (s : State) (st a : Nat) : MemOnly s (s.postUe st a) :=
  (memOnly_updRegion s st _).trans (memOnly_post _ _ _ _ _)

theorem memOnly_countCe (s : State) (st n : Nat) : MemOnly s (s.countCe st n) := by
  simp only [State.countCe]
  split
  · exact (memOnly_updRegion s st _).trans (memOnly_post _ _ _ _ _)
  · exact memOnly_updRegion s st _

theorem memOnly_stackReadBy (s : State) (policy st a : Nat) (err : HbmErr) : MemOnly s (s.stackReadBy policy st a err).1 := by
  have counted : ∀ n, MemOnly s (if n = 0 then s else s.countCe st n) := by
    intro n
    split
    · exact .refl s
    · exact memOnly_countCe s st n
  simp only [State.stackReadBy]
  split
  · exact memOnly_postUe s st a
  · split
    · exact counted _
    · exact (((counted _).trans (memOnly_setErr _ st a _)).trans (memOnly_setSector _ st a _)).trans (memOnly_countCe _ st 1)
    · exact ((counted _).trans (memOnly_setErr _ st a _)).trans (memOnly_postUe _ st a)

theorem memOnly_toStack (s : State) (r : Nat) (q : MemReq) : MemOnly s (s.toStack r q) := by
  simp only [State.toStack, State.takeSlotFor]
  split <;> exact memOnly_updRegion s r _

theorem memOnly_evict (s : State) (st n : Nat) (v : Line) : MemOnly s (s.evict st n v) := by
  unfold State.evict
  split
  · exact (memOnly_stackWrite s st _ _).trans (memOnly_toStack _ st _)
  · exact .refl s

theorem memOnly_allocLine (s : State) (st n : Nat) (l : Line) : MemOnly s (s.allocLine st n l) := by
  simp only [State.allocLine]
  generalize (if l.keep then _ else _ : List Line) = kept
  split
  · exact memOnly_setLines s st _ _
  · split
    · exact memOnly_setLines s st _ _
    · exact (memOnly_evict s st n _).trans (memOnly_setLines _ st _ _)

theorem memOnly_touchLine (s : State) (st : Nat) (l : Line) (hint : Nat) : MemOnly s (s.touchLine st l hint) := by
  simp only [State.touchLine]
  split <;> exact memOnly_setLines s st _ _

theorem memOnly_mscReadBy (s : State) (policy n st a hint : Nat) (err : HbmErr) :
    MemOnly s (s.mscReadBy policy n st a hint err).1 := by
  have stack := memOnly_stackReadBy s policy st a err
  simp only [State.mscReadBy]
  split
  · split
    · exact memOnly_setLines s st a _
    · split
      · exact .refl s
      · exact memOnly_touchLine s st _ _
  · split
    · exact stack
    · split
      · exact stack.trans (memOnly_allocLine _ st n _)
      · exact stack

theorem memOnly_foldl_fst {α β : Type} (f : State × β → α → State × β) (h : ∀ p x, MemOnly p.1 (f p x).1) (xs : List α) (p : State × β) :
    MemOnly p.1 (xs.foldl f p).1 := by
  induction xs generalizing p with
  | nil => exact .refl p.1
  | cons x xs ih => exact (h p x).trans (ih (f p x))

/-- A read of device memory leaves every unit outside the memory, and every field outside the log, as it was (R191, R206). -/
theorem memOnly_memRead (s : State) (w o n hint : Nat) (err : HbmErr) : MemOnly s (s.memRead w o n hint err).1 := by
  refine memOnly_foldl_fst _ (fun p _ => ?_) _ (s, some [])
  exact memOnly_mscReadBy p.1 _ w _ _ hint err

end Sys2Proof.Machine

/-! SUPPORT. What an access of a control core does, by the place it reaches (R178, R179). -/

namespace Sys2Proof.Machine

@[simp] theorem cpu_cpuOut (s : State) (c d : Nat) (bus : Bool) (v : Nat) :
    (s.cpuOut c bus v).cpu d = if d = c then { s.cpu c with bus := bus, value := v } else s.cpu d := by
  simp [State.cpuOut]

@[simp] theorem core_cpuOut (s : State) (c d : Nat) (bus : Bool) (v : Nat) : (s.cpuOut c bus v).core d = s.core d := rfl

@[simp] theorem cpu_spadWrite (s : State) (c d a : Nat) (bs : List Byte) : (s.spadWrite c a bs).cpu d = s.cpu d := rfl

theorem naturally_of_word {off width : Nat} (hw : width = 4 ∨ width = 8) (ho : off % width = 0) : naturally off width = true := by
  rcases hw with rfl | rfl <;> simp [naturally, ho]

@[simp] theorem lineEcc_clean (s : State) (st a : Nat) : s.lineEcc st a .clean = s := by
  unfold State.lineEcc
  split
  · contradiction
  · rfl

/-- A control core that executes reaches memory and control windows by `State.cpuAccess`; only the object dictionary window is apart
(R415). -/
theorem exec_controlCoreAccess {s : State} {cpu : Fin 16} {off : BitVec 40} (hrun : s.cpuRuns cpu = true)
    (hod : ∀ rel, placeOf off.toNat ≠ .od rel) (a : Access) (width : Nat) (v : BitVec 64) (ecc : Ecc) (err : HbmErr) :
    exec (.controlCoreAccess cpu a off width v ecc err) s = .next (s.cpuAccess cpu a off.toNat width v ecc err) := by
  show execControlCoreAccess cpu a off width v ecc err s = _
  unfold execControlCoreAccess
  rw [hrun]
  cases hp : placeOf off.toNat with
  | od rel => exact absurd hp (hod rel)
  | _ => rfl

theorem gives_controlCoreAccess {s : State} {cpu : Fin 16} {off : BitVec 40} (hrun : s.cpuRuns cpu = true)
    (hod : ∀ rel, placeOf off.toNat ≠ .od rel) {a : Access} {width : Nat} {v : BitVec 64} {ecc : Ecc} {err : HbmErr} {P : State → Prop}
    (h : P (s.cpuAccess cpu a off.toNat width v ecc err)) : Gives (.controlCoreAccess cpu a off width v ecc err) s P :=
  ⟨_, exec_controlCoreAccess hrun hod a width v ecc err, h⟩

section
variable {s : State} {off c x o width cpu : Nat} {a : Access} {v : BitVec 64} {ecc : Ecc} {err : HbmErr}

theorem cpuAccess_spad (hp : placeOf off = .spad c x) (hw : 4 ≤ width) (hn : naturally off width = true) (hg : s.clkOn c 4 = true) :
    s.cpuAccess cpu a off width v ecc err = s.spadAccess cpu a c x width v ecc := by
  simp [State.cpuAccess, hp, hn, State.gatedAt, hg, Nat.not_lt.mpr hw]

theorem cpuAccess_hbm (hp : placeOf off = .hbm o) (hn : naturally off width = true) (hg : s.gatedAt (.hbm o) = false) :
    s.cpuAccess cpu a off width v ecc err =
      if s.sliceWaits (cpuStream (cpu / 8)) o then s else s.hbmAccess cpu a o width v ecc err := by
  simp [State.cpuAccess, hp, hn, hg]

/-- An access to a scratchpad word without an error: what it leaves there and what it returns (R179, R185). -/
theorem spadAccess_clean (s : State) (c x width : Nat) : s.spadAccess cpu a c x width v .clean =
    (if a = .load then s else s.spadWrite c x (leBytes width (amoNext a width (ofLe (s.spadRead c x width)) v.toNat))).cpuOut cpu false
      (if a = .store then 0 else ofLe (s.spadRead c x width)) := by
  simp only [State.spadAccess, State.spadEcc, ite_self]

/-- A load from HBM of a word without an error returns its bytes (R179, R191). -/
theorem hbmAccess_load {b : List Byte} (h : (s.memRead (cpuStream (cpu / 8)) o width 0 err).2 = some b) :
    s.hbmAccess cpu .load o width v .clean err = (s.memRead (cpuStream (cpu / 8)) o width 0 err).1.cpuOut cpu false (ofLe b) := by
  simp [State.hbmAccess, h]

theorem cpuAccess_hbm_unaligned (hp : placeOf off = .hbm o) (hn : naturally off width = false) :
    s.cpuAccess cpu a off width v ecc err = s.cpuOut cpu true 0 := by
  simp [State.cpuAccess, hp, hn]

theorem cpuAccess_spad_unaligned (hp : placeOf off = .spad c x) (hn : naturally off width = false) :
    s.cpuAccess cpu a off width v ecc err = s.cpuOut cpu true 0 := by
  simp [State.cpuAccess, hp, hn]

theorem cpuAccess_spad_narrow (hp : placeOf off = .spad c x) (hw : width < 4) :
    s.cpuAccess cpu a off width v ecc err = s.cpuOut cpu true 0 := by
  simp [State.cpuAccess, hp, hw]

theorem windowLoad_gated {p : Place} (hg : s.gatedAt p = true) : s.windowLoad p width = none := by
  cases p <;> simp [State.windowLoad, hg]

theorem windowStore_gated {p : Place} (hg : s.gatedAt p = true) : s.windowStore p width v = none := by
  cases p <;> simp [State.windowStore, hg]

theorem cpuAccess_gated (hg : s.gatedAt (placeOf off) = true) : s.cpuAccess cpu a off width v ecc err = s.cpuOut cpu true 0 := by
  unfold State.cpuAccess
  split
  next o hp => simp [hp ▸ hg]
  next c x hp => simp [hp ▸ hg]
  next => simp [windowLoad_gated hg, windowStore_gated hg]

end

/-- Settles O29: each place has its equation of `State.cpuAccess`, and a read of HBM touches the memory and the log only. -/
theorem controlCoreAccesses : Obligations.ControlCoreAccesses := by
  unfold Obligations.ControlCoreAccesses
  intro cpu a off width v ecc err s hrun
  refine ⟨fun c x hp hw ho hclk hecc => ?scratchpad, fun o hp hn hg => ?hbm, fun p hp _ hbad => ?busError⟩
  case scratchpad =>
    refine gives_controlCoreAccess hrun (by simp [hp]) ?_
    subst hecc
    rw [cpuAccess_spad hp (by omega) (naturally_of_word hw ho) hclk, spadAccess_clean]
    by_cases ha : a = .load
    · rw [if_pos ha, if_neg (by simp [ha])]
      exact ⟨rfl, fun d _ => core_cpuOut s cpu d _ _, by simp [ha], by simp⟩
    · rw [if_neg ha]
      exact ⟨rfl, fun d hd => by simp [hd], by simp [ha], by simp⟩
  case hbm =>
    have hod : ∀ rel, placeOf off.toNat ≠ .od rel := by simp [hp]
    refine ⟨fun hwait => gives_controlCoreAccess hrun hod ?_, fun hfree => ⟨gives_controlCoreAccess hrun hod ?_, ?_⟩⟩
    · rw [cpuAccess_hbm hp hn hg, if_pos hwait]
    · rw [cpuAccess_hbm hp hn hg, if_neg (by simp [hfree])]
    · rintro b rfl rfl hb
      have frame := memOnly_memRead s (cpuStream (cpu / 8)) o width 0 err
      refine gives_controlCoreAccess hrun hod ?_
      rw [cpuAccess_hbm hp hn hg, if_neg (by simp [hfree]), hbmAccess_load hb]
      exact ⟨rfl, frame.cores, by simp [frame.cpu]⟩
  case busError =>
    subst hp
    have hod : ∀ rel, placeOf off.toNat ≠ .od rel := by
      intro rel hp
      simp [hp, State.gatedAt] at hbad
    have bus : s.cpuAccess cpu a off.toNat width v ecc err = s.cpuOut cpu true 0 := by
      obtain hg | ⟨x, hp | ⟨c, hp⟩, hn⟩ | ⟨c, x, hp, hw⟩ := hbad
      · exact cpuAccess_gated hg
      · exact cpuAccess_hbm_unaligned hp hn
      · exact cpuAccess_spad_unaligned hp hn
      · exact cpuAccess_spad_narrow hp hw
    refine gives_controlCoreAccess hrun hod ?_
    rw [bus]
    exact ⟨rfl, by simp⟩

end Sys2Proof.Machine

/-! SUPPORT. The reset state. -/

namespace Sys2Proof.Machine

/-- No owner slot and no release fuse is burnt at reset (R449). -/
theorem fusesLegal_reset : State.reset.fuses.Legal := by
  unfold FuseSt.Legal
  decide

/-- No unit is listed at reset, so each port and each core reads as its default (R4). -/
theorem port_reset (p : Nat) : State.reset.port p = {} := rfl

theorem core_reset (c : Nat) : State.reset.core c = {} := rfl

/-- Settles O59: the fuses and the memories by their lemmas, every unit by its default, and each register by its initial value. -/
theorem resetHoldsItsValues : Obligations.ResetHoldsItsValues := by
  have ports : ∀ p, (State.reset.port p).st = 1 := fun p => by rw [port_reset]
  have cores : ∀ c, (State.reset.core c).vxe.rlen = 96 ∧ (State.reset.core c).seq.st = 0 ∧ (State.reset.core c).clken = 0 :=
    fun c => by rw [core_reset]; exact ⟨rfl, rfl, rfl⟩
  exact ⟨fusesLegal_reset, memWf_reset, rfl, rfl, rfl, rfl, rfl, rfl, rfl, rfl, rfl, rfl, rfl, rfl, rfl, rfl, rfl, rfl, ports, cores⟩

end Sys2Proof.Machine

/-! SUPPORT. A write through the slices of device memory touches the memory and the event log only. -/

namespace Sys2Proof.Machine

theorem memOnly_mscWriteBy (s : State) (policy n st a off : Nat) (bs : List Byte) (hint : Nat) (err : HbmErr) :
    MemOnly s (s.mscWriteBy policy n st a off bs hint err).1 := by
  have cleared : MemOnly s (s.updRegion st (fun r => { r with poison := r.poison.filter (fun p => p ≠ a) })) := memOnly_updRegion s st _
  simp only [State.mscWriteBy]
  split
  · exact memOnly_touchLine s st _ _
  · generalize s.updRegion st _ = s0 at cleared ⊢
    have read : ∀ c : Prop, [Decidable c] → MemOnly s (if c then (s0, some (s.sector st a)) else s0.stackReadBy policy st a err).1 := by
      intro c _
      split
      · exact cleared
      · exact cleared.trans (memOnly_stackReadBy s0 policy st a err)
    split
    · exact read _
    · split
      · exact (read _).trans (memOnly_stackWrite _ st a _)
      · exact (read _).trans (memOnly_allocLine _ st n _)

/-- A write of device memory leaves every unit outside the memory, and every field outside the log, as it was (R191, R206). -/
theorem memOnly_memWrite (s : State) (w o : Nat) (bs : List Byte) (hint : Nat) (err : HbmErr) :
    MemOnly s (s.memWrite w o bs hint err).1 :=
  memOnly_foldl_fst (β := Bool × List Byte) _ (fun p _ => memOnly_mscWriteBy p.1 _ w _ _ _ _ hint err) _ (s, true, bs)

end Sys2Proof.Machine

/-! SUPPORT. The work that stops when a port fails or a hub is fenced (R14, R17, R137, R156, R279) leaves the die-to-die adapters as they
are: one lemma for each operation, each from those of the operations that it calls. -/

namespace Sys2Proof.Machine

/-- The die-to-die adapters are the same in two states. -/
def KeepsAdapters (s t : State) : Prop := t.adapters = s.adapters

theorem KeepsAdapters.refl (s : State) : KeepsAdapters s s := rfl

theorem KeepsAdapters.trans {s t u : State} (h : KeepsAdapters s t) (g : KeepsAdapters t u) : KeepsAdapters s u :=
  Eq.trans g h

theorem KeepsAdapters.ite {s t u : State} {c : Prop} [Decidable c] (h : KeepsAdapters s t) (g : KeepsAdapters s u) :
    KeepsAdapters s (if c then t else u) := by
  split
  · exact h
  · exact g

theorem KeepsAdapters.adapter {s t : State} (h : KeepsAdapters s t) (a : Nat) : t.adapter a = s.adapter a := by
  unfold KeepsAdapters at h
  simp only [State.adapter, h]

theorem MemOnly.keepsAdapters {s t : State} (h : MemOnly s t) : KeepsAdapters s t := by
  unfold KeepsAdapters
  rw [h]

namespace KeepsAdapters

variable {s t : State} (h : KeepsAdapters s t)
include h

theorem forEach {α : Type} (xs : List α) {f : State → α → State} (hf : ∀ u x, KeepsAdapters u (f u x)) :
    KeepsAdapters s (t.forEach xs f) := by
  unfold State.forEach
  induction xs generalizing t with
  | nil => exact h
  | cons x xs ih => exact ih (h.trans (hf t x))

/-! Units of the module. -/

theorem updCore (c : Nat) (f : CoreSt → CoreSt) : KeepsAdapters s (t.updCore c f) := h

theorem updHub (n : Nat) (f : HubSt → HubSt) : KeepsAdapters s (t.updHub n f) := h

theorem updPar (n : Nat) (f : ParSt → ParSt) : KeepsAdapters s (t.updPar n f) := h

theorem updColl (n : Nat) (f : CollSt → CollSt) : KeepsAdapters s (t.updColl n f) := h

theorem updPort (p : Nat) (f : PortSt → PortSt) : KeepsAdapters s (t.updPort p f) := h

theorem updRegion (r : Nat) (f : RegionSt → RegionSt) : KeepsAdapters s (t.updRegion r f) := h

theorem setFab (x : FabSt) : KeepsAdapters s { t with fab := x } := h

theorem setReel (l : List Landing) (x : FabSt) : KeepsAdapters s { t with landings := l, fab := x } := h

theorem setHusk (x : HuskSt) : KeepsAdapters s { t with husk := x } := h

theorem setFreeCtr (n : Nat) : KeepsAdapters s { t with freeCtr := n } := h

theorem setHalted (b : SMap BarSt) (x : SchedSt) : KeepsAdapters s { t with bars := b, sched := x } := h

theorem setAlign (x : AlignSt) : KeepsAdapters s { t with align := x } := h

theorem setMgmt (x : MgmtSt) : KeepsAdapters s { t with mgmt := x } := h

theorem post (code sev src : Nat) (args : List Nat) : KeepsAdapters s (t.post code sev src args) :=
  h.trans (memOnly_post t code sev src args).keepsAdapters

/-! Device memory and scratchpads. -/

theorem memRead (w o n hint : Nat) (err : HbmErr) : KeepsAdapters s (t.memRead w o n hint err).1 :=
  h.trans (memOnly_memRead t w o n hint err).keepsAdapters

theorem memWrite (w o : Nat) (bs : List Byte) (hint : Nat) (err : HbmErr) : KeepsAdapters s (t.memWrite w o bs hint err).1 :=
  h.trans (memOnly_memWrite t w o bs hint err).keepsAdapters

theorem devWrite (o : Nat) (bs : List Byte) : KeepsAdapters s (t.devWrite o bs) := h.memWrite deviceStream o bs 0 noErr

theorem chunkWrite (o : Nat) (bs : List Byte) : KeepsAdapters s (t.chunkWrite o bs) := by
  unfold State.chunkWrite State.localWrite
  split
  · split
    · exact h
    · exact h.memWrite deviceStream _ bs 1 noErr
  · split
    · exact h
    · split <;> exact h
  · exact h

/-! The lifecycle, a segment's end, and the stop of the image (R137, R171, R427). -/

theorem lifeRefresh : KeepsAdapters s t.lifeRefresh := by
  have setLife : ∀ l, KeepsAdapters s (t.setLife l) := by
    intro l
    have moved : KeepsAdapters s { t with life := l, lifeSince := t.tsc } := h
    exact .ite h (moved.post _ _ _ _)
  exact .ite (setLife _) h

theorem endSegment (c endk : Nat) : KeepsAdapters s (t.endSegment c endk) := by
  unfold State.endSegment
  extract_lets q n o
  split
  · exact h
  · extract_lets s1
    have recorded : KeepsAdapters s s1 := .ite (h.updCore c _) ((h.devWrite _ _).updCore c _)
    exact .ite (recorded.post _ _ _ _) recorded

theorem haltSeq (fcode c : Nat) : KeepsAdapters s (t.haltSeq fcode c) :=
  .ite ((h.endSegment c 2).updCore c _) h

theorem raiseFlags (u : FlagUnit) (set : BitVec 4) : KeepsAdapters s (t.raiseFlags u set) := by
  have setReg : ∀ r, KeepsAdapters s (t.setFlagReg u r) := by
    intro r
    cases u <;> exact h
  exact .ite h (.ite ((setReg _).post _ _ _ _) (setReg _))

theorem steCancel (c : Nat) : KeepsAdapters s (t.steCancel c) := by
  unfold State.steCancel
  extract_lets s1 gone _ s2 adm
  have withdrawn : KeepsAdapters s s1 := h.forEach allRegions (fun u r => (refl u).updRegion r _)
  exact (withdrawn.setReel _ _).updCore c _

theorem abandonCore (c : Nat) : KeepsAdapters s (t.abandonCore c) := by
  unfold State.abandonCore
  extract_lets xs s1 s2 s3
  have drained : KeepsAdapters s s2 := by
    show KeepsAdapters s (dite _ _ _)
    split
    · exact (h.updCore c _).raiseFlags _ _
    · exact h.updCore c _
  exact ((drained.updCore c _).setFreeCtr _).steCancel c

theorem collDo (n : Nat) (f : CollSt → CollSt) : KeepsAdapters s (t.collDo n f) :=
  (h.updColl n _).forEach _ (fun _ _ => refl _)

theorem collForget (n : Nat) : KeepsAdapters s (t.collForget n) := h.setFab _

theorem collStop : KeepsAdapters s t.collStop :=
  (((h.collDo 0 collHalt).collForget 0).collDo 1 collHalt).collForget 1

theorem haltImage (fcode : Nat) : KeepsAdapters s (t.haltImage fcode) := by
  unfold State.haltImage
  extract_lets cs s1 s2 _ s3
  have halted : KeepsAdapters s s1 := h.forEach cs (fun u c => (refl u).haltSeq fcode c)
  have abandoned : KeepsAdapters s s2 := halted.forEach cs (fun u c => (refl u).abandonCore c)
  exact (abandoned.setHalted _ _).collStop

theorem setSched (st : Nat) : KeepsAdapters s (t.setSched st) := by
  have moved : KeepsAdapters s { t with sched := { t.sched with st := st } } := h
  exact moved.lifeRefresh

theorem stopImage (fcode : Nat) : KeepsAdapters s (t.stopImage fcode) := by
  unfold State.stopImage
  exact .ite ((h.haltImage fcode).setSched 5) h

/-! A read that meets a double error in a scratchpad stops the image (R187). -/

theorem spadEcc (c word : Nat) (e : Ecc) : KeepsAdapters s (t.spadEcc c word e) := by
  cases e with
  | clean => exact h
  | single => exact h
  | double => exact (((h.updCore c _).stopImage 4).updCore c _).post _ _ _ _

theorem localRead (w o n hint : Nat) (ecc : List (Nat × Ecc)) : KeepsAdapters s (t.localRead w o n hint ecc).1 := by
  unfold State.localRead
  split
  · split
    · exact h
    · extract_lets r
      have read : KeepsAdapters s r.1 := h.memRead w _ n hint noErr
      split <;> exact read
  · split
    · exact h
    · split
      · exact h.forEach _ (fun u e => (refl u).spadEcc _ e.1 e.2)
      · exact h
  · exact h

/-! Packets that leave by the link ports, and gate signals. -/

theorem sendPkt (p : Packet) : KeepsAdapters s (t.sendPkt p).1 := by
  unfold State.sendPkt
  extract_lets code
  split
  · split
    · exact h
    · split
      · exact h
      · split <;> exact h
  · split
    · exact h
    · split
      · exact h
      · split <;> exact h

theorem gateAdd (o n : Nat) : KeepsAdapters s (t.gateAdd o n) := by
  refine .ite h ?_
  unfold State.gateDo
  extract_lets r
  have read : KeepsAdapters s r.1 := h.memRead deviceStream o 8 0 noErr
  split
  · exact read.stopImage 4
  · exact read.devWrite o _

theorem sendAdd (c : Nat) (g : GateAdd) : KeepsAdapters s (t.sendAdd c g) := by
  unfold State.sendAdd
  extract_lets txn _ s1 _ p r
  have sent : KeepsAdapters s r.1 := (h.setFab _).sendPkt p
  split
  · exact (sent.setFab _).updCore c _
  · exact sent

theorem signalFree (c : Nat) : KeepsAdapters s (t.signalFree c) := by
  unfold State.signalFree
  extract_lets s1
  have freed : KeepsAdapters s s1 := h.updCore c _
  split
  · exact freed
  · unfold State.signalNow
    exact .ite ((freed.updCore c _).gateAdd _ _) ((freed.updCore c _).sendAdd c _)

/-! The parity engine of a hub. -/

theorem parError (n status entry : Nat) : KeepsAdapters s (t.parError n status entry) := (h.updPar n _).post _ _ _ _

theorem pullFailed (n m status : Nat) : KeepsAdapters s (t.pullFailed n m status) :=
  .ite (h.updPar n _) (h.parError n _ _)

theorem pullPacket (n m dev off pos len : Nat) : KeepsAdapters s (t.pullPacket n m dev off pos len) := by
  unfold State.pullPacket
  extract_lets txn _ s1 _ p r
  have sent : KeepsAdapters s r.1 := (h.setFab _).sendPkt p
  split
  · exact (sent.setFab _).updPar n _
  · exact sent.pullFailed n m 7

theorem pull (n m dev off pos len : Nat) : KeepsAdapters s (t.pull n m dev off pos len) := by
  unfold State.pull
  split
  · extract_lets r
    have read : KeepsAdapters s r.1 := h.localRead deviceStream off len 1 []
    exact .ite (read.updPar n _) (read.pullFailed n m _)
  · exact h.forEach _ (fun u _ => (refl u).pullPacket n m dev _ _ _)

theorem entryDone (n : Nat) : KeepsAdapters s (t.entryDone n) := h.updPar n _

theorem nextEntry (n : Nat) : KeepsAdapters s (t.nextEntry n).1 := by
  unfold State.nextEntry
  split
  · exact h
  · split
    · exact h.updPar n _
    · extract_lets s1
      have begun : KeepsAdapters s s1 := h.updPar n _
      split
      · exact (begun.forEach _ (fun u m => (refl u).pull n m _ _ _ 64)).updPar n _
      · exact begun

theorem initMove (n i : Nat) : KeepsAdapters s (t.initMove n i).1 := by
  unfold State.initMove
  extract_lets p w len c
  split
  · exact (h.forEach _ (fun u m => (refl u).pull n m _ _ 0 _)).updPar n _
  · exact (h.chunkWrite _ _).entryDone n

theorem foldMove (n : Nat) : KeepsAdapters s (t.foldMove n).1 := by
  unfold State.foldMove
  extract_lets p w len ok
  split
  · exact (h.forEach _ (fun u m => (refl u).pull n m _ _ 0 _)).updPar n _
  · split
    · exact h
    · exact (h.chunkWrite _ _).entryDone n

theorem rebuildWrite (n len : Nat) (need er : List Nat) : KeepsAdapters s (t.rebuildWrite n len need er).1 := by
  unfold State.rebuildWrite
  extract_lets w opened
  split
  · exact (h.setHusk _).updPar n _
  · exact ((h.chunkWrite _ _).setHusk _).entryDone n

theorem rebuildMove (n i : Nat) : KeepsAdapters s (t.rebuildMove n i).1 := by
  unfold State.rebuildMove
  extract_lets p w len
  split
  · exact (h.parError n 5 i).updPar n _
  · extract_lets more late
    split
    · exact h
    · split
      · exact (h.forEach _ (fun u m => (refl u).pull n m _ _ 0 _)).updPar n _
      · split
        · exact h.updPar n _
        · exact h.rebuildWrite n len _ _

theorem parMove (n : Nat) : KeepsAdapters s (t.parMove n).1 := by
  unfold State.parMove
  extract_lets p
  split
  · exact h
  · split
    · exact h.nextEntry n
    · split
      · exact h.initMove n _
      · split
        · exact h.foldMove n
        · split
          · exact h.rebuildMove n _
          · exact h

theorem parRun (n k : Nat) : KeepsAdapters s (t.parRun n k) := by
  induction k generalizing t with
  | zero => exact h
  | succ k ih =>
    have move := h.parMove n
    exact .ite (ih move) move

theorem parGo (n : Nat) : KeepsAdapters s (t.parGo n) := h.parRun n _

theorem parHandOver (n : Nat) : KeepsAdapters s (t.parHandOver n) := by
  unfold State.parHandOver
  exact .ite h ((((h.setFab _).updPar n _).updPar (1 - n) _).parGo (1 - n))

theorem dropLostPulls (n : Nat) : KeepsAdapters s (t.dropLostPulls n) := by
  unfold State.dropLostPulls
  exact .ite h (((h.setFab _).updPar n _).parGo n)

theorem parIdle (w : Nat) : KeepsAdapters s (t.parIdle w) := by
  unfold State.parIdle
  exact (h.forEach [0, 1] (fun u n => (refl u).updPar n _)).setFab _

/-! A link port that leaves UP, and the neighbour that is lost with it (R279, R327, R365). -/

theorem collFail (n status : Nat) : KeepsAdapters s (t.collFail n status) := by
  unfold State.collFail
  exact .ite h ((((((h.updColl n _).setFab _).post _ _ _ _).stopImage 4).collDo n collHalt).collForget n)

theorem endTxn (x : Txn) (status : Nat) : KeepsAdapters s (t.endTxn x status) := by
  unfold State.endTxn
  split
  · exact h.updCore _ _
  · exact h.signalFree _
  · exact h.collFail _ status
  · exact ((h.updPar _ _).pullFailed _ _ status).parGo _

theorem leaveUp (p cause : Nat) (keepControl : Bool) : KeepsAdapters s (t.leaveUp p cause keepControl) := by
  unfold State.leaveUp
  extract_lets s1 _ s2 drop
  have dropped : KeepsAdapters s ((s2.updColl 0 drop).updColl 1 drop) := (((h.updPort p _).setFab _).updColl 0 drop).updColl 1 drop
  unfold State.failTxns
  exact ((dropped.setFab _).forEach _ (fun u x => (refl u).endTxn x 7)).post _ _ _ _

theorem unalign (cause : Nat) : KeepsAdapters s (t.unalign cause) := by
  unfold State.unalign
  exact .ite ((h.setAlign _).post _ _ _ _) (h.setAlign _)

theorem fenceLoss (d : Nat) : KeepsAdapters s (t.fenceLoss d) := by
  unfold State.fenceLoss
  extract_lets s1 l _ s2 k s3 s4
  have stopped : KeepsAdapters s s1 := (h.stopImage 4).collStop
  have posted : KeepsAdapters s s2 := (stopped.setHusk _).post _ _ _ _
  split
  · have halted : KeepsAdapters s s3 := posted.forEach [0, 1] (fun u n => (refl u).updPar n _)
    have dropped : KeepsAdapters s s4 := (halted.dropLostPulls 0).dropLostPulls 1
    exact .ite dropped (dropped.setHusk _)
  · split
    · exact posted
    · split
      · exact (posted.parIdle 0).setHusk _
      · exact setHusk (.ite (posted.parIdle 0) posted) _

theorem floodNew (ptype : Nat) (payload : List Byte) : KeepsAdapters s (t.floodNew ptype payload) := by
  unfold State.floodNew State.floodCopies
  extract_lets n _ p _ s1
  refine ((h.setFab _).setFab _).forEach _ (fun u i => ?_)
  split
  · exact refl u
  · split
    · exact (refl u).updPort _ _
    · exact refl u

theorem declareLost (d : Nat) : KeepsAdapters s (t.declareLost d) := (h.floodNew _ _).fenceLoss d

theorem lossCheck (p : Nat) : KeepsAdapters s (t.lossCheck p) := by
  unfold State.lossCheck
  exact .ite ((h.setFab _).declareLost _) (h.setFab _)

theorem portDown (p cause : Nat) : KeepsAdapters s (t.portDown p cause) := by
  unfold State.portDown
  extract_lets old s1 s2 s3 s4
  have left : KeepsAdapters s s1 := .ite (h.leaveUp p cause false) h
  have down : KeepsAdapters s s2 := left.updPort p _
  have unaligned : KeepsAdapters s s3 := .ite (down.unalign 2) down
  have checked : KeepsAdapters s s4 := .ite (unaligned.lossCheck p) unaligned
  exact checked.lifeRefresh

theorem fenceHub (n : Nat) : KeepsAdapters s (t.fenceHub n) := by
  unfold State.fenceHub
  refine .ite h ?_
  extract_lets s1 s2 s3
  have stopped : KeepsAdapters s s1 := .ite ((h.stopImage 6).post _ _ _ _) h
  have idle : KeepsAdapters s s2 := stopped.forEach _ (fun u p => .ite (refl u) ((refl u).portDown p 4))
  have handed : KeepsAdapters s s3 := (idle.updHub n _).parHandOver n
  exact .ite (handed.setMgmt _) handed

end KeepsAdapters

end Sys2Proof.Machine

/-! SUPPORT. The operations of a die-to-die adapter (R11 to R14). -/

namespace Sys2Proof.Machine

/-- An adapter of a failed port (R14), as `State.d2dFail` leaves it. -/
def AdapterSt.fail (x : AdapterSt) : AdapterSt := { x with up := false, failed := true, discarding := false }

/-- An adapter that has taken the flit it expected (R12). -/
def AdapterSt.expectNext (x : AdapterSt) : AdapterSt := { x with rxExp := (x.rxExp + 1) % 64, discarding := false, reqCount := 0 }

/-- An adapter that begins, or goes on, to discard and asks for the flit it expects (R12, R13). -/
def AdapterSt.discard (x : AdapterSt) : AdapterSt := { x with discarding := true, reqCount := x.reqCount + 1 }

/-- The requests for one position in succession, with a new one for the flit `n` (R14). -/
def AdapterSt.timesAsked (x : AdapterSt) (n : Nat) : Nat := if x.askPos = some (x.flitPos n) then x.askCount + 1 else 1

/-- Only one adapter and the outputs of the module differ: the adapter is `x`, and the outputs are `o`. -/
def SetsAdapter (s t : State) (a : Nat) (x : AdapterSt) (o : List Out) : Prop :=
  ∃ as, t = { s with adapters := as, out := o } ∧ t.adapter a = x ∧ ∀ d, d ≠ a → t.adapter d = s.adapter d

namespace SetsAdapter

theorem refl (s : State) (a : Nat) : SetsAdapter s s a (s.adapter a) s.out := ⟨s.adapters, rfl, rfl, fun _ _ => rfl⟩

variable {s t : State} {a : Nat} {x : AdapterSt} {o : List Out} (h : SetsAdapter s t a x o)
include h

theorem frame : t = { s with adapters := t.adapters, out := o } := by
  obtain ⟨as, rfl, -, -⟩ := h
  rfl

theorem adapter : t.adapter a = x := by
  obtain ⟨-, -, own, -⟩ := h
  exact own

theorem others : ∀ d, d ≠ a → t.adapter d = s.adapter d := by
  obtain ⟨-, -, -, others⟩ := h
  exact others

theorem out : t.out = o := by
  obtain ⟨as, rfl, -, -⟩ := h
  rfl

theorem updAdapter (f : AdapterSt → AdapterSt) : SetsAdapter s (t.updAdapter a f) a (f x) o := by
  refine ⟨(t.updAdapter a f).adapters, ?_, ?_, fun d hd => ?_⟩
  · obtain ⟨as, rfl, -, -⟩ := h
    rfl
  · rw [adapter_updAdapter, if_pos rfl, h.adapter]
  · rw [adapter_updAdapter, if_neg hd, h.others d hd]

theorem emit (e : Out) : SetsAdapter s (t.emit e) a x (e :: o) := by
  obtain ⟨as, rfl, own, others⟩ := h
  exact ⟨as, rfl, own, others⟩

theorem forEach_emit {α : Type} (e : α → Out) (xs : List α) :
    SetsAdapter s (t.forEach xs (fun t y => t.emit (e y))) a x ((xs.map e).reverse ++ o) := by
  unfold State.forEach
  induction xs generalizing t o with
  | nil => exact h
  | cons y ys ih =>
    rw [List.map_cons, List.reverse_cons, List.append_assoc]
    exact ih (h.emit (e y))

end SetsAdapter

section
variable {s : State} {a : Nat}

/-- A flit that has reached its die is delivered there (R12). -/
theorem takeFlit_delivers {f : List Byte} (h : flDst f = a / 4) :
    s.takeFlit a f = s.updAdapter a (fun x => { x with delivered := f :: x.delivered }) :=
  if_pos h

/-- After its two adapters are down, the failure of a port changes no adapter (R14, R15, R17). -/
theorem d2dFail_keepsAdapters (h : (s.adapter a).failed = false) :
    KeepsAdapters ((s.updAdapter a AdapterSt.fail).updAdapter (farEnd a) AdapterSt.fail) (s.d2dFail a) := by
  unfold State.d2dFail
  rw [if_neg (by simp [h])]
  extract_lets c down s1 s2
  have posted : KeepsAdapters ((s.updAdapter a AdapterSt.fail).updAdapter (farEnd a) AdapterSt.fail) s1 :=
    (KeepsAdapters.refl _).post _ _ _ _
  have fenced : KeepsAdapters _ s2 := posted.forEach [0, 1] (fun u n => .ite ((KeepsAdapters.refl u).fenceHub n) (.refl u))
  refine fenced.forEach _ (fun u x => .ite ?_ (.refl u))
  have noPath := (KeepsAdapters.refl u).post 0x0102 2 (x.1 * 256 + 0xFF) [x.1, 4 + x.2]
  exact .ite (noPath.stopImage 4) noPath

/-- Both ends of a port that fails are down (R14). -/
theorem d2dFail_down (h : (s.adapter a).failed = false) :
    ((s.d2dFail a).adapter a).up = false ∧ ((s.d2dFail a).adapter (farEnd a)).up = false := by
  have failed := d2dFail_keepsAdapters h
  have down : ∀ b, b = a ∨ b = farEnd a → ((s.d2dFail a).adapter b).up = false := by
    intro b hb
    rw [failed.adapter, adapter_updAdapter]
    split
    · rfl
    next hne =>
      rw [adapter_updAdapter, if_pos (hb.resolve_right hne)]
      rfl
  exact ⟨down a (.inl rfl), down (farEnd a) (.inr rfl)⟩

/-- A receiver asks for the flit that it expects, below its eighth request in succession (R12, R13). -/
theorem askReplay_asks (h : (s.adapter a).reqCount < 7) :
    let x := s.adapter a
    let q := mkFlit (farDie a) (a / 4) 0 (x.txCount % 64) [0xFF, BitVec.ofNat 8 x.rxExp]
    SetsAdapter s (s.askReplay a) a { x with
      discarding := true, reqCount := x.reqCount + 1, txCount := x.txCount + 1,
      replay := (x.replay ++ [q]).drop (x.replay.length + 1 - 64) } (.flit a q :: s.out) := by
  intro x q
  have asked := (SetsAdapter.refl s a).updAdapter AdapterSt.discard
  have sent : s.askReplay a = (s.updAdapter a AdapterSt.discard).sendFlit a
      { cls := 0, src := a / 4, dst := farDie a, payload := [0xFF, BitVec.ofNat 8 x.rxExp] } := if_neg (by omega)
  rw [sent]
  unfold State.sendFlit
  rw [asked.adapter]
  exact (asked.updAdapter _).emit _

/-- A request for one position, below the eighth in succession, is answered from the replay buffer (R12). -/
theorem replayFrom_resends {n : Nat} (h : (s.adapter a).timesAsked n < 8) :
    let x := s.adapter a
    SetsAdapter s (s.replayFrom a n) a
      { x with askPos := some (x.flitPos n), askCount := x.timesAsked n }
      (((x.replay.dropWhile (fun f => decide (flSeq f ≠ n))).map (fun f => Out.flit a f)).reverse ++ s.out) := by
  unfold State.replayFrom
  intro x
  extract_lets k s1
  have below : ¬ 8 ≤ k := Nat.not_le.mpr h
  rw [if_neg below]
  exact ((SetsAdapter.refl s a).updAdapter _).forEach_emit _ _

/-- The eighth request for one position in succession fails the port (R14). -/
theorem replayFrom_fails {n : Nat} (h : 8 ≤ (s.adapter a).timesAsked n) (hf : (s.adapter a).failed = false) :
    ((s.replayFrom a n).adapter a).up = false ∧ ((s.replayFrom a n).adapter (farEnd a)).up = false := by
  unfold State.replayFrom
  extract_lets x k s1
  have eighth : 8 ≤ k := h
  rw [if_pos eighth]
  refine d2dFail_down ?_
  rw [adapter_updAdapter, if_pos rfl]
  exact hf

end

/-! SUPPORT. What a die-to-die command does to an adapter that is up, by its case. -/

section
variable {a : Fin 24} {s : State} (hup : (s.adapter a).up = true) (hlost : s.clock.lost = false)
include hlost

theorem exec_d2dTrained : exec (.d2dTrained a) s = .next (s.updAdapter a (fun _ => { up := true })) := by
  show execD2dTrained a s = _
  simp [execD2dTrained, hlost]

include hup

/-- A good flit of the SEQ expected is taken, and the next one is expected (R12). -/
theorem exec_d2dFlitReceive_taken {f : List Byte} (hok : flitOk f = true) (hseq : flSeq f = (s.adapter a).rxExp) (hreq : isReplay f = false) :
    exec (.d2dFlitReceive a f) s = .next ((s.updAdapter a AdapterSt.expectNext).takeFlit a f) := by
  show execD2dFlitReceive a f s = _
  unfold execD2dFlitReceive
  rw [if_neg (by simp [hup, hlost]), if_pos ⟨hok, hseq⟩, if_neg (by simp [hreq])]
  rfl

theorem exec_d2dFlitReceive_replay {f : List Byte} (hok : flitOk f = true) (hseq : flSeq f = (s.adapter a).rxExp) (hreq : isReplay f = true) :
    exec (.d2dFlitReceive a f) s = .next ((s.updAdapter a AdapterSt.expectNext).replayFrom a (leAt f 3 1 % 64)) := by
  show execD2dFlitReceive a f s = _
  unfold execD2dFlitReceive
  rw [if_neg (by simp [hup, hlost]), if_pos ⟨hok, hseq⟩, if_pos hreq]
  rfl

theorem exec_d2dFlitReceive_discards {f : List Byte} (hseq : flitOk f = true → flSeq f ≠ (s.adapter a).rxExp)
    (hd : flitOk f = true ∨ (s.adapter a).discarding = true) : exec (.d2dFlitReceive a f) s = .next s := by
  show execD2dFlitReceive a f s = _
  unfold execD2dFlitReceive
  rw [if_neg (by simp [hup, hlost]), if_neg (fun h => hseq h.1 h.2), if_pos (by simpa using hd)]

theorem exec_d2dFlitReceive_asks {f : List Byte} (hbad : flitOk f = false) (hd : (s.adapter a).discarding = false) :
    exec (.d2dFlitReceive a f) s = .next (s.askReplay a) := by
  show execD2dFlitReceive a f s = _
  unfold execD2dFlitReceive
  rw [if_neg (by simp [hup, hlost]), if_neg (by simp [hbad]), if_neg (by simp [hbad, hd])]

theorem exec_d2dReplayRequest (n : Fin 64) : exec (.d2dReplayRequest a n) s = .next (s.replayFrom a n) := by
  show execD2dReplayRequest a n s = _
  simp [execD2dReplayRequest, hup, hlost]

theorem exec_d2dReplayTimeout (hd : (s.adapter a).discarding = true) : exec (.d2dReplayTimeout a) s = .next (s.askReplay a) := by
  show execD2dReplayTimeout a s = _
  simp [execD2dReplayTimeout, hup, hd, hlost]

end

/-- Settles O31: each command has its equation, and each operation of the adapter says what it leaves; a port that fails stays down because
nothing that its failure stops touches an adapter. -/
theorem flitsAreDeliveredInOrder : Obligations.FlitsAreDeliveredInOrder := by
  unfold Obligations.FlitsAreDeliveredInOrder
  refine ⟨fun a s hlost => ?trained, fun a s hup hlost => ?_⟩
  case trained =>
    have fresh := (SetsAdapter.refl s a).updAdapter (fun _ => { up := true })
    exact ⟨_, exec_d2dTrained hlost, fresh.frame, fresh.adapter, fresh.others⟩
  intro x u asks
  have asked : x.reqCount < 7 → asks (s.askReplay a) := by
    intro hcount
    have sent := askReplay_asks hcount
    exact ⟨sent.frame, sent.others, sent.adapter⟩
  refine ⟨fun f => ⟨fun hok hseq hreq => ?taken, fun hok hseq hreq => ?replay, fun hok hseq => ?otherSeq, fun hbad hd => ?discarding,
    fun hbad hd hcount => ?bad⟩, fun n => ⟨fun hk => ?resent, fun hk hf => ?failed⟩, fun hd hcount => ?timeout⟩
  case taken =>
    refine ⟨_, exec_d2dFlitReceive_taken hup hlost hok hseq hreq, rfl, fun hdst => ?_⟩
    have delivered := ((SetsAdapter.refl s a).updAdapter AdapterSt.expectNext).updAdapter (fun x => { x with delivered := f :: x.delivered })
    rw [takeFlit_delivers hdst]
    exact ⟨delivered.frame, delivered.others, delivered.adapter⟩
  case replay => exact ⟨_, exec_d2dFlitReceive_replay hup hlost hok hseq hreq, rfl⟩
  case otherSeq => exact ⟨s, exec_d2dFlitReceive_discards hup hlost (fun _ => hseq) (.inl hok), rfl⟩
  case discarding => exact ⟨s, exec_d2dFlitReceive_discards hup hlost (by simp [hbad]) (.inr hd), rfl⟩
  case bad => exact ⟨_, exec_d2dFlitReceive_asks hup hlost hbad hd, asked hcount⟩
  case resent =>
    have resent := replayFrom_resends hk
    exact ⟨_, exec_d2dReplayRequest hup hlost n, resent.out ▸ resent.frame, resent.adapter, resent.others, resent.out⟩
  case failed => exact ⟨_, exec_d2dReplayRequest hup hlost n, replayFrom_fails hk hf⟩
  case timeout => exact ⟨_, exec_d2dReplayTimeout hup hlost hd, asked hcount⟩

end Sys2Proof.Machine

/-! SUPPORT. A vector instruction in a free engine: its issue, its one pass through the pipes, and the registers and flags it leaves. -/

namespace Sys2Proof.Machine

theorem updCore_updCore (s : State) (c : Nat) (f g : CoreSt → CoreSt) : (s.updCore c f).updCore c g = s.updCore c (g ∘ f) := by
  simp [State.updCore, SMap.upd]

theorem updCore_congr {s : State} {c : Nat} {f g : CoreSt → CoreSt} (h : f (s.core c) = g (s.core c)) : s.updCore c f = s.updCore c g := by
  unfold State.core at h
  simp only [State.updCore, SMap.upd, h]

/-! The pipes. -/

/-- An instruction other than VX.HQPOP that is alone in the pipes waits for no other (R95). -/
theorem vxReady_alone {i : VxItem} (h : cmdOp i.w ≠ 0x05) (hq popped : Nat) : vxReady hq popped [] [i] = some i := by
  simp [vxReady, h]

section
variable {s : State} {c n : Nat} {i : VxItem} (hp : (s.core c).vxePaused = false) (hc : s.clkOn c 2 = true)
include hp hc

/-- The first waiting instruction enters the empty pipes (R94). -/
theorem vxRun_enters (h : (s.core c).vxe.pipes = []) (hq : (s.core c).vxe.q = [i]) :
    State.vxRun (n + 1) s c = State.vxRun n (s.updVxe c (fun v => { v with pipes := v.pipes ++ [i], q := [] })) c := by
  simp [State.vxRun, hp, hc, h, hq, vxReady]

/-- An instruction alone in the pipes is executed and leaves them (R95). -/
theorem vxRun_executes (h : (s.core c).vxe.pipes = [i]) (hop : cmdOp i.w ≠ 0x05) :
    State.vxRun (n + 1) s c = State.vxRun n (vxRunOne (s.updVxe c (fun v => { v with pipes := v.pipes.erase i })) c i) c := by
  simp [State.vxRun, hp, hc, h, hop, vxReady_alone]

end

@[simp] theorem clkOn_updVxe (s : State) (c d n : Nat) (f : VxeSt → VxeSt) : (s.updVxe c f).clkOn d n = s.clkOn d n := by
  unfold State.clkOn
  rw [core_updVxe]
  split
  next h => rw [h]; rfl
  next => rfl

@[simp] theorem clkOn_advance (s : State) (c d n : Nat) : (s.advance c).clkOn d n = s.clkOn d n := by
  unfold State.clkOn
  rw [core_advance]
  split
  next h => rw [h]; rfl
  next => rfl

/-- Two steps take an instruction other than VX.HQPOP from the queue of an engine with nothing else to do through its pipe. -/
theorem vxRun_takes {s : State} {c : Nat} {i : VxItem} (hp : (s.core c).vxePaused = false) (hc : s.clkOn c 2 = true)
    (h : (s.core c).vxe.pipes = []) (hop : cmdOp i.w ≠ 0x05) (n : Nat) :
    State.vxRun (n + 2) (s.updVxe c (fun v => { v with q := [i] })) c =
      State.vxRun n (vxRunOne (s.updVxe c (fun v => { v with q := [] })) c i) c := by
  rw [vxRun_enters (i := i) (by simp [hp]) (by simp [hc]) (by simp [h]) (by simp),
    vxRun_executes (by simp [hp]) (by simp [hc]) (by simp [h]) hop]
  simp only [State.updVxe, updCore_updCore]
  congr 2
  exact updCore_congr (by simp [h])

theorem cmdOp_of_vxTakes {s : State} {c : Nat} {w : Cmd} {op : Nat} (h : s.vxTakes c w op) : cmdOp w = op := by
  obtain ⟨hat, -⟩ := h
  simp only [State.atCmd, Bool.and_eq_true, decide_eq_true_eq] at hat
  exact hat.2

/-- A free engine takes an instruction other than VX.HQPOP at once, and executes it on the state whose sequencer has moved on (R94, R95,
R140). -/
theorem vxIssue_takes {s : State} {c : Nat} {w : Cmd} {op : Nat} (h : s.vxTakes c w op) (hop : op ≠ 0x05) (ecc : List (Nat × Ecc)) :
    ∃ n, s.vxIssue c w op ecc = State.vxRun n (vxRunOne (s.advance c) c { s.vxItem c w with ecc := ecc }) c := by
  have hw : cmdOp w ≠ 0x05 := by rwa [cmdOp_of_vxTakes h]
  obtain ⟨hat, hmal, hclk, hbad, hpipes, hq, -, hpaused⟩ := h
  have hfull : vxFull (s.core c) = false := by simp [vxFull, hq]
  have queued : (s.advance c).updVxe c (fun v =>
        { v with q := v.q ++ [{ w := w, strict := (s.advance c).strictOf c, vl := v.vl, rlen := v.rlen, ecc := ecc }] }) =
      (s.advance c).updVxe c (fun v => { v with q := [{ s.vxItem c w with ecc := ecc }] }) :=
    updCore_congr (by simp [hq, State.vxItem])
  have emptied : (s.advance c).updVxe c (fun v => { v with q := [] }) = s.advance c := by
    simp only [State.updVxe, State.advance, updCore_updCore]
    exact updCore_congr (by simp [seqNext, ← hq])
  obtain ⟨n, fuel⟩ : ∃ n, vxFuel = n + 2 := ⟨198, rfl⟩
  refine ⟨n, ?_⟩
  unfold State.vxIssue
  rw [issue_ok _ hat hmal (by simp [hclk]) hbad hfull]
  simp only [queued, fuel]
  rw [vxRun_takes (i := { s.vxItem c w with ecc := ecc }) (by simp [hpaused]) (by simp [hclk]) (by simp [hpipes]) hw, emptied]

/-! Registers and flags. -/

/-- A raise of VXE flags leaves every register of the core but the VXE's NUMFLAGS (R47, R48). -/
theorem core_vxFlags (s : State) (c : Fin 136) (fl : Flags) :
    ∃ r : FlagReg, r.v = (s.core c).vxe.flags.v ||| fl ∧
      (s.vxFlags c fl).core c = { s.core c with vxe := { (s.core c).vxe with flags := r } } := by
  obtain ⟨r, hr, hcore⟩ := core_raiseFlags s (.vxe c) fl
  refine ⟨r, hr, ?_⟩
  simp [State.vxFlags, hcore]

theorem onlyCore_vxFlags (s : State) (c : Fin 136) (fl : Flags) : OnlyCore s (s.vxFlags c fl) c := by
  unfold State.vxFlags
  rw [dif_pos c.isLt]
  exact onlyCore_raiseFlags s (.vxe c) c fl ⟨c, rfl, .inr (.inl rfl)⟩

/-- The end of an element-wise instruction: its results, then their flags. -/
theorem vxDone_eq (s : State) (c r f : Nat) (xs : List (Nat × Flags)) :
    s.vxDone c r f xs = (s.updVxe c (fun v => v.setElems r f (xs.map Prod.fst))).vxFlags c (orFlags (xs.map Prod.snd)) := rfl

/-- An instruction that changes the vector registers by `g`, keeping the pipes and the queue, and raises `fl`, leaves a free engine so, and
nothing else of the module changes. -/
theorem vxIssue_leaves {s : State} {c : Fin 136} {w : Cmd} {op : Nat} {ecc : List (Nat × Ecc)} {g : VxeSt → VxeSt} {fl : Flags}
    (h : s.vxTakes c w op) (hop : op ≠ 0x05) (hpipes : ∀ v, (g v).pipes = v.pipes) (hq : ∀ v, (g v).q = v.q)
    (hrun : vxRunOne (s.advance c) c { s.vxItem c w with ecc := ecc } = ((s.advance c).updVxe c g).vxFlags c fl) :
    OnlyCore s (s.vxIssue c w op ecc) c ∧
      ∃ r : FlagReg, r.v = (g (s.core c).vxe).flags.v ||| fl ∧ (s.vxIssue c w op ecc).core c =
        { s.core c with seq := (s.core c).seq.moved s.tsc, vxe := { g (s.core c).vxe with flags := r } } := by
  obtain ⟨r, hr, hcore⟩ := core_vxFlags ((s.advance c).updVxe c g) c fl
  simp only [core_updVxe, core_advance, if_true] at hr hcore
  obtain ⟨-, -, -, -, nopipes, noq, -, -⟩ := id h
  have idle : s.vxIssue c w op ecc = ((s.advance c).updVxe c g).vxFlags c fl := by
    obtain ⟨n, hn⟩ := vxIssue_takes h hop ecc
    rw [hn, hrun]
    exact vxRun_nil _ _ _ (by simp [hcore, hpipes, nopipes]) (by simp [hcore, hq, noq])
  rw [idle]
  exact ⟨((onlyCore_advance s c).then (onlyCore_updVxe _ c g)).then (onlyCore_vxFlags _ c fl), r, hr, hcore⟩

/-! The conversion and the two quantisers (R38, R42, R44, R104). -/

section
variable {s : State} {c : Nat} {i : VxItem} (hvl : i.vl ≠ 0)
include hvl

theorem vxRunOne_cvt (hop : cmdOp i.w = 0x10) : vxRunOne s c i = vxRunCvt s c i := by
  simp [vxRunOne, hvl, hop]

theorem vxRunOne_qnt (hop : cmdOp i.w = 0x11) : vxRunOne s c i = vxRunQnt s c i := by
  simp [vxRunOne, hvl, hop]

theorem vxRunOne_dqnt (hop : cmdOp i.w = 0x12) : vxRunOne s c i = vxRunDqnt s c i := by
  simp [vxRunOne, hvl, hop]

end

/-- The VXE is as it was after its sequencer has moved on. -/
theorem vxe_advance (s : State) (c : Nat) : ((s.advance c).core c).vxe = (s.core c).vxe := by
  simp

/-- Settles O7: each instruction is one change of the vector registers and one raise of flags, executed at once in a free engine. -/
theorem vxConvertAndQuantise : Obligations.VxConvertAndQuantise := by
  unfold Obligations.VxConvertAndQuantise
  intro c w s hvl v gs sc
  refine ⟨fun h => ⟨_, rfl, ?cvt⟩, fun h => ⟨_, rfl, ?qnt⟩, fun h => ⟨_, rfl, ?dqnt⟩⟩
  case cvt =>
    refine vxIssue_leaves h (by decide) (g := fun v => v.setElems (vxVD w) (vxOfmt w) _) (fun _ => rfl) (fun _ => rfl) ?_
    rw [vxRunOne_cvt (i := { s.vxItem c w with ecc := [] }) hvl (cmdOp_of_vxTakes h), vxRunCvt, vxe_advance, vxDone_eq]
    rfl
  case qnt =>
    refine vxIssue_leaves h (by decide) (g := fun v => (v.setElems (vxVD w) (vxOfmt w) _).setElems (vxVB w) cBF16 _)
      (fun _ => rfl) (fun _ => rfl) ?_
    rw [vxRunOne_qnt (i := { s.vxItem c w with ecc := [] }) hvl (cmdOp_of_vxTakes h), vxRunQnt, vxe_advance]
    rfl
  case dqnt =>
    refine vxIssue_leaves h (by decide) (g := fun v => v.setElems (vxVD w) cFP32 _) (fun _ => rfl) (fun _ => rfl) ?_
    rw [vxRunOne_dqnt (i := { s.vxItem c w with ecc := [] }) hvl (cmdOp_of_vxTakes h), vxRunDqnt, vxe_advance, vxDone_eq]
    rfl

end Sys2Proof.Machine

/-! SUPPORT. The NUMFLAGS registers (R47 to R54): which one an operation changes, and what it leaves there. -/

namespace Sys2Proof.Machine

@[simp] theorem hub_setFlagReg (s : State) (u : FlagUnit) (r : FlagReg) (d : Nat) :
    (s.setFlagReg u r).hub d = match u with
      | .hub h => if d = h then { s.hub d with flags := r } else s.hub d
      | _ => s.hub d := by
  cases u with
  | hub h =>
    simp only [State.setFlagReg, hub_updHub]
    split
    next hd => rw [hd]
    next => rfl
  | _ => rfl

@[simp] theorem flagReg_setFlagReg_same (s : State) (u : FlagUnit) (r : FlagReg) : (s.setFlagReg u r).flagReg u = r := by
  cases u <;> simp [State.flagReg]

theorem flagReg_setFlagReg_of_ne (s : State) {u w : FlagUnit} (h : w ≠ u) (r : FlagReg) : (s.setFlagReg u r).flagReg w = s.flagReg w := by
  cases w with
  | hub e =>
    simp only [State.flagReg, hub_setFlagReg]
    cases u with
    | hub d =>
      dsimp only
      rw [if_neg (fun he => h (congrArg FlagUnit.hub (Fin.ext he)))]
    | _ => rfl
  | _ e =>
    simp only [State.flagReg, core_setFlagReg]
    cases u with
    | hub => rfl
    | _ d =>
      by_cases he : e = d
      · simp_all
      · dsimp only
        rw [if_neg (fun hv => he (Fin.ext hv))]

@[simp] theorem flagReg_advance (s : State) (c : Nat) (u : FlagUnit) : (s.advance c).flagReg u = s.flagReg u := by
  have engines : ∀ d, ((s.advance c).core d).mxe = (s.core d).mxe ∧ ((s.advance c).core d).vxe = (s.core d).vxe ∧
      ((s.advance c).core d).sfu = (s.core d).sfu := by
    intro d
    rw [core_advance]
    split
    next h => simp [h]
    next => simp
  cases u with
  | hub h => rfl
  | _ d => simp only [State.flagReg, engines d]

/-- The state differs in NUMFLAGS registers and in the event log only. -/
structure FlagsOnly (s t : State) : Prop where
  frame : t = { s with cores := t.cores, hubs := t.hubs, log := t.log }
  core : ∀ d, t.core d = { s.core d with
    mxe := { (s.core d).mxe with flags := (t.core d).mxe.flags }, vxe := { (s.core d).vxe with flags := (t.core d).vxe.flags },
    sfu := { (s.core d).sfu with flags := (t.core d).sfu.flags } }
  hub : ∀ d, t.hub d = { s.hub d with flags := (t.hub d).flags }

namespace FlagsOnly

theorem refl (s : State) : FlagsOnly s s := ⟨rfl, fun _ => rfl, fun _ => rfl⟩

theorem trans {s t u : State} (h : FlagsOnly s t) (g : FlagsOnly t u) : FlagsOnly s u := by
  refine ⟨?_, fun d => ?_, fun d => ?_⟩
  · rw [g.frame, h.frame]
  · have hd := h.core d
    have gd := g.core d
    generalize t.core d = k at hd gd
    rw [hd] at gd
    exact gd
  · have hd := h.hub d
    have gd := g.hub d
    generalize t.hub d = k at hd gd
    rw [hd] at gd
    exact gd

theorem setFlagReg (s : State) (u : FlagUnit) (r : FlagReg) : FlagsOnly s (s.setFlagReg u r) := by
  refine ⟨by cases u <;> rfl, fun d => ?_, fun d => ?_⟩
  · rw [core_setFlagReg]
    cases u with
    | hub => rfl
    | _ => dsimp only; split <;> rfl
  · rw [hub_setFlagReg]
    cases u with
    | hub => dsimp only; split <;> rfl
    | _ => rfl

theorem log {s t : State} (h : FlagsOnly s t) (l : LogSt) : FlagsOnly s { t with log := l } := by
  refine ⟨?_, h.core, h.hub⟩
  rw [h.frame]

theorem clock {s t : State} (h : FlagsOnly s t) : t.clock = s.clock := (congrArg State.clock h.frame :)

theorem tsc {s t : State} (h : FlagsOnly s t) : t.tsc = s.tsc := (congrArg State.tsc h.frame :)

theorem sched {s t : State} (h : FlagsOnly s t) : t.sched = s.sched := (congrArg State.sched h.frame :)

theorem flagClocked {s t : State} (h : FlagsOnly s t) (u : FlagUnit) : t.flagClocked u = s.flagClocked u := by
  have core : ∀ d, (t.core d).clken = (s.core d).clken := fun d => (congrArg CoreSt.clken (h.core d) :)
  have hub : ∀ d, (t.hub d).clken = (s.hub d).clken := fun d => (congrArg HubSt.clken (h.hub d) :)
  cases u <;> simp only [State.flagClocked, State.clkOn, h.clock, core, hub]

end FlagsOnly

/-- One NUMFLAGS register and the event log differ only. -/
def OnlyFlag (s t : State) (u : FlagUnit) : Prop := FlagsOnly s t ∧ ∀ w, w ≠ u → t.flagReg w = s.flagReg w

theorem onlyFlag_setFlagReg (s : State) (u : FlagUnit) (r : FlagReg) : OnlyFlag s (s.setFlagReg u r) u :=
  ⟨.setFlagReg s u r, fun _ h => flagReg_setFlagReg_of_ne s h r⟩

theorem post_eq (s : State) (code sev src : Nat) (args : List Nat) : ∃ l, s.post code sev src args = { s with log := l } := by
  unfold State.post
  split
  · exact ⟨s.log, rfl⟩
  · exact ⟨_, rfl⟩

/-- A cycle of a NUMFLAGS register writes it by R49, and beside it no more than the event log. -/
theorem flagCycle_eq (s : State) (u : FlagUnit) (clr set : BitVec 4) :
    ∃ (r : FlagReg) (l : LogSt), r.v = ((s.flagReg u).v &&& ~~~clr) ||| set ∧ s.flagCycle u clr set = { s.setFlagReg u r with log := l } := by
  unfold State.flagCycle
  extract_lets r next rose armed fire s'
  split
  · obtain ⟨l, hl⟩ := post_eq s' 0x0701 1 (flagSrc u) [rose.toNat]
    exact ⟨_, l, rfl, hl⟩
  · exact ⟨_, s'.log, rfl, rfl⟩

theorem onlyFlag_flagCycle (s : State) (u : FlagUnit) (clr set : BitVec 4) : OnlyFlag s (s.flagCycle u clr set) u := by
  obtain ⟨r, l, -, ht⟩ := flagCycle_eq s u clr set
  obtain ⟨only, others⟩ := onlyFlag_setFlagReg s u r
  rw [ht]
  exact ⟨only.log l, others⟩

/-- What a cycle leaves in its register (R49). -/
theorem flagReg_flagCycle (s : State) (u : FlagUnit) (clr set : BitVec 4) :
    ((s.flagCycle u clr set).flagReg u).v = ((s.flagReg u).v &&& ~~~clr) ||| set := by
  obtain ⟨r, l, hr, ht⟩ := flagCycle_eq s u clr set
  rw [ht, ← hr]
  exact congrArg FlagReg.v (flagReg_setFlagReg_same s u r)

/-- FlagClear on one register: its cycle where the engine is clocked, and a clear that waits for the clock where it is gated (R53). -/
theorem flagClear1_clocked {s : State} {u : FlagUnit} (h : s.flagClocked u = true) (mask set : BitVec 4) :
    s.flagClear1 u mask set = s.flagCycle u mask set := if_pos h

theorem flagClear1_gated {s : State} {u : FlagUnit} (h : s.flagClocked u = false) (mask set : BitVec 4) :
    s.flagClear1 u mask set = s.setFlagReg u { s.flagReg u with pendClr := (s.flagReg u).pendClr ||| mask } := if_neg (by simp [h])

theorem onlyFlag_flagClear1 (s : State) (u : FlagUnit) (mask set : BitVec 4) : OnlyFlag s (s.flagClear1 u mask set) u := by
  cases h : s.flagClocked u with
  | true => exact flagClear1_clocked h mask set ▸ onlyFlag_flagCycle s u mask set
  | false => exact flagClear1_gated h mask set ▸ onlyFlag_setFlagReg s u _

/-! A list of registers, each worked on by an operation that changes no other one. -/

section
variable {f : State → FlagUnit → State} (hf : ∀ s u, OnlyFlag s (f s u) u)
include hf

theorem forEach_flagsOnly (us : List FlagUnit) (s : State) : FlagsOnly s (s.forEach us f) := by
  induction us generalizing s with
  | nil => exact .refl s
  | cons u us ih => exact (hf s u).1.trans (ih (f s u))

theorem flagReg_forEach_of_not_mem {us : List FlagUnit} {w : FlagUnit} (h : w ∉ us) (s : State) :
    (s.forEach us f).flagReg w = s.flagReg w := by
  induction us generalizing s with
  | nil => rfl
  | cons u us ih =>
    rw [List.mem_cons, not_or] at h
    exact (ih h.2 (f s u)).trans ((hf s u).2 w h.1)

/-- A register that is listed once is worked on in a state that has it, and every clock, as before. -/
theorem flagReg_forEach_of_mem {us : List FlagUnit} {w : FlagUnit} (h : w ∈ us) (hn : us.Nodup) (s : State) :
    ∃ t, FlagsOnly s t ∧ t.flagReg w = s.flagReg w ∧ (s.forEach us f).flagReg w = (f t w).flagReg w := by
  induction us generalizing s with
  | nil => exact absurd h List.not_mem_nil
  | cons u us ih =>
    obtain ⟨hu, hus⟩ := List.nodup_cons.mp hn
    by_cases hw : w = u
    · subst hw
      exact ⟨s, .refl s, rfl, flagReg_forEach_of_not_mem hf hu (f s w)⟩
    · obtain ⟨t, only, same, last⟩ := ih ((List.mem_cons.mp h).resolve_left hw) hus (f s u)
      exact ⟨t, (hf s u).1.trans only, same.trans ((hf s u).2 w hw), last⟩

end

/-- The registers of a flag clear after it (R49, R147). -/
theorem flagReg_forEach_flagCycle {us : List FlagUnit} (hn : us.Nodup) (s : State) (mask : BitVec 4) (set : FlagUnit → BitVec 4)
    (w : FlagUnit) : ((s.forEach us (fun s u => s.flagCycle u mask (set u))).flagReg w).v =
      if w ∈ us then ((s.flagReg w).v &&& ~~~mask) ||| set w else (s.flagReg w).v := by
  have step : ∀ s u, OnlyFlag s (s.flagCycle u mask (set u)) u := fun s u => onlyFlag_flagCycle s u mask (set u)
  split
  next h =>
    obtain ⟨t, -, same, last⟩ := flagReg_forEach_of_mem step h hn s
    rw [last, flagReg_flagCycle, same]
  next h => rw [flagReg_forEach_of_not_mem step h]

/-- The registers of FlagClear after it, those of clocked engines and those of gated ones (R49, R53). -/
theorem flagReg_forEach_flagClear1 {us : List FlagUnit} (hn : us.Nodup) (s : State) (mask : BitVec 4) (set : FlagUnit → BitVec 4)
    (w : FlagUnit) :
    let t := s.forEach us (fun s u => s.flagClear1 u mask (set u))
    if w ∈ us then
      if s.flagClocked w then (t.flagReg w).v = ((s.flagReg w).v &&& ~~~mask) ||| set w
      else t.flagReg w = { s.flagReg w with pendClr := (s.flagReg w).pendClr ||| mask }
    else t.flagReg w = s.flagReg w := by
  have step : ∀ s u, OnlyFlag s (s.flagClear1 u mask (set u)) u := fun s u => onlyFlag_flagClear1 s u mask (set u)
  intro t
  split
  next h =>
    obtain ⟨x, only, same, last⟩ := flagReg_forEach_of_mem step h hn s
    split
    next hc => rw [last, flagClear1_clocked (only.flagClocked w ▸ hc), flagReg_flagCycle, same]
    next hc => rw [last, flagClear1_gated (by rw [only.flagClocked w]; simpa using hc), flagReg_setFlagReg_same, same]
  next h => exact flagReg_forEach_of_not_mem step h s

/-! The registers that a command names, each once. -/

theorem flagUnits_nodup (c : Fin 136) (sel : Nat) : (flagUnits c sel).Nodup := by
  unfold flagUnits
  cases sel.testBit 0 <;> cases sel.testBit 1 <;> cases sel.testBit 2 <;> simp

theorem engine_of_mem_flagUnits {c : Fin 136} {sel : Nat} {u : FlagUnit} (h : u ∈ flagUnits c sel) :
    u = .mxe c ∨ u = .vxe c ∨ u = .sfu c := by
  unfold flagUnits at h
  simp only [List.mem_append, List.mem_ite_nil_right, List.mem_singleton, or_assoc] at h
  exact h.imp And.right (Or.imp And.right And.right)

theorem nodup_mapIf {α : Type} {f : α → FlagUnit} {xs : List α} (hf : Function.Injective f) (h : xs.Nodup) (b : Bool) :
    (if b then xs.map f else []).Nodup := by
  split
  · exact h.map hf
  · exact List.nodup_nil

theorem clearUnits_nodup (v : Word) : (clearUnits v).Nodup := by
  unfold clearUnits
  extract_lets die core cs hs
  have hcs : cs.Nodup := (List.nodup_finRange 136).filter _
  have hhs : hs.Nodup := (List.nodup_finRange 2).filter _
  have mxe := nodup_mapIf (fun _ _ => FlagUnit.mxe.inj) hcs (bit v 19)
  have vxe := nodup_mapIf (fun _ _ => FlagUnit.vxe.inj) hcs (bit v 20)
  have sfu := nodup_mapIf (fun _ _ => FlagUnit.sfu.inj) hcs (bit v 21)
  have hub := nodup_mapIf (fun _ _ => FlagUnit.hub.inj) hhs (bit v 22)
  refine ((mxe.append vxe ?_).append sfu ?_).append hub ?_
  all_goals
    intro u hu hw
    cases u <;> simp at hu hw

/-! The commands. -/

/-- A record of the action log is written to device memory (R376). -/
theorem appendLog_frame (s : State) (idx sub : Nat) (b : List Byte) :
    s.appendLog idx sub b = { s with
      mem := (s.appendLog idx sub b).mem, log := (s.appendLog idx sub b).log, husk := (s.appendLog idx sub b).husk } := by
  unfold State.appendLog
  extract_lets k val record place s1
  split
  · rfl
  · have written : MemOnly s s1 := by
      unfold s1
      split
      · exact memOnly_memWrite s deviceStream place record 0 noErr
      · exact .refl s
    unfold MemOnly at written
    rw [written]

/-- What taking an action leaves as it was: its status and its record touch no unit (R376, R412). -/
theorem taken_frame (s : State) (idx sub : Nat) (b : List Byte) :
    s.taken idx sub b = { s with
      mem := (s.taken idx sub b).mem, log := (s.taken idx sub b).log, husk := (s.taken idx sub b).husk,
      actStatus := (s.taken idx sub b).actStatus } := by
  unfold State.taken
  split
  · rw [appendLog_frame]
    rfl
  · rfl

@[simp] theorem flagReg_taken (s : State) (idx sub : Nat) (b : List Byte) (u : FlagUnit) : (s.taken idx sub b).flagReg u = s.flagReg u := by
  rw [taken_frame]
  cases u <;> rfl

@[simp] theorem flagClocked_taken (s : State) (idx sub : Nat) (b : List Byte) (u : FlagUnit) :
    (s.taken idx sub b).flagClocked u = s.flagClocked u := by
  rw [taken_frame]
  cases u <;> rfl

@[simp] theorem sched_taken (s : State) (idx sub : Nat) (b : List Byte) : (s.taken idx sub b).sched = s.sched := by
  rw [taken_frame]

theorem exec_flagrdRead {c : Fin 136} {w : Cmd} {s : State} (hw : s.begun c 6 = some w) (hi : engSelIdle (s.core c) (sqEngsel w) = true) :
    exec (.flagrdRead c) s =
      .next ((s.spadWrite c (64 * sqFaddr w) (leBytes 4 (s.flagReg (flagUnit c (sqEngsel w))).v.toNat)).advance c) := by
  show execFlagrdRead c s = _
  simp [execFlagrdRead, hw, hi]

theorem exec_flagclrClear {c : Fin 136} {w : Cmd} {s : State} (hw : s.begun c 7 = some w) (hi : engSelIdle (s.core c) (sqEngsel w) = true)
    (cs : List (FlagUnit × BitVec 4)) : exec (.flagclrClear c cs) s =
      .next ((s.forEach (flagUnits c (sqEngsel w)) (fun s u => s.flagCycle u (sqMask w) (cosetOf cs u))).advance c) := by
  show execFlagclrClear c cs s = _
  simp [execFlagclrClear, hw, hi]

theorem exec_numflagsWindowClear {u : FlagUnit} {s : State} (hb : s.busUp = true)
    (hc : match u with | .hub _ => True | _ => s.flagClocked u = true) (v : Word) (co : BitVec 4) :
    exec (.numflagsWindowClear u v co) s = .next (s.flagCycle u (BitVec.ofNat 4 v.toNat) co) := by
  show execNumflagsWindowClear u v co s = _
  cases u <;> simp_all [execNumflagsWindowClear]

theorem exec_flagClear {q : OdReq} {v : Word} {s : State} (h : s.admits q 0x0701 (leBytes 4 v.toNat)) (hdie : fld v 31 29 ≠ 6)
    (hcore : fld v 28 23 ≤ 33 ∨ fld v 28 23 = 0x3F) (hzero : fld v 18 4 = 0) (hus : clearUnits v ≠ []) (co : List (FlagUnit × BitVec 4)) :
    exec (.flagClear q v co) s = .next (((s.taken 0x0701 0 (leBytes 4 v.toNat)).forEach (clearUnits v)
      (fun s u => s.flagClear1 u (BitVec.ofNat 4 (fld v 3 0)) (cosetOf co u))).answer q 0) := by
  have valid : ∀ t, (actFlagClear t v co).inv = false := by
    intro t
    have hi : ¬ (33 < fld v 28 23 ∧ fld v 28 23 ≠ 0x3F) := by omega
    simp [actFlagClear, hdie, hzero, hus]
    omega
  have obj : objOf 0x0701 0 = some ⟨0x0701, 0, 0, .u32, .act⟩ := by decide
  show Host.Outcome.next _ = _
  rw [request_taken _ h (by decide) (by decide) obj rfl rfl (valid _) rfl]
  rfl

/-- The core after a flag clear: its NUMFLAGS and its sequencer. -/
theorem FlagsOnly.core_advance {s t : State} (h : FlagsOnly s t) (c : Nat) :
    (t.advance c).core c = { s.core c with
      seq := (s.core c).seq.moved s.tsc, mxe := { (s.core c).mxe with flags := ((t.advance c).core c).mxe.flags },
      vxe := { (s.core c).vxe with flags := ((t.advance c).core c).vxe.flags },
      sfu := { (s.core c).sfu with flags := ((t.advance c).core c).sfu.flags } } := by
  have core := h.core c
  simp only [Machine.core_advance, if_true, h.tsc]
  generalize t.core c = k at core ⊢
  rw [core]

theorem onlyCore_forEach_flagCycle {c : Fin 136} {us : List FlagUnit} (h : ∀ u ∈ us, u = .mxe c ∨ u = .vxe c ∨ u = .sfu c) (s : State)
    (mask : BitVec 4) (set : FlagUnit → BitVec 4) : OnlyCore s (s.forEach us (fun s u => s.flagCycle u mask (set u))) c := by
  induction us generalizing s with
  | nil => exact .rfl' s c
  | cons u us ih =>
    have one := onlyCore_flagCycle s u c mask (set u) ⟨c, rfl, h u List.mem_cons_self⟩
    exact one.then (ih (fun x hx => h x (List.mem_cons_of_mem u hx)) _)

/-- Settles O15: each command has its equation, and the registers are cycled one by one, each once. -/
theorem flagsAreReadAndCleared : Obligations.FlagsAreReadAndCleared := by
  unfold Obligations.FlagsAreReadAndCleared
  refine ⟨⟨fun c w s hw hi => ?read, fun c w cs s hw hi => ?clear⟩, fun u v co s hb hc => ?store,
    fun q v co s h hdie hcore hzero hus => ?flagClear⟩
  case read =>
    refine ⟨_, exec_flagrdRead hw hi, (onlyCore_spadWrite s c _ _).then (onlyCore_advance _ c), ?_⟩
    rw [core_advance, if_pos rfl, core_spadWrite, if_pos rfl]
    rfl
  case clear =>
    have cleared := forEach_flagsOnly (fun s u => onlyFlag_flagCycle s u (sqMask w) (cosetOf cs u)) (flagUnits c (sqEngsel w)) s
    refine ⟨_, exec_flagclrClear hw hi cs, ?_, cleared.core_advance c, fun u => ?_⟩
    · exact (onlyCore_forEach_flagCycle (fun u hu => engine_of_mem_flagUnits hu) s _ _).then (onlyCore_advance _ c)
    · rw [flagReg_advance]
      exact flagReg_forEach_flagCycle (flagUnits_nodup c _) s _ _ u
  case store =>
    obtain ⟨only, others⟩ := onlyFlag_flagCycle s u (BitVec.ofNat 4 v.toNat) co
    exact ⟨_, exec_numflagsWindowClear hb hc v co, only.frame, flagReg_flagCycle s u _ co, others⟩
  case flagClear =>
    intro mask
    have only := forEach_flagsOnly (fun s u => onlyFlag_flagClear1 s u mask (cosetOf co u)) (clearUnits v) (s.taken 0x0701 0 (leBytes 4 v.toNat))
    refine ⟨_, exec_flagClear h hdie hcore hzero hus co, _, rfl, only.sched.trans (sched_taken s _ _ _), fun w => ?_⟩
    have registers := flagReg_forEach_flagClear1 (clearUnits_nodup v) (s.taken 0x0701 0 (leBytes 4 v.toNat)) mask (cosetOf co) w
    simpa only [flagReg_taken, flagClocked_taken] using registers

end Sys2Proof.Machine

/-! SUPPORT. The matrix engine: what its commands do at issue, the work that runs at once in a free engine, and the flags it raises. -/

namespace Sys2Proof.Machine

/-! Scratchpad reads without an error (R187). -/

theorem spadReadEcc_quiet {ecc : List (Nat × Ecc)} (h : quiet ecc) (s : State) (c a n : Nat) : s.spadReadEcc c a n ecc = s := by
  have clean : ∀ es : List (Nat × Ecc), quiet es → es.foldl (fun s e => s.spadEcc c e.1 e.2) s = s := by
    intro es hes
    induction es with
    | nil => rfl
    | cons e es ih =>
      have first : s.spadEcc c e.1 e.2 = s := by rw [hes e List.mem_cons_self]; rfl
      rw [List.foldl_cons, first, ih (fun x hx => hes x (List.mem_cons_of_mem e hx))]
  exact clean _ (fun e he => h e (List.mem_of_mem_filter he))

/-- An engine that reads words without an error goes on with them. -/
theorem readThen_quiet {ecc : List (Nat × Ecc)} (h : quiet ecc) (s : State) (c : Nat) (rs : List (Nat × Nat)) (f : State → State) :
    s.readThen c rs ecc f = f s := by
  have unread : rs.foldl (fun s r => s.spadReadEcc c r.1 r.2 ecc) s = s := by
    induction rs with
    | nil => rfl
    | cons r rs ih => rw [List.foldl_cons, spadReadEcc_quiet h, ih]
  simp [State.readThen, unread]

@[simp] theorem spadRead_updMxe (s : State) (c d a n : Nat) (f : MxeSt → MxeSt) : (s.updMxe c f).spadRead d a n = s.spadRead d a n := by
  unfold State.spadRead
  rw [core_updMxe]
  split
  next h => rw [h]
  next => rfl

@[simp] theorem spadWords_updMxe (s : State) (c d a n : Nat) (f : MxeSt → MxeSt) : (s.updMxe c f).spadWords d a n = s.spadWords d a n := by
  simp [State.spadWords]

@[simp] theorem spadWords_advance (s : State) (c a n : Nat) : (s.advance c).spadWords c a n = s.spadWords c a n := by
  simp [State.spadWords, State.spadRead]

@[simp] theorem clkOn_updMxe (s : State) (c d n : Nat) (f : MxeSt → MxeSt) : (s.updMxe c f).clkOn d n = s.clkOn d n := by
  unfold State.clkOn
  rw [core_updMxe]
  split
  next h => rw [h]; rfl
  next => rfl

theorem updMxe_updMxe (s : State) (c : Nat) (f g : MxeSt → MxeSt) : (s.updMxe c f).updMxe c g = s.updMxe c (g ∘ f) :=
  updCore_updCore s c _ _

theorem updMxe_congr {s : State} {c : Nat} {f g : MxeSt → MxeSt} (h : f (s.core c).mxe = g (s.core c).mxe) : s.updMxe c f = s.updMxe c g :=
  updCore_congr (by rw [h])

/-! The work of the array and of the drain path. -/

/-- Work is held by an earlier drain only (R81). -/
theorem arrHeld_of_drains_nil {m : MxeSt} (h : m.drains = []) (n : Nat) (it : ArrItem) : arrHeld m n it = false := by
  simp [arrHeld, h]

/-- A drain waits for work of the array only (R81, R82). -/
theorem drainReady_of_arrQ_nil {m : MxeSt} (h : m.arrQ = []) (d : Drain) : drainReady m d = true := by
  simp [drainReady, h]

/-- No row enters the hand-off queue of an engine that drains to the scratchpad. -/
theorem pump_of_route_spad (n : Nat) {s : State} {c : Nat} (h : cfgRoute (s.core c).mxe.cfg = false) : State.pump n s c = s := by
  cases n with
  | zero => rfl
  | succ n =>
    simp only [State.pump]
    split
    · rw [if_neg (by simp [h])]
    · rfl

/-- No row enters a full hand-off queue (R80). -/
theorem pump_of_full (n : Nat) {s : State} {c : Nat} (h : 64 ≤ (s.core c).mxe.hq.length) : State.pump n s c = s := by
  cases n with
  | zero => rfl
  | succ n =>
    simp only [State.pump]
    split
    · rw [if_neg (by simp [h])]
    · rfl

/-- A row of the drain at the head, but not its last, enters a hand-off queue with room (R80). -/
theorem pump_enters {s : State} {c : Nat} {d : Drain} {ds : List Drain} (n : Nat) (hd : (s.core c).mxe.drains = d :: ds)
    (hroute : cfgRoute (s.core c).mxe.cfg = true) (hready : drainReady (s.core c).mxe d = true)
    (hrow : d.row + 1 < (s.core c).mxe.rows d.slot) (hroom : (s.core c).mxe.hq.length < 64) :
    State.pump (n + 1) s c = State.pump n (s.pushRow c d) c := by
  simp [State.pump, hd, hroute, hready, hrow, hroom]

/-- With no work in the array's queue only the drain goes on. -/
theorem mxeRun_of_arrQ_nil {s : State} {c : Nat} (hp : (s.core c).mxePaused = false) (hc : s.clkOn c 1 = true)
    (h : (s.core c).mxe.arrQ = []) : s.mxeRun c = State.pump 128 s c := by
  rw [State.mxeRun, if_neg (by simp [hp, hc]), arrRun_nil 40 s c h]

/-- What the array does with the work that it takes from its queue; a MAC stays there for its groups (R73 to R75). -/
def State.arrDo (s : State) (c : Nat) : ArrItem → State
  | .zero _ => s
  | .load i a ecc => s.doLoad c i a ecc
  | .merge i a ecc => s.doMerge c i a ecc
  | .mac .. => s

/-- The work at the head of the array's queue is done when nothing holds it (R74, R81). -/
theorem arrRun_takes {s : State} {c n : Nat} {it : ArrItem} {q : List (Nat × ArrItem)} (hq : (s.core c).mxe.arrQ = (n, it) :: q)
    (hheld : arrHeld (s.core c).mxe n it = false) (hit : ∀ i kg left aa ba as bs, it ≠ .mac i kg left aa ba as bs) (fuel : Nat) :
    State.arrRun (fuel + 1) s c = State.arrRun fuel ((s.arrPop c).arrDo c it) c := by
  cases it with
  | mac i kg left aa ba as bs => exact absurd rfl (hit i kg left aa ba as bs)
  | _ => simp [State.arrRun, State.arrDo, hq, hheld]

/-- An opening, a load or a merge that joins the queue of a free engine is done at once (R74). -/
theorem mxeRun_push {s t : State} {c : Nat} {it : ArrItem} (h : s.mxeFree c) (hclk : s.clkOn c 1 = true)
    (hit : ∀ i kg left aa ba as bs, it ≠ .mac i kg left aa ba as bs)
    (ht : (s.updMxe c (fun m => { m with num := m.num + 1 })).arrDo c it = t)
    (hq : (t.core c).mxe.arrQ = []) (hd : (t.core c).mxe.drains = []) : (s.updMxe c (fun m => m.push it)).mxeRun c = t := by
  obtain ⟨noQ, noD, hp⟩ := h
  have popped : (s.updMxe c (fun m => m.push it)).arrPop c = s.updMxe c (fun m => { m with num := m.num + 1 }) := by
    rw [State.arrPop, updMxe_updMxe]
    exact updMxe_congr (by simp [MxeSt.push, noQ])
  have ran : State.arrRun 40 (s.updMxe c (fun m => m.push it)) c = State.arrRun 39 t c := by
    rw [arrRun_takes (n := (s.core c).mxe.num) (q := []) (by simp [MxeSt.push, noQ])
      (arrHeld_of_drains_nil (by simp [MxeSt.push, noD]) _ _) hit, popped, ht]
  rw [State.mxeRun, if_neg (by simp [hp, hclk]), ran, arrRun_nil 39 t c hq, pump_nil 128 t c hd]

/-- A load of a tile that shows no error (R73). -/
theorem doLoad_quiet {ecc : List (Nat × Ecc)} (h : quiet ecc) (s : State) (c i a : Nat) :
    s.doLoad c i a ecc = s.updMxe c (fun m => { m with
      slots := m.slots.set {} i { m.slot i with accs := s.spadWords c (64 * a) ((s.core c).mxe.rows i * 96) } }) := by
  rw [State.doLoad, readThen_quiet h]

/-! Flags of the matrix engine. -/

/-- The module differs in core `c` only, which is `k` but for its matrix engine's NUMFLAGS; these have risen by `fl` (R47, R48). -/
def MxeRaises (s t : State) (c : Nat) (k : CoreSt) (fl : Flags) : Prop :=
  OnlyCore s t c ∧ ∃ r : FlagReg, r.v = k.mxe.flags.v ||| fl ∧ t.core c = { k with mxe := { k.mxe with flags := r } }

/-- A change of a core and then a raise. -/
theorem mxeRaises_updCore (s : State) (c : Fin 136) (f : CoreSt → CoreSt) (fl : Flags) :
    MxeRaises s ((s.updCore c f).raiseFlags (.mxe c) fl) c (f (s.core c)) fl := by
  obtain ⟨r, hr, hcore⟩ := core_raiseFlags (s.updCore c f) (.mxe c) fl
  refine ⟨(onlyCore_upd s c f).then (onlyCore_raiseFlags _ (.mxe c) c fl ⟨c, rfl, .inl rfl⟩), r, ?_, ?_⟩
  · simpa [State.flagReg] using hr
  · simp [hcore]

namespace MxeRaises

variable {s t : State} {c : Nat} {k : CoreSt} {fl : Flags}

/-- A later change of the engine that does not touch NUMFLAGS. -/
theorem updMxe (h : MxeRaises s t c k fl) {g : MxeSt → MxeSt} (hg : ∀ m r, g { m with flags := r } = { g m with flags := r }) :
    MxeRaises s (t.updMxe c g) c { k with mxe := g k.mxe } fl := by
  obtain ⟨only, r, hr, hcore⟩ := h
  have flags : (g k.mxe).flags = k.mxe.flags := (congrArg MxeSt.flags (hg k.mxe k.mxe.flags) :)
  refine ⟨only.then (onlyCore_updMxe t c g), r, by rw [hr, flags], ?_⟩
  rw [core_updMxe, if_pos rfl, hcore, hg]

theorem mxe (h : MxeRaises s t c k fl) : ∃ r, (t.core c).mxe = { k.mxe with flags := r } := by
  obtain ⟨-, r, -, hcore⟩ := h
  exact ⟨r, by rw [hcore]⟩

theorem arrQ (h : MxeRaises s t c k fl) : (t.core c).mxe.arrQ = k.mxe.arrQ := by
  obtain ⟨r, hr⟩ := h.mxe
  rw [hr]

theorem drains (h : MxeRaises s t c k fl) : (t.core c).mxe.drains = k.mxe.drains := by
  obtain ⟨r, hr⟩ := h.mxe
  rw [hr]

theorem hq (h : MxeRaises s t c k fl) : (t.core c).mxe.hq = k.mxe.hq := by
  obtain ⟨r, hr⟩ := h.mxe
  rw [hr]

/-- An engine with no work left stays so. -/
theorem mxeRun (h : MxeRaises s t c k fl) (hq : k.mxe.arrQ = []) (hd : k.mxe.drains = []) : MxeRaises s (t.mxeRun c) c k fl := by
  rwa [mxeRun_nil t c (h.arrQ.trans hq) (h.drains.trans hd)]

end MxeRaises

/-! Issue. -/

theorem mxPasses_of_mxTakes {s : State} {c op : Nat} {w : Cmd} {mal : Bool} (h : s.mxTakes c w op mal) : s.mxPasses c w op mal := by
  obtain ⟨hat, hmal, hclk, hq, hd, -⟩ := h
  exact ⟨hat, hmal, hclk, by simp [mxeFull, hq, hd]⟩

theorem free_of_mxTakes {s : State} {c op : Nat} {w : Cmd} {mal : Bool} (h : s.mxTakes c w op mal) : s.mxeFree c ∧ s.clkOn c 1 = true := by
  obtain ⟨-, -, hclk, hfree⟩ := h
  exact ⟨hfree, hclk⟩

/-- A matrix command that passes its checks takes effect on the state whose sequencer has moved on (R140). -/
theorem issue_mxPasses {s : State} {c op : Nat} {w : Cmd} {mal bad : Bool} (h : s.mxPasses c w op mal) (hbad : bad = false)
    (eff : State → State) : s.issue c w 1 op mal (!s.clkOn c 1) bad (mxeFull (s.core c).mxe) eff = eff (s.advance c) := by
  obtain ⟨hat, hmal, hclk, hfull⟩ := h
  exact issue_ok eff hat hmal (by simp [hclk]) hbad hfull

theorem notOpen_of_open {m : MxeSt} {w : Cmd} (h : (m.slot (mxSlot w)).st = 1) : notOpen m w = false := by
  simp [notOpen, h]

theorem openBind_of_open {m : MxeSt} {w : Cmd} (h : (m.slot (mxSlot w)).st = 1) : openBind m w = some (m.slot (mxSlot w)) := by
  simp [openBind, notOpen_of_open h]

@[simp] theorem mxeFree_advance (s : State) (c : Nat) : (s.advance c).mxeFree c ↔ s.mxeFree c := by
  simp [State.mxeFree]

/-! MX.OPEN. -/

section
variable {c : Fin 136} {w : Cmd} {ecc : List (Nat × Ecc)} {s : State}

theorem exec_mxOpen_free (hst : ((s.core c).mxe.slot (mxSlot w)).st = 0) (h : s.mxPasses c w 1 (mxOpenMal (s.core c).mxe.cfg w)) :
    exec (.mxOpen c ⟨w, ecc⟩) s = .next ((s.advance c).doOpen c w ecc) := by
  show execMxOpen c ⟨w, ecc⟩ s = _
  obtain ⟨hat, -⟩ := id h
  simp only [execMxOpen, fetchFor_of_atCmd hat]
  rw [if_neg (by simp [hst]), issue_mxPasses h (by simp [hst])]

theorem exec_mxOpen_draining (hat : s.atCmd c w 1 1 = true) (hmal : mxOpenMal (s.core c).mxe.cfg w = false) (hclk : s.clkOn c 1 = true)
    (hst : ((s.core c).mxe.slot (mxSlot w)).st = 2) : exec (.mxOpen c ⟨w, ecc⟩) s = .next (s.seqWait c 1 (some w)) := by
  show execMxOpen c ⟨w, ecc⟩ s = _
  simp only [execMxOpen, fetchFor_of_atCmd hat]
  rw [if_pos (by simp [hat, hmal, hclk, hst])]

theorem exec_mxOpenHeldStart (hcmd : (s.core c).seq.cmd = some w) (hseq : (s.core c).seq.st = 2) (heng : cmdEng w = 1)
    (hst : ((s.core c).mxe.slot (mxSlot w)).st = 0) (hclk : s.clkOn c 1 = true) (hfull : mxeFull (s.core c).mxe = false) :
    exec (.mxOpenHeldStart ⟨c, ecc⟩) s = .next ((s.doOpen c w ecc).advance c) := by
  show execMxOpenHeldStart ⟨c, ecc⟩ s = _
  simp [execMxOpenHeldStart, hcmd, hseq, heng, hst, hclk, hfull]

end

/-- The engine with a slot bound by an opening, its accumulator zero (R70). -/
def MxeSt.bound (m : MxeSt) (w : Cmd) (strict : Bool) : MxeSt :=
  { m with slots := m.slots.set {} (mxSlot w) { mxBind w strict with accs := List.replicate (m.rows (mxSlot w) * 96) 0 } }

/-- The work of an opening (R73). -/
def openItem (w : Cmd) (ecc : List (Nat × Ecc)) : ArrItem :=
  if fld w.w0 8 7 = 1 then .load (mxSlot w) (mxLaddr w) ecc else .zero (mxSlot w)

theorem openItem_ne_mac (w : Cmd) (ecc : List (Nat × Ecc)) (i kg left aa ba as bs : Nat) : openItem w ecc ≠ .mac i kg left aa ba as bs := by
  unfold openItem
  split <;> simp

/-- MX.OPEN binds its slot, and its work joins the array's queue. -/
theorem doOpen_eq (s : State) (c : Nat) (w : Cmd) (ecc : List (Nat × Ecc)) : s.doOpen c w ecc =
    ((s.updMxe c (fun m => m.bound w (s.strictOf c))).updMxe c (fun m => m.push (openItem w ecc))).mxeRun c := by
  rw [updMxe_updMxe]
  rfl

/-- The engine after an opening that was done at once: the slot is `b` (R73). -/
def MxeSt.opened (m : MxeSt) (i : Nat) (b : Slot) : MxeSt := { m with num := m.num + 1, slots := m.slots.set {} i b }

/-- A free engine opens a slot at once (R70, R73). -/
theorem doOpen_free {s : State} {c : Nat} {w : Cmd} {ecc : List (Nat × Ecc)} (h : s.mxeFree c) (hclk : s.clkOn c 1 = true)
    (hecc : quiet ecc) : s.doOpen c w ecc = s.updMxe c (fun m => m.opened (mxSlot w) (s.openedSlot c w)) := by
  obtain ⟨hq, hd, -⟩ := id h
  rw [doOpen_eq]
  refine mxeRun_push (by simpa [State.mxeFree, MxeSt.bound] using h) (by simp [hclk]) (openItem_ne_mac w ecc) ?_
    (by simp [MxeSt.opened, hq]) (by simp [MxeSt.opened, hd])
  rw [updMxe_updMxe]
  by_cases hload : fld w.w0 8 7 = 1
  · rw [openItem, if_pos hload, State.arrDo, doLoad_quiet hecc, updMxe_updMxe]
    exact updMxe_congr (by simp [MxeSt.opened, MxeSt.bound, State.openedSlot, hload, MxeSt.slot, MxeSt.rows])
  · rw [openItem, if_neg hload, State.arrDo]
    exact updMxe_congr (by simp [MxeSt.opened, MxeSt.bound, State.openedSlot, hload])

@[simp] theorem openedSlot_advance (s : State) (c : Nat) (w : Cmd) : (s.advance c).openedSlot c w = s.openedSlot c w := by
  simp [State.openedSlot]

/-- Settles O1: an opening is one change of the engine where the engine is free, before or after the sequencer moves on. -/
theorem mxOpenBindsASlot : Obligations.MxOpenBindsASlot := by
  unfold Obligations.MxOpenBindsASlot
  refine ⟨fun c w ecc s hst => ⟨fun h => ?passes, fun h hecc => ?takes⟩, fun c w ecc s hat hmal hclk hst => ?draining,
    fun c w ecc s hcmd hseq heng hst hclk => ⟨fun hfull => ?starts, fun hfree hecc => ?startsFree⟩⟩
  case passes => exact ⟨_, exec_mxOpen_free hst h, rfl⟩
  case takes =>
    obtain ⟨hfree, hclk⟩ := free_of_mxTakes h
    refine ⟨_, exec_mxOpen_free hst (mxPasses_of_mxTakes h), ?_⟩
    rw [doOpen_free ((mxeFree_advance s c).mpr hfree) (by simp [hclk]) hecc]
    refine ⟨(onlyCore_advance s c).then (onlyCore_updMxe _ c _), (s.core c).mxe.num + 1, ?_⟩
    simp only [core_updMxe, core_advance, openedSlot_advance, if_true]
    rfl
  case draining => exact ⟨_, exec_mxOpen_draining hat hmal hclk hst, onlyCore_seqWait s c 1 _, core_seqWait s c 1 w⟩
  case starts => exact ⟨_, exec_mxOpenHeldStart hcmd hseq heng hst hclk hfull, rfl⟩
  case startsFree =>
    obtain ⟨hq, hd, -⟩ := id hfree
    refine ⟨_, exec_mxOpenHeldStart hcmd hseq heng hst hclk (by simp [mxeFull, hq, hd]), ?_⟩
    rw [doOpen_free hfree hclk hecc]
    refine ⟨(onlyCore_updMxe s c _).then (onlyCore_advance _ c), (s.core c).mxe.num + 1, ?_⟩
    simp only [core_advance, core_updMxe, if_true]
    rfl

/-! MX.MAC and its groups. -/

theorem exec_mxMac {c : Fin 136} {w : Cmd} {s : State} (hst : ((s.core c).mxe.slot (mxSlot w)).st = 1)
    (h : s.mxPasses c w 2 (mxMacMal (s.core c).mxe.cfg (some ((s.core c).mxe.slot (mxSlot w))) w)) :
    exec (.mxMac c w) s = .next (((s.advance c).updMxe c (fun m => m.push (.mac (mxSlot w) (mxKg w) (mxKg w) (fld w.w1 31 16)
      (fld w.w1 15 0) (fld w.w2 31 16) (fld w.w2 15 0)))).mxeRun c) := by
  show execMxMac c w s = _
  simp only [execMxMac, openBind_of_open hst]
  rw [issue_mxPasses h (notOpen_of_open hst)]

/-- A MAC that joins the queue of a free engine waits there for its groups. -/
theorem mxeRun_push_mac {s : State} {c : Nat} (h : s.mxeFree c) (i kg left aa ba as bs : Nat) :
    (s.updMxe c (fun m => m.push (.mac i kg left aa ba as bs))).mxeRun c = s.updMxe c (fun m => m.push (.mac i kg left aa ba as bs)) := by
  obtain ⟨noQ, noD, -⟩ := h
  exact mxeRun_mac _ c (s.core c).mxe.num i kg left aa ba as bs [] (by simp [MxeSt.push, noQ]) (by simp [MxeSt.push, noD])

/-- The queue of the array after one more group of the MAC at its head: the command leaves with its last group (R82). -/
def groupQ (n i kg left aa ba as bs : Nat) (rest : List (Nat × ArrItem)) : List (Nat × ArrItem) :=
  if left ≤ 1 then rest else (n, .mac i kg (left - 1) aa ba as bs) :: rest

theorem exec_mxeGroupResult {c : Fin 136} {ecc : List (Nat × Ecc)} {s : State} {n i kg left aa ba as bs : Nat} {rest : List (Nat × ArrItem)}
    (hq : (s.core c).mxe.arrQ = (n, .mac i kg left aa ba as bs) :: rest) (hp : (s.core c).mxePaused = false) (hclk : s.clkOn c 1 = true)
    (hheld : arrHeld (s.core c).mxe n (.mac i kg left aa ba as bs) = false) :
    exec (.mxeGroupResult ⟨c, ecc⟩) s = .next (((s.updMxe c (fun m =>
      { m with arrQ := groupQ n i kg left aa ba as bs rest })).groupStep c i kg left aa ba as bs ecc).mxeRun c) := by
  show execMxeGroupResult ⟨c, ecc⟩ s = _
  simp [execMxeGroupResult, groupQ, hq, hp, hclk, hheld]

/-- A group's values rest on the slot, the partition and the scratchpad, not on the array's queue. -/
theorem groupVals_arrQ (s : State) (q : List (Nat × ArrItem)) (c i kg left aa ba as bs : Nat) :
    (s.updMxe c (fun m => { m with arrQ := q })).groupVals c i kg left aa ba as bs = s.groupVals c i kg left aa ba as bs := by
  simp only [State.groupVals, core_updMxe, if_true, spadRead_updMxe]
  rfl

/-- A group whose panels show no error: its results in the slot, and its flags (R62). -/
theorem groupStep_quiet {ecc : List (Nat × Ecc)} (h : quiet ecc) (s : State) (c : Fin 136) (i kg left aa ba as bs : Nat) :
    s.groupStep c i kg left aa ba as bs ecc =
      (s.updMxe c (fun m => { m with slots := m.slots.set {} i { m.slot i with accs := (s.groupVals c i kg left aa ba as bs).1 } })).raiseFlags
        (.mxe c) (s.groupVals c i kg left aa ba as bs).2 := by
  simp only [State.groupStep, readThen_quiet h, c.isLt, dif_pos]

/-- Between groups an engine with no other work waits. -/
theorem MxeRaises.mxeRun_groupQ {s t : State} {c : Nat} {k : CoreSt} {fl : Flags} (h : MxeRaises s t c k fl) {n i kg left aa ba as bs : Nat}
    (hq : k.mxe.arrQ = groupQ n i kg left aa ba as bs []) (hd : k.mxe.drains = []) : MxeRaises s (t.mxeRun c) c k fl := by
  by_cases hleft : left ≤ 1
  · exact h.mxeRun (by rw [hq, groupQ, if_pos hleft]) hd
  · rwa [mxeRun_mac t c _ _ _ _ _ _ _ _ _ (h.arrQ.trans (hq.trans (if_neg hleft))) (h.drains.trans hd)]

/-- Settles O2: a MAC joins the queue; a group is one change of its slot and of the queue, and one raise of flags. -/
theorem mxMacAccumulatesItsGroups : Obligations.MxMacAccumulatesItsGroups := by
  unfold Obligations.MxMacAccumulatesItsGroups
  refine ⟨fun c w s hst => ?mac, fun c ecc s n i kg left aa ba as bs rest hq hp hclk => ?group⟩
  case mac =>
    intro mal it
    refine ⟨fun h => ⟨_, exec_mxMac hst h, rfl⟩, fun h => ⟨_, exec_mxMac hst (mxPasses_of_mxTakes h), ?_⟩⟩
    obtain ⟨hfree, -⟩ := free_of_mxTakes h
    rw [mxeRun_push_mac ((mxeFree_advance s c).mpr hfree)]
    exact ⟨(onlyCore_advance s c).then (onlyCore_updMxe _ c _), by simp [it]⟩
  case group =>
    intro q r
    refine ⟨fun hheld => ⟨_, exec_mxeGroupResult hq hp hclk hheld, rfl⟩, fun hecc hrest hd => ?_⟩
    subst hrest
    refine ⟨_, exec_mxeGroupResult hq hp hclk (arrHeld_of_drains_nil hd _ _), ?_⟩
    rw [groupStep_quiet hecc, groupVals_arrQ, updMxe_updMxe]
    exact (mxeRaises_updCore s c _ _).mxeRun_groupQ rfl hd

/-! MX.MERGE. -/

/-- The sums of a merge with their flags, element by element (R75). -/
def mergeSums (b : Slot) (ws : List Word) : List (Nat × Flags) :=
  (b.accs.zip ws).map (fun p => if b.acc then addI p.1.toNat p.2.toNat else addF b.strict cFP32 p.1.toNat p.2.toNat)

theorem exec_mxMerge {c : Fin 136} {w : Cmd} {ecc : List (Nat × Ecc)} {s : State} (hst : ((s.core c).mxe.slot (mxSlot w)).st = 1)
    (h : s.mxPasses c w 4 (mxMergeMal (s.core c).mxe.cfg w)) : exec (.mxMerge c ⟨w, ecc⟩) s =
      .next (((s.advance c).updMxe c (fun m => m.push (.merge (mxSlot w) (fld w.w1 31 16) ecc))).mxeRun c) := by
  show execMxMerge c ⟨w, ecc⟩ s = _
  simp only [execMxMerge]
  rw [issue_mxPasses h (notOpen_of_open hst)]

/-- A merge of a tile that shows no error: the sums in the slot, and their flags (R75). -/
theorem doMerge_quiet {ecc : List (Nat × Ecc)} (h : quiet ecc) (s : State) (c : Fin 136) (i a : Nat) :
    let b := (s.core c).mxe.slot i
    let rs := mergeSums b (s.spadWords c (64 * a) ((s.core c).mxe.rows i * 96))
    s.doMerge c i a ecc =
      (s.updMxe c (fun m => { m with slots := m.slots.set {} i { b with accs := rs.map (fun r => BitVec.ofNat 32 r.1) } })).raiseFlags
        (.mxe c) (orFlags (rs.map Prod.snd)) := by
  simp only [State.doMerge, readThen_quiet h, c.isLt, dif_pos]
  rfl

/-- A free engine carries out a merge at once: the sums and their flags, element by element (R75). -/
theorem merge_free {ecc : List (Nat × Ecc)} {s : State} {c : Fin 136} (h : s.mxeFree c) (hclk : s.clkOn c 1 = true) (hecc : quiet ecc)
    (i a : Nat) :
    let m := (s.core c).mxe
    let rs := mergeSums (m.slot i) (s.spadWords c (64 * a) (m.rows i * 96))
    MxeRaises s ((s.updMxe c (fun m => m.push (.merge i a ecc))).mxeRun c) c
      { s.core c with mxe := m.opened i { m.slot i with accs := rs.map (fun r => BitVec.ofNat 32 r.1) } } (orFlags (rs.map Prod.snd)) := by
  obtain ⟨hq, hd, -⟩ := id h
  intro m rs
  have merged : MxeRaises s ((s.updMxe c (fun m => { m with num := m.num + 1 })).doMerge c i a ecc) c
      { s.core c with mxe := m.opened i { m.slot i with accs := rs.map (fun r => BitVec.ofNat 32 r.1) } } (orFlags (rs.map Prod.snd)) := by
    rw [doMerge_quiet hecc, updMxe_updMxe, spadWords_updMxe, core_updMxe, if_pos rfl]
    exact mxeRaises_updCore s c _ _
  rwa [mxeRun_push (it := .merge i a ecc) h hclk (by simp) rfl (merged.arrQ.trans hq) (merged.drains.trans hd)]

/-! MX.CLOSE and its drain. -/

/-- The engine whose slot starts to drain (R76, R86). -/
def MxeSt.closed (m : MxeSt) (w : Cmd) : MxeSt :=
  { m with
    slots := m.slots.set {} (mxSlot w) { m.slot (mxSlot w) with st := 2 },
    drains := m.drains ++ [{ slot := mxSlot w, w := w, num := m.num }], num := m.num + 1 }

theorem exec_mxClose {c : Fin 136} {w : Cmd} {s : State} (hst : ((s.core c).mxe.slot (mxSlot w)).st = 1)
    (h : s.mxPasses c w 3 (mxCloseMal (s.core c).mxe.cfg (some ((s.core c).mxe.slot (mxSlot w))) w)) :
    exec (.mxClose c w) s = .next (((s.advance c).updMxe c (fun m => m.closed w)).mxeRun c) := by
  show execMxClose c w s = _
  simp only [execMxClose, openBind_of_open hst]
  rw [issue_mxPasses h (notOpen_of_open hst)]
  rfl

section
variable {s : State} {c : Fin 136} {d : Drain} (hq : (s.core c).mxe.arrQ = []) (hd : (s.core c).mxe.drains = [d])
  (hclk : s.clkOn c 1 = true) (hp : (s.core c).mxePaused = false)
include hq hd hclk hp

/-- The end of a drain to the scratchpad: its bytes, its flags, and the slot (R79). -/
theorem exec_mxDrainDone_spad (hroute : cfgRoute (s.core c).mxe.cfg = false) :
    let xs := exitSteps ((s.core c).mxe.slot d.slot) d.w ((s.core c).mxe.rows d.slot)
    exec (.mxDrainDone c) s =
      .next (((s.updCore c (fun k => { k with spad := exitWrite k.spad xs })).raiseFlags (.mxe c) (exitFlags xs)).freeSlot c d) := by
  show execMxDrainDone c s = _
  simp [execMxDrainDone, hd, hclk, hp, hroute, drainReady_of_arrQ_nil hq]

/-- The end of a drain to the hand-off queue: its last row, and the slot (R80). -/
theorem exec_mxDrainDone_queue (hroute : cfgRoute (s.core c).mxe.cfg = true) (hrow : d.row + 1 = (s.core c).mxe.rows d.slot)
    (hroom : (s.core c).mxe.hq.length < 64) : exec (.mxDrainDone c) s = .next ((s.pushRow c d).freeSlot c d) := by
  show execMxDrainDone c s = _
  simp [execMxDrainDone, hd, hclk, hp, hroute, drainReady_of_arrQ_nil hq, hrow, hroom]

end

/-- The end of the only drain of an engine frees its slot (R70). -/
theorem MxeRaises.freeSlot {s t : State} {c : Nat} {k : CoreSt} {fl : Flags} (h : MxeRaises s t c k fl) {d e : Drain}
    (hq : k.mxe.arrQ = []) (hd : k.mxe.drains = [e]) :
    MxeRaises s (t.freeSlot c d) c { k with mxe := { k.mxe with slots := k.mxe.slots.set {} d.slot {}, drains := [] } } fl := by
  have freed := h.updMxe (g := fun m => { m with slots := m.slots.set {} d.slot {}, drains := m.drains.drop 1 }) (fun _ _ => rfl)
  simp only [hd, List.drop_succ_cons, List.drop_zero] at freed
  exact freed.mxeRun hq rfl

/-- The row of a drain that enters the hand-off queue next (R76, R80). -/
def MxeSt.nextRow (m : MxeSt) (d : Drain) : RowOut :=
  exitRow (m.slot d.slot) d.w ((((m.slot d.slot).accs.drop (96 * d.row)).take 96).map BitVec.toNat)

/-- The engine after the only drain has entered its next row. -/
def MxeSt.rowEntered (m : MxeSt) (d : Drain) : MxeSt :=
  { m with
    drains := [{ d with row := d.row + 1 }], hq := m.hq ++ [hqEntry d.slot (m.rows d.slot) d.row d.w (m.nextRow d)] }

theorem length_hq_rowEntered (m : MxeSt) (d : Drain) : (m.rowEntered d).hq.length = m.hq.length + 1 := by
  rw [MxeSt.rowEntered, List.length_append, List.length_singleton]

/-- A row of the only drain: it enters the hand-off queue, then its flags are raised. -/
theorem pushRow_alone {s : State} {c : Fin 136} {d : Drain} (hd : (s.core c).mxe.drains = [d]) :
    s.pushRow c d = (s.updMxe c (fun m => m.rowEntered d)).raiseFlags (.mxe c) ((s.core c).mxe.nextRow d).fl := by
  simp only [State.pushRow, c.isLt, dif_pos, MxeSt.nextRow]
  congr 1
  exact updMxe_congr (by simp only [hd, List.map_cons, List.map_nil, if_true, MxeSt.rowEntered, MxeSt.nextRow])

theorem pushRow_raises {s : State} {c : Fin 136} {d : Drain} (hd : (s.core c).mxe.drains = [d]) :
    MxeRaises s (s.pushRow c d) c { s.core c with mxe := (s.core c).mxe.rowEntered d } ((s.core c).mxe.nextRow d).fl := by
  rw [pushRow_alone hd]
  exact mxeRaises_updCore s c _ _

theorem exec_mxDrainResume (c : Fin 136) (s : State) : exec (.mxDrainResume c) s = .next (s.mxeRun c) := rfl

/-- A drain whose hand-off queue has one place left goes on by one row (R80). -/
theorem mxeRun_enters_row {s : State} {c : Fin 136} {d : Drain} (hq : (s.core c).mxe.arrQ = []) (hd : (s.core c).mxe.drains = [d])
    (hclk : s.clkOn c 1 = true) (hp : (s.core c).mxePaused = false) (hroute : cfgRoute (s.core c).mxe.cfg = true)
    (hrow : d.row + 1 < (s.core c).mxe.rows d.slot) (hroom : (s.core c).mxe.hq.length = 63) : s.mxeRun c = s.pushRow c d := by
  have full : 64 ≤ ((s.pushRow c d).core c).mxe.hq.length := by
    rw [(pushRow_raises hd).hq, length_hq_rowEntered]
    omega
  rw [mxeRun_of_arrQ_nil hp hclk hq, pump_enters 127 hd hroute (drainReady_of_arrQ_nil hq d) hrow (by omega), pump_of_full 127 full]

/-- Settles O3: a merge and each end of a drain are one change of the core and one raise of flags; a close in an engine that drains to the
scratchpad is one change of the engine. -/
theorem mxMergeAndClose : Obligations.MxMergeAndClose := by
  unfold Obligations.MxMergeAndClose
  refine ⟨fun c w ecc s hst => ?merge, fun c w s hst => ?close, fun c d s hq hd hclk hp => ?drain⟩
  case merge =>
    intro mal b ws rs
    refine ⟨fun h => ⟨_, exec_mxMerge hst h, rfl⟩, fun h hecc => ⟨_, exec_mxMerge hst (mxPasses_of_mxTakes h), ?_⟩⟩
    obtain ⟨hfree, hclk⟩ := free_of_mxTakes h
    obtain ⟨only, fl, hfl, hcore⟩ :=
      merge_free ((mxeFree_advance s c).mpr hfree) (by simp [hclk]) hecc (mxSlot w) (fld w.w1 31 16)
    simp only [core_advance, if_true, spadWords_advance] at hfl hcore
    exact ⟨(onlyCore_advance s c).then only, _, fl, hfl, hcore⟩
  case close =>
    intro mal f
    refine ⟨fun h => ⟨_, exec_mxClose hst h, rfl⟩, fun h hroute => ⟨_, exec_mxClose hst (mxPasses_of_mxTakes h), ?_⟩⟩
    obtain ⟨⟨hq, -, hp⟩, hclk⟩ := free_of_mxTakes h
    rw [mxeRun_of_arrQ_nil (by simp [hp]) (by simp [hclk]) (by simp [MxeSt.closed, hq]),
      pump_of_route_spad 128 (by simp [MxeSt.closed, hroute])]
    exact ⟨(onlyCore_advance s c).then (onlyCore_updMxe _ c _), by simp [f, MxeSt.closed]⟩
  case drain =>
    intro xs b row hq' free
    refine ⟨fun hroute => ⟨_, exec_mxDrainDone_spad hq hd hclk hp hroute, ?toScratchpad⟩,
      fun hroute hrow hroom => ⟨_, exec_mxDrainDone_queue hq hd hclk hp hroute hrow hroom, ?lastRow⟩,
      fun hroute hrow hroom => ⟨_, exec_mxDrainResume c s, ?resumed⟩⟩
    case toScratchpad => exact (mxeRaises_updCore s c _ (exitFlags xs)).freeSlot hq hd
    case lastRow => exact (pushRow_raises hd).freeSlot hq rfl
    case resumed =>
      rw [mxeRun_enters_row hq hd hclk hp hroute hrow hroom]
      exact pushRow_raises hd

end Sys2Proof.Machine

/-! SUPPORT. The vector engine: the issue of an instruction, its effect in a free engine, and what it does with VL = 0. -/

namespace Sys2Proof.Machine

/-! Issue. -/

theorem vxPasses_of_vxTakes {s : State} {c op : Nat} {w : Cmd} (h : s.vxTakes c w op) : s.vxPasses c w op := by
  obtain ⟨hat, hmal, hclk, hbad, -, hq, -, -⟩ := h
  exact ⟨hat, hmal, hclk, hbad, by simp [hq]⟩

/-- An instruction that passes its checks takes its place in the VXE, which goes on as far as it can (R94, R140). -/
theorem vxIssue_passes {s : State} {c op : Nat} {w : Cmd} (h : s.vxPasses c w op) (ecc : List (Nat × Ecc)) :
    s.vxIssue c w op ecc =
      ((s.advance c).updVxe c (fun v => { v with q := v.q ++ [{ s.vxItem c w with ecc := ecc }] })).vxRun vxFuel c := by
  obtain ⟨hat, hmal, hclk, hbad, hq⟩ := h
  unfold State.vxIssue
  rw [issue_ok _ hat hmal (by simp [hclk]) hbad (by simp [vxFull, hq])]
  have item : (s.advance c).updVxe c (fun v =>
        { v with q := v.q ++ [{ w := w, strict := (s.advance c).strictOf c, vl := v.vl, rlen := v.rlen, ecc := ecc }] }) =
      (s.advance c).updVxe c (fun v => { v with q := v.q ++ [{ s.vxItem c w with ecc := ecc }] }) :=
    updCore_congr (by simp [State.vxItem])
  exact congrArg (fun u => State.vxRun vxFuel u c) item

/-- An instruction that leaves the pipes and the queue of a free engine as they are is all that the engine does (R95). -/
theorem vxIssue_done {s t : State} {c op : Nat} {w : Cmd} {ecc : List (Nat × Ecc)} (h : s.vxTakes c w op) (hop : op ≠ 0x05)
    (hrun : vxRunOne (s.advance c) c { s.vxItem c w with ecc := ecc } = t)
    (hpipes : (t.core c).vxe.pipes = (s.core c).vxe.pipes) (hq : (t.core c).vxe.q = (s.core c).vxe.q) : s.vxIssue c w op ecc = t := by
  obtain ⟨n, hn⟩ := vxIssue_takes h hop ecc
  obtain ⟨-, -, -, -, nopipes, noq, -, -⟩ := h
  rw [hn, hrun, vxRun_nil n t c (hpipes.trans nopipes) (hq.trans noq)]

/-- With VL = 0 the sequencer moves on, and nothing else changes (R92). -/
theorem vxIssue_of_vl_zero {s : State} {c op : Nat} {w : Cmd} (h : s.vxTakes c w op) (hop : op ≠ 0x05) (hvl : (s.core c).vxe.vl = 0)
    (ecc : List (Nat × Ecc)) : s.vxIssue c w op ecc = s.advance c :=
  vxIssue_done h hop (if_pos hvl) (by simp) (by simp)

/-- The instructions without an operand for the scratchpad's errors, but VX.SETVL and VX.HQPOP, with their operation codes (R99). -/
def vxPlain (c : Fin 136) (w : Cmd) : List (Instr × Nat) :=
  [(.vxSt c w, 0x03), (.vxStt c w, 0x04), (.vxAdd c w, 0x08), (.vxSub c w, 0x09), (.vxMul c w, 0x0A), (.vxMax c w, 0x0B),
    (.vxMin c w, 0x0C), (.vxFma c w, 0x0D), (.vxCvt c w, 0x10), (.vxQnt c w, 0x11), (.vxDqnt c w, 0x12), (.vxRsum c w, 0x14),
    (.vxRmax c w, 0x15), (.vxFn c w, 0x18), (.vxWelf c w, 0x20), (.vxWmrg c w, 0x21), (.vxWred c w, 0x22), (.vxWfin c w, 0x23)]

theorem exec_vxPlain {c : Fin 136} {w : Cmd} {p : Instr × Nat} (h : p ∈ vxPlain c w) (s : State) :
    p.2 ≠ 0x05 ∧ exec p.1 s = .next (s.vxIssue c w p.2 []) := by
  unfold vxPlain at h
  fin_cases h <;> exact ⟨nofun, rfl⟩

/-- VX.SETVL changes VL and RLEN at issue (R91, R94). -/
theorem exec_vxSetvl {c : Fin 136} {w : Cmd} {s : State} (hat : s.atCmd c w 2 0x01 = true)
    (hmal : vxMal w (s.core c).vxe.vl (s.core c).vxe.rlen = false) (hclk : s.clkOn c 2 = true) (hq : (s.core c).vxe.q.length < 32) :
    exec (.vxSetvl c w) s = .next ((s.advance c).updVxe c (fun v => { v with vl := vxVl w, rlen := vxRlen w })) := by
  show Host.Outcome.next _ = _
  rw [issue_ok _ hat hmal (by simp [hclk]) rfl (by simp [vxFull, hq])]

/-! The instructions of the scratchpad (R103). -/

section
variable {s : State} {c : Nat} {i : VxItem} (hvl : i.vl ≠ 0)
include hvl

theorem vxRunOne_ld (hop : cmdOp i.w = 0x02) : vxRunOne s c i = vxRunLd s c i := by
  simp [vxRunOne, hvl, hop]

theorem vxRunOne_st (hop : cmdOp i.w = 0x03) : vxRunOne s c i = vxRunSt s c i := by
  simp [vxRunOne, hvl, hop]

theorem vxRunOne_stt (hop : cmdOp i.w = 0x04) : vxRunOne s c i = vxRunStt s c i := by
  simp [vxRunOne, hvl, hop]

end

@[simp] theorem spadRead_advance (s : State) (c a n : Nat) : (s.advance c).spadRead c a n = s.spadRead c a n := by
  simp [State.spadRead]

/-- A load of words without an error fills its register (R103, R187). -/
theorem vxRunLd_quiet {i : VxItem} (h : quiet i.ecc) (s : State) (c : Nat) : vxRunLd s c i =
    s.updVxe c (fun v => v.setBytes (vxVD i.w) 0 (s.spadRead c (64 * vxAddr i.w) (fmtBytes (vxFmt i.w) i.vl))) := by
  simp only [vxRunLd, readThen_quiet h]

theorem onlyCore_forEach {α : Type} {f : State → α → State} {c : Nat} (hf : ∀ s x, OnlyCore s (f s x) c) (xs : List α) (s : State) :
    OnlyCore s (s.forEach xs f) c := by
  induction xs generalizing s with
  | nil => exact .rfl' s c
  | cons x xs ih => exact (hf s x).then (ih (f s x))

/-- Writes of a scratchpad, one after the other, are one change of it. -/
theorem core_forEach_spadWrite {α : Type} (a : α → Nat) (bs : α → List Byte) (xs : List α) (s : State) (c : Nat) :
    (s.forEach xs (fun s x => s.spadWrite c (a x) (bs x))).core c =
      { s.core c with spad := xs.foldl (fun m x => m.sets 0 (a x) (bs x)) (s.core c).spad } := by
  unfold State.forEach
  induction xs generalizing s with
  | nil => rfl
  | cons x xs ih =>
    rw [List.foldl_cons, ih]
    simp only [core_spadWrite, if_true, List.foldl_cons]

/-- Settles O4: an instruction that passes its checks is queued; in a free engine it is one change of its core, after the sequencer has
moved on. -/
theorem vxLengthsLoadsAndStores : Obligations.VxLengthsLoadsAndStores := by
  unfold Obligations.VxLengthsLoadsAndStores
  refine ⟨⟨fun c w s hat hmal hclk hq => ?setvl, fun c w ecc s p hp => ?queued⟩, fun c w ecc s hvl => ?_⟩
  case setvl =>
    exact ⟨_, exec_vxSetvl hat hmal hclk hq, (onlyCore_advance s c).then (onlyCore_updVxe _ c _), by simp⟩
  case queued =>
    obtain ⟨e, he, hop, hexec⟩ : ∃ e, (e = ecc ∨ e = []) ∧ p.2 ≠ 0x05 ∧ exec p.1 s = .next (s.vxIssue c w p.2 e) := by
      rcases hp with hp | rfl
      · exact ⟨[], .inr rfl, exec_vxPlain hp s⟩
      · exact ⟨ecc, .inl rfl, nofun, rfl⟩
    refine ⟨fun h => ⟨_, hexec, e, he, vxIssue_passes h e⟩, fun h hvl => ⟨_, hexec, ?_⟩⟩
    rw [vxIssue_of_vl_zero h hop hvl]
    exact ⟨onlyCore_advance s c, by simp⟩
  intro v n es p
  refine ⟨fun h hecc => ⟨_, rfl, ?ld⟩, fun h => ⟨_, rfl, ?st⟩, fun h => ⟨_, rfl, ?stt⟩⟩
  case ld =>
    have run := (vxRunOne_ld (s := s.advance c) (c := c) (i := { s.vxItem c w with ecc := ecc }) hvl (cmdOp_of_vxTakes h)).trans
      (vxRunLd_quiet hecc _ _)
    rw [vxIssue_done h (by decide) run (by simp [VxeSt.setBytes]) (by simp [VxeSt.setBytes])]
    exact ⟨(onlyCore_advance s c).then (onlyCore_updVxe _ c _), by simp [v, n, State.vxItem]⟩
  case st =>
    have run := vxRunOne_st (s := s.advance c) (c := c) (i := { s.vxItem c w with ecc := [] }) hvl (cmdOp_of_vxTakes h)
    rw [vxIssue_done h (by decide) run (by simp [vxRunSt]) (by simp [vxRunSt])]
    exact ⟨(onlyCore_advance s c).then (onlyCore_spadWrite _ c _ _), by simp [vxRunSt, v, n, State.vxItem]⟩
  case stt =>
    have run := vxRunOne_stt (s := s.advance c) (c := c) (i := { s.vxItem c w with ecc := [] }) hvl (cmdOp_of_vxTakes h)
    have core : (vxRunStt (s.advance c) c { s.vxItem c w with ecc := [] }).core c = _ := core_forEach_spadWrite _ _ _ _ _
    rw [vxIssue_done h (by decide) run (by rw [core]; simp) (by rw [core]; simp)]
    refine ⟨(onlyCore_advance s c).then (onlyCore_forEach (fun s k => onlyCore_spadWrite s c _ _) _ _), ?_⟩
    simp only [core, core_advance, if_true]
    rfl

end Sys2Proof.Machine

/-! SUPPORT. The instructions that change vector registers and raise flags: arithmetic, row reductions, Welford statistics, functions. -/

namespace Sys2Proof.Machine

/-! What a free engine does with an instruction, by the end of the instruction. -/

section
variable {s : State} {c : Fin 136} {w : Cmd} {op : Nat} {ecc : List (Nat × Ecc)} (h : s.vxTakes c w op) (hop : op ≠ 0x05)
include h hop

/-- An element-wise instruction (R48, R101). -/
theorem vxIssue_writes {r f : Nat} {xs : List (Nat × Flags)}
    (hrun : vxRunOne (s.advance c) c { s.vxItem c w with ecc := ecc } = (s.advance c).vxDone c r f xs) :
    OnlyCore s (s.vxIssue c w op ecc) c ∧ s.vxWrites c r f xs ((s.vxIssue c w op ecc).core c) :=
  vxIssue_leaves h hop (g := fun v => v.setElems r f (xs.map Prod.fst)) (fun _ => rfl) (fun _ => rfl) hrun

/-- An instruction that changes vector registers only, and raises flags. -/
theorem vxIssue_leaves_regs {g : VxeSt → VxeSt} {fl : Flags} (hg : ∀ v, g v = { v with v := (g v).v })
    (hrun : vxRunOne (s.advance c) c { s.vxItem c w with ecc := ecc } = ((s.advance c).updVxe c g).vxFlags c fl) :
    OnlyCore s (s.vxIssue c w op ecc) c ∧ s.vxLeaves c (g (s.core c).vxe) fl ((s.vxIssue c w op ecc).core c) := by
  have kept : ∀ v, (g v).pipes = v.pipes ∧ (g v).q = v.q ∧ (g v).flags = v.flags := fun v => by rw [hg v]; exact ⟨rfl, rfl, rfl⟩
  obtain ⟨only, r, hr, hcore⟩ := vxIssue_leaves h hop (fun v => (kept v).1) (fun v => (kept v).2.1) hrun
  exact ⟨only, r, by rw [hr, (kept _).2.2], hcore⟩

end

/-- Changes of vector registers, one after the other, are one. -/
theorem foldl_regs {α : Type} {f : VxeSt → α → VxeSt} (hf : ∀ v x, f v x = { v with v := (f v x).v }) (xs : List α) (v : VxeSt) :
    xs.foldl f v = { v with v := (xs.foldl f v).v } := by
  induction xs generalizing v with
  | nil => rfl
  | cons x xs ih =>
    rw [List.foldl_cons, ih, hf]

/-! The instructions by their operation codes. -/

section
variable {s : State} {c : Nat} {i : VxItem} (hvl : i.vl ≠ 0)
include hvl

theorem vxRunOne_bin (hop : cmdOp i.w ∈ [0x08, 0x09, 0x0A, 0x0B, 0x0C]) : vxRunOne s c i = vxRunBin s c i := by
  simp only [List.mem_cons, List.not_mem_nil, or_false] at hop
  rcases hop with h | h | h | h | h <;> simp [vxRunOne, hvl, h]

theorem vxRunOne_fma (hop : cmdOp i.w = 0x0D) : vxRunOne s c i = vxRunFma s c i := by
  simp [vxRunOne, hvl, hop]

theorem vxRunOne_row (hop : cmdOp i.w = 0x14 ∨ cmdOp i.w = 0x15) : vxRunOne s c i = vxRunRow s c i := by
  rcases hop with h | h <;> simp [vxRunOne, hvl, h]

theorem vxRunOne_fn (hop : cmdOp i.w = 0x18) : vxRunOne s c i = vxRunFn s c i := by
  simp [vxRunOne, hvl, hop]

theorem vxRunOne_welf (hop : cmdOp i.w = 0x20) : vxRunOne s c i = vxRunWelf s c i := by
  simp [vxRunOne, hvl, hop]

theorem vxRunOne_wmrg (hop : cmdOp i.w = 0x21) : vxRunOne s c i = vxRunWmrg s c i := by
  simp [vxRunOne, hvl, hop]

theorem vxRunOne_wred (hop : cmdOp i.w = 0x22) : vxRunOne s c i = vxRunWred s c i := by
  simp [vxRunOne, hvl, hop]

theorem vxRunOne_wfin (hop : cmdOp i.w = 0x23) : vxRunOne s c i = vxRunWfin s c i := by
  simp [vxRunOne, hvl, hop]

end

/-- ADD, SUB, MUL, MAX and MIN with their operation codes (R99). -/
def vxArithmetic (c : Fin 136) (w : Cmd) : List (Instr × Nat) :=
  [(.vxAdd c w, 0x08), (.vxSub c w, 0x09), (.vxMul c w, 0x0A), (.vxMax c w, 0x0B), (.vxMin c w, 0x0C)]

theorem exec_vxArithmetic {c : Fin 136} {w : Cmd} {p : Instr × Nat} (h : p ∈ vxArithmetic c w) (s : State) :
    p.2 ∈ [0x08, 0x09, 0x0A, 0x0B, 0x0C] ∧ exec p.1 s = .next (s.vxIssue c w p.2 []) := by
  unfold vxArithmetic at h
  fin_cases h <;> exact ⟨by simp, rfl⟩

/-- Settles O6: each instruction is one write of its results and one raise of flags. -/
theorem vxElementwise : Obligations.VxElementwise := by
  unfold Obligations.VxElementwise
  intro c w s hvl v f b y z
  refine ⟨fun p hp h => ?pairs, fun h => ⟨_, rfl, ?fma⟩⟩
  case pairs =>
    obtain ⟨hop, hexec⟩ := exec_vxArithmetic hp s
    have code := cmdOp_of_vxTakes h
    refine ⟨_, hexec, vxIssue_writes h (by rintro h5; simp [h5] at hop) ?_⟩
    rw [vxRunOne_bin (i := { s.vxItem c w with ecc := [] }) hvl (code ▸ hop), vxRunBin, vxe_advance, ← code]
    rfl
  case fma =>
    refine vxIssue_writes h (by decide) ?_
    rw [vxRunOne_fma (i := { s.vxItem c w with ecc := [] }) hvl (cmdOp_of_vxTakes h), vxRunFma, vxe_advance]
    rfl

/-! Row reductions (R102) and the merge of a row's triples (R111). -/

/-- Each row of the first `vl` elements, widened to FP32 or as INT32, by one balanced tree (R102). -/
def rowTrees (op : Nat → Nat → Nat × Flags) (strict : Bool) (f rlen vl : Nat) (xs : List Nat) : List (Nat × Flags) :=
  (chunks rlen vl xs).map (fun row =>
    let ws := row.map (fun x => if decide (f = cINT32) then (x, 0) else widen strict f x)
    let t := pairTree op 12 (ws.map Prod.fst)
    (t.1.headD 0, orFlags (ws.map Prod.snd) ||| t.2))

/-- One result for each row, in word `pos` of the row's place. -/
def VxeSt.putRows (v : VxeSt) (r pos : Nat) (rs : List (Nat × Flags)) : VxeSt :=
  ((List.range rs.length).zip rs).foldl (fun v p => v.setWord r (4 * p.1 + pos) p.2.1) v

theorem putRows_regs (v : VxeSt) (r pos : Nat) (rs : List (Nat × Flags)) : v.putRows r pos rs = { v with v := (v.putRows r pos rs).v } :=
  foldl_regs (fun _ _ => rfl) _ v

/-- The end of a row reduction with the operation `op`. -/
def State.vxRowsDone (s : State) (c : Nat) (i : VxItem) (op : Nat → Nat → Nat × Flags) : State :=
  let rs := rowTrees op i.strict (vxFmt i.w) i.rlen i.vl ((s.core c).vxe.elems (vxVA i.w) (vxFmt i.w) i.vl)
  (s.updVxe c (fun v => v.putRows (vxVD i.w) (vxCpos i.w) rs)).vxFlags c (orFlags (rs.map Prod.snd))

/-- The operation of a row reduction's tree, by its operation code (R102). -/
def rowOp (i : VxItem) (a b : Nat) : Nat × Flags :=
  if cmdOp i.w = 0x14 then addF i.strict cFP32 a b
  else if decide (vxFmt i.w = cINT32) then vxBin 0x0B i.strict cINT32 a b else maxMinF i.strict true cFP32 a b

theorem vxRunRow_eq (s : State) (c : Nat) (i : VxItem) : vxRunRow s c i = s.vxRowsDone c i (rowOp i) := rfl

theorem rowOp_sum {i : VxItem} (h : cmdOp i.w = 0x14) : rowOp i = addF i.strict cFP32 :=
  funext fun _ => funext fun _ => if_pos h

theorem rowOp_max {i : VxItem} (h : cmdOp i.w = 0x15) : rowOp i = fun a b =>
    if decide (vxFmt i.w = cINT32) then vxBin 0x0B i.strict cINT32 a b else maxMinF i.strict true cFP32 a b :=
  funext fun _ => funext fun _ => if_neg (by simp [h])

/-- The first triple of row `p.1` in the row's first position. -/
def VxeSt.putHead (v : VxeSt) (r rlen : Nat) (p : Nat × List Triple × Flags) : VxeSt :=
  match p.2.1 with
  | t :: _ => ((v.setWord r (p.1 * rlen) t.1).setWord (r + 1) (p.1 * rlen) t.2.1).setWord (r + 2) (p.1 * rlen) t.2.2
  | [] => v

theorem putHead_regs (v : VxeSt) (r rlen : Nat) (p : Nat × List Triple × Flags) :
    v.putHead r rlen p = { v with v := (v.putHead r rlen p).v } := by
  unfold VxeSt.putHead
  split <;> rfl

/-- RLEN is the same for every row. -/
theorem foldl_putHead {v : VxeSt} {rlen : Nat} (h : v.rlen = rlen) (r : Nat) (ps : List (Nat × List Triple × Flags)) :
    ps.foldl (fun v p => v.putHead r v.rlen p) v = ps.foldl (fun v p => v.putHead r rlen p) v := by
  induction ps generalizing v with
  | nil => rfl
  | cons p ps ih =>
    have kept : (v.putHead r rlen p).rlen = rlen := by rw [putHead_regs, ← h]
    rw [List.foldl_cons, List.foldl_cons, h, ih kept]

theorem setTriple_regs (v : VxeSt) (r : Nat) (ts : List Triple) : v.setTriple r ts = { v with v := (v.setTriple r ts).v } := rfl

/-- Settles O8: each instruction is one change of vector registers and one raise of flags; the two reductions differ in the operation of
their trees. -/
theorem vxRowStatistics : Obligations.VxRowStatistics := by
  unfold Obligations.VxRowStatistics
  refine ⟨fun c w s hvl => ?rows, fun c w s hvl => ?welford⟩
  case rows =>
    intro v f strict rows put
    refine ⟨fun h => ⟨_, rfl, ?sum⟩, fun h => ⟨_, rfl, ?max⟩⟩
    case sum =>
      refine vxIssue_leaves_regs h (by decide) (fun v => putRows_regs v (vxVD w) (vxCpos w) _) ?_
      rw [vxRunOne_row (i := { s.vxItem c w with ecc := [] }) hvl (.inl (cmdOp_of_vxTakes h)), vxRunRow_eq,
        rowOp_sum (i := { s.vxItem c w with ecc := [] }) (cmdOp_of_vxTakes h), State.vxRowsDone, vxe_advance]
      rfl
    case max =>
      refine vxIssue_leaves_regs h (by decide) (fun v => putRows_regs v (vxVD w) (vxCpos w) _) ?_
      rw [vxRunOne_row (i := { s.vxItem c w with ecc := [] }) hvl (.inr (cmdOp_of_vxTakes h)), vxRunRow_eq,
        rowOp_max (i := { s.vxItem c w with ecc := [] }) (cmdOp_of_vxTakes h), State.vxRowsDone, vxe_advance]
      rfl
  case welford =>
    intro v strict one two red
    refine ⟨fun h => ⟨_, rfl, ?welf⟩, fun h => ⟨_, rfl, ?wmrg⟩, fun h => ⟨_, rfl, ?wred⟩, fun h => ⟨_, rfl, ?wfin⟩⟩
    case welf =>
      refine vxIssue_leaves_regs h (by decide) (g := fun v => v.setTriple (vxVD w) _) (fun v => setTriple_regs v _ _) ?_
      rw [vxRunOne_welf (i := { s.vxItem c w with ecc := [] }) hvl (cmdOp_of_vxTakes h), vxRunWelf, vxe_advance]
      rfl
    case wmrg =>
      refine vxIssue_leaves_regs h (by decide) (g := fun v => v.setTriple (vxVD w) _) (fun v => setTriple_regs v _ _) ?_
      rw [vxRunOne_wmrg (i := { s.vxItem c w with ecc := [] }) hvl (cmdOp_of_vxTakes h), vxRunWmrg, vxe_advance]
      rfl
    case wred =>
      have heads := vxIssue_leaves_regs (ecc := []) (fl := orFlags (red.map Prod.snd)) h (by decide)
        (g := fun u => ((List.range red.length).zip red).foldl (fun u p => u.putHead (vxVD w) v.rlen p) u)
        (fun u => foldl_regs (fun u p => putHead_regs u (vxVD w) v.rlen p) _ u)
        (by
          rw [vxRunOne_wred (i := { s.vxItem c w with ecc := [] }) hvl (cmdOp_of_vxTakes h), vxRunWred, vxe_advance]
          rfl)
      rwa [← foldl_putHead (v := v) rfl] at heads
    case wfin =>
      refine vxIssue_writes h (by decide) ?_
      rw [vxRunOne_wfin (i := { s.vxItem c w with ecc := [] }) hvl (cmdOp_of_vxTakes h), vxRunWfin, vxe_advance]
      rfl

/-! Functions (R116). -/

/-- An SFU raise leaves every register of the core but the SFU's NUMFLAGS (R47, R48). -/
theorem core_raiseSfu (s : State) (c : Fin 136) (fl : Flags) : ∃ r : FlagReg, r.v = (s.core c).sfu.flags.v ||| fl ∧
    (s.raiseFlags (.sfu c) fl).core c = { s.core c with sfu := { (s.core c).sfu with flags := r } } := by
  obtain ⟨r, hr, hcore⟩ := core_raiseFlags s (.sfu c) fl
  exact ⟨r, hr, by simp [hcore]⟩

/-- The results of VX.FN and their flags, by the core's registers and tables (R116, R117). -/
def fnResults (k : CoreSt) (i : VxItem) : List (Nat × Flags) :=
  (k.vxe.elems (vxVA i.w) (vxFmt i.w) i.vl).map (evalFn (k.sfu.word (vxFn i.w)) (k.sfu.word 0) i.strict (vxFmt i.w) (vxOfmt i.w))

theorem vxRunFn_eq (s : State) (c : Fin 136) (i : VxItem) : vxRunFn s c i =
    (s.updVxe c (fun v => v.setElems (vxVD i.w) (vxOfmt i.w) ((fnResults (s.core c) i).map Prod.fst))).raiseFlags (.sfu c)
      (orFlags ((fnResults (s.core c) i).map Prod.snd)) := by
  simp only [vxRunFn, c.isLt, dif_pos]
  rfl

/-- Settles O9: the results and their flags, on the state whose sequencer has moved on. -/
theorem vxFunction : Obligations.VxFunction := by
  unfold Obligations.VxFunction
  intro c w s hvl h k xs
  let i : VxItem := { s.vxItem c w with ecc := [] }
  let u := (s.advance c).updVxe c (fun v => v.setElems (vxVD w) (vxOfmt w) (xs.map Prod.fst))
  have results : fnResults ((s.advance c).core c) i = xs := by
    simp only [fnResults, core_advance, if_true]
    rfl
  have run : vxRunOne (s.advance c) c i = u.raiseFlags (.sfu c) (orFlags (xs.map Prod.snd)) := by
    rw [vxRunOne_fn (i := i) hvl (cmdOp_of_vxTakes h), vxRunFn_eq, results]
    rfl
  obtain ⟨r, hr, hcore⟩ := core_raiseSfu u c (orFlags (xs.map Prod.snd))
  simp only [u, core_updVxe, core_advance, if_true] at hr hcore
  have done : s.vxIssue c w 0x18 [] = u.raiseFlags (.sfu c) (orFlags (xs.map Prod.snd)) :=
    vxIssue_done h (by decide) run (by rw [hcore]; rfl) (by rw [hcore]; rfl)
  refine ⟨_, rfl, ?_⟩
  rw [done]
  refine ⟨?_, r, hr, hcore⟩
  exact ((onlyCore_advance s c).then (onlyCore_updVxe _ c _)).then (onlyCore_raiseFlags u (.sfu c) c _ ⟨c, rfl, .inr (.inr rfl)⟩)

end Sys2Proof.Machine

/-! SUPPORT. VX.HQPOP: entries of the hand-off queue, one after the other (R108). -/

namespace Sys2Proof.Machine

/-- Entry `e` of a VX.HQPOP in its registers: the row in VD, and then the sideband in VB (R108). -/
def VxeSt.takeEntry (v : VxeSt) (w : Cmd) (e : Nat) (ent : List Byte) : VxeSt :=
  let n := fmtBytes (vxFmt w) 96
  (v.setBytes (vxVD w) (n * e) (slice ent 0 n)).setBytes (vxVB w) (16 * e) (slice ent 384 16)

/-- The first `m` entries of the queue in their registers, from entry `e` of the instruction on. -/
def VxeSt.takeEntries (v : VxeSt) (w : Cmd) (e m : Nat) (hq : List (List Byte)) : VxeSt :=
  (List.range m).foldl (fun v j => v.takeEntry w (e + j) (hq.getD j [])) v

theorem takeEntries_succ (v : VxeSt) (w : Cmd) (e m : Nat) (hq : List (List Byte)) :
    v.takeEntries w e (m + 1) hq = (v.takeEntry w e (hq.headD [])).takeEntries w (e + 1) m (hq.drop 1) := by
  unfold VxeSt.takeEntries
  rw [List.range_succ_eq_map, List.foldl_cons, List.foldl_map]
  congr 1
  · funext v j
    simp [List.getD_eq_getElem?_getD, Nat.add_right_comm e 1, ← Nat.add_assoc]
  · cases hq <;> rfl

/-- A core whose VX.HQPOP has taken one entry more. -/
def CoreSt.popOne (k : CoreSt) (w : Cmd) : CoreSt :=
  { k with
    mxe := { k.mxe with hq := k.mxe.hq.drop 1 },
    vxe := { k.vxe.takeEntry w k.vxe.popped (k.mxe.hq.headD []) with popped := k.vxe.popped + 1 } }

/-- A core whose VX.HQPOP has taken its last `m` entries and has left the pipes. -/
def CoreSt.drained (k : CoreSt) (w : Cmd) (m : Nat) : CoreSt :=
  { k with
    mxe := { k.mxe with hq := k.mxe.hq.drop m },
    vxe := { k.vxe with pipes := [], popped := 0 }.takeEntries w k.vxe.popped m k.mxe.hq }

theorem drained_popOne (k : CoreSt) (w : Cmd) (m : Nat) : (k.popOne w).drained w m = k.drained w (m + 1) := by
  rw [CoreSt.drained, CoreSt.drained, takeEntries_succ, Nat.add_comm m 1, ← List.drop_drop]
  rfl

@[simp] theorem popOne_hq (k : CoreSt) (w : Cmd) : (k.popOne w).mxe.hq = k.mxe.hq.drop 1 := rfl
@[simp] theorem popOne_popped (k : CoreSt) (w : Cmd) : (k.popOne w).vxe.popped = k.vxe.popped + 1 := rfl
@[simp] theorem popOne_pipes (k : CoreSt) (w : Cmd) : (k.popOne w).vxe.pipes = k.vxe.pipes := rfl
@[simp] theorem popOne_q (k : CoreSt) (w : Cmd) : (k.popOne w).vxe.q = k.vxe.q := rfl
@[simp] theorem popOne_vxePaused (k : CoreSt) (w : Cmd) : (k.popOne w).vxePaused = k.vxePaused := rfl
@[simp] theorem popOne_clken (k : CoreSt) (w : Cmd) : (k.popOne w).clken = k.clken := rfl

theorem vxPopOne_eq (s : State) (c : Nat) (i : VxItem) : vxPopOne s c i = s.updCore c (fun k => k.popOne i.w) := by
  simp only [vxPopOne, State.updMxe, State.updVxe, updCore_updCore]
  exact updCore_congr rfl

/-- A VX.HQPOP alone in the pipes goes on while it has entries to take or none left (R95, R108). -/
theorem vxReady_hqpop {i : VxItem} {hq popped : Nat} (hop : cmdOp i.w = 0x05) (h : vxCount i.w ≤ popped ∨ hq ≠ 0) :
    vxReady hq popped [] [i] = some i := by
  simp [vxReady, hop, h]

section
variable {s : State} {c : Nat} {i : VxItem} (hp : (s.core c).vxePaused = false) (hclk : s.clkOn c 2 = true)
  (hpipes : (s.core c).vxe.pipes = [i]) (hop : cmdOp i.w = 0x05)
include hp hclk hpipes hop

theorem vxRun_pops (hmore : (s.core c).vxe.popped < vxCount i.w) (hhq : (s.core c).mxe.hq ≠ []) (n : Nat) :
    State.vxRun (n + 1) s c = State.vxRun n (s.updCore c (fun k => k.popOne i.w)) c := by
  have ready := vxReady_hqpop (popped := (s.core c).vxe.popped) hop (.inr (List.length_pos_iff.mpr hhq).ne')
  simp [State.vxRun, hp, hclk, hpipes, ready, hop, hmore, vxPopOne_eq]

theorem vxRun_hqpop_leaves (hlast : vxCount i.w ≤ (s.core c).vxe.popped) (hq : (s.core c).vxe.q = []) (n : Nat) :
    State.vxRun (n + 1) s c = s.updVxe c (fun v => { v with pipes := [], popped := 0 }) := by
  have ready := vxReady_hqpop (hq := (s.core c).mxe.hq.length) hop (.inl hlast)
  have left : s.updVxe c (fun v => { v with pipes := v.pipes.erase i, popped := 0 }) =
      s.updVxe c (fun v => { v with pipes := [], popped := 0 }) := updCore_congr (by simp [hpipes])
  simp only [State.vxRun, hp, hclk, hpipes, ready, hop, hlast, left]
  exact vxRun_nil n _ c (by simp) (by simp [hq])

end

/-- A VX.HQPOP alone in the pipes takes its last `m` entries, which are there, and leaves (R94, R108). -/
theorem vxRun_drains {s : State} {c m : Nat} {i : VxItem} (hp : (s.core c).vxePaused = false) (hclk : s.clkOn c 2 = true)
    (hpipes : (s.core c).vxe.pipes = [i]) (hop : cmdOp i.w = 0x05) (hq : (s.core c).vxe.q = [])
    (hcount : vxCount i.w = (s.core c).vxe.popped + m) (hhq : m ≤ (s.core c).mxe.hq.length) (n : Nat) :
    State.vxRun (m + 1 + n) s c = s.updCore c (fun k => k.drained i.w m) := by
  induction m generalizing s with
  | zero =>
    rw [Nat.zero_add, Nat.add_comm 1 n, vxRun_hqpop_leaves hp hclk hpipes hop hcount.le hq]
    exact updCore_congr rfl
  | succ m ih =>
    have there : (s.core c).mxe.hq ≠ [] := List.length_pos_iff.mp (by omega)
    have fuel : m + 1 + 1 + n = m + 1 + n + 1 := by omega
    rw [fuel, vxRun_pops hp hclk hpipes hop (by omega) there,
      ih (by simpa using hp) (by simpa [State.clkOn] using hclk) (by simpa using hpipes) (by simpa using hq)
        (by simp only [core_updCore, if_true, popOne_popped]; omega)
        (by simp only [core_updCore, if_true, popOne_hq, List.length_drop]; omega), updCore_updCore]
    exact updCore_congr (drained_popOne _ _ _)

/-- The entries of a VX.HQPOP that an engine with nothing else in the pipes has taken from the first on. -/
theorem drained_free {k : CoreSt} (hpipes : k.vxe.pipes = []) (hpop : k.vxe.popped = 0) (w : Cmd) (m : Nat) : k.drained w m =
    { k with mxe := { k.mxe with hq := k.mxe.hq.drop m }, vxe := k.vxe.takeEntries w 0 m k.mxe.hq } := by
  have free : { k.vxe with pipes := [], popped := 0 } = k.vxe := by rw [← hpipes, ← hpop]
  rw [CoreSt.drained, free, hpop]

/-- The last entry of a waiting VX.HQPOP (R108). -/
theorem drained_one {k : CoreSt} {ent : List Byte} (h : k.mxe.hq = [ent]) (w : Cmd) : k.drained w 1 =
    { k with
      mxe := { k.mxe with hq := [] }, vxe := { k.vxe.takeEntry w k.vxe.popped ent with pipes := [], popped := 0 } } := by
  rw [CoreSt.drained, takeEntries_succ, h]
  rfl

/-- A VX.HQPOP that is well formed takes at most 64 entries (R105). -/
theorem vxCount_le_of_hqpop {w : Cmd} {vl rlen : Nat} (hop : cmdOp w = 0x05) (h : vxMal w vl rlen = false) : vxCount w ≤ 64 := by
  by_contra hmany
  simp [vxMal, vxMalStatic, vxUse, hop, Nat.lt_of_not_le hmany] at h

/-- A free engine takes a VX.HQPOP whose entries are there at once (R94, R108). -/
theorem vxIssue_hqpop {s : State} {c : Nat} {w : Cmd} (h : s.vxTakes c w 0x05) (hhq : vxCount w ≤ (s.core c).mxe.hq.length) :
    s.vxIssue c w 0x05 [] = (s.advance c).updCore c (fun k => k.drained w (vxCount w)) := by
  have hop := cmdOp_of_vxTakes h
  rw [vxIssue_passes (vxPasses_of_vxTakes h)]
  obtain ⟨-, hmal, hclk, -, hpipes, hq, hpop, hpaused⟩ := h
  have hcount := vxCount_le_of_hqpop hop hmal
  obtain ⟨n, fuel⟩ : ∃ n, vxFuel = (vxCount w + 1 + n) + 1 := ⟨198 - vxCount w, by simp only [vxFuel]; omega⟩
  rw [fuel, vxRun_enters (i := s.vxItem c w) (by simp [hpaused]) (by simp [hclk]) (by simp [hpipes]) (by simp [hq]; rfl),
    vxRun_drains (i := s.vxItem c w) (by simp [hpaused]) (by simp [hclk]) (by simp [hpipes]) hop (by simp)
      (by simp [hpop]; rfl) (by simpa using hhq)]
  simp only [State.updVxe, updCore_updCore]
  exact updCore_congr (by simp [CoreSt.drained, State.vxItem, hq, hpipes])

/-- Settles O5: a VX.HQPOP is queued; in a free engine it takes its entries one by one and leaves; the last entry ends one that waits. -/
theorem vxHqpopTakesEntries : Obligations.VxHqpopTakesEntries := by
  unfold Obligations.VxHqpopTakesEntries
  refine ⟨fun c w s => ⟨fun h => ⟨_, rfl, vxIssue_passes h []⟩, fun h hhq => ⟨_, rfl, ?takes⟩⟩,
    fun c i ent s hpipes hq hop hcount hhq hp hclk => ⟨_, rfl, ?arrives⟩⟩
  case takes =>
    rw [vxIssue_hqpop h hhq]
    refine ⟨(onlyCore_advance s c).then (onlyCore_upd _ c _), ?_⟩
    obtain ⟨-, -, -, -, hpipes, -, hpop, -⟩ := h
    rw [core_updCore, if_pos rfl, drained_free (by simp [hpipes]) (by simp [hpop])]
    simp only [core_advance, if_true, VxeSt.takeEntries, Nat.zero_add]
    rfl
  case arrives =>
    have run : State.vxRun vxFuel s c = s.updCore c (fun k => k.drained i.w 1) :=
      vxRun_drains hp hclk hpipes hop hq hcount (by simp [hhq]) 198
    rw [run]
    refine ⟨onlyCore_upd s c _, ?_⟩
    rw [core_updCore, if_pos rfl, drained_one hhq]
    rfl

end Sys2Proof.Machine

/-! SUPPORT. Function tables (R113 to R121): the store that starts a check, and its end. -/

namespace Sys2Proof.Machine

@[simp] theorem core_updSfu (s : State) (c d : Nat) (f : SfuSt → SfuSt) :
    (s.updSfu c f).core d = if d = c then { s.core c with sfu := f (s.core c).sfu } else s.core d := by
  simp [State.updSfu]

theorem onlyCore_updSfu (s : State) (c : Nat) (f : SfuSt → SfuSt) : OnlyCore s (s.updSfu c f) c := onlyCore_upd s c _

theorem updSfu_congr {s : State} {c : Nat} {f g : SfuSt → SfuSt} (h : f (s.core c).sfu = g (s.core c).sfu) : s.updSfu c f = s.updSfu c g :=
  updCore_congr (by rw [h])

/-- An SFU after a store to FN_LOAD: BUSY while a check or the sequencer runs, SLOT for a fixed slot, and otherwise the start of a check
(R120, R121). -/
def SfuSt.loadSlot (u : SfuSt) (q : SeqSt) (f : Nat) : SfuSt :=
  if u.checking.isSome = true ∨ q.st = 1 ∨ q.st = 2 then { u with lastSlot := f, result := 1 }
  else if f < 8 then { u with lastSlot := f, result := 2 }
  else { u with lastSlot := f, checking := some f }

theorem storeFnLoad_eq (s : State) (c : Nat) (v : Word) :
    s.storeFnLoad c v = s.updSfu c (fun u => u.loadSlot (s.core c).seq (fld v 3 0)) := by
  by_cases hbusy : (s.core c).sfu.checking.isSome = true ∨ (s.core c).seq.st = 1 ∨ (s.core c).seq.st = 2
  · exact (if_pos hbusy).trans (updSfu_congr (if_pos hbusy).symm)
  · refine (if_neg hbusy).trans ?_
    by_cases hfixed : fld v 3 0 < 8
    · exact (if_pos hfixed).trans (updSfu_congr ((if_neg hbusy).trans (if_pos hfixed)).symm)
    · exact (if_neg hfixed).trans (updSfu_congr ((if_neg hbusy).trans (if_neg hfixed)).symm)

theorem exec_fnLoad {c : Fin 136} {s : State} (hbus : s.busUp = true) (hclk : s.clkOn c 2 = true) (v : Word) :
    exec (.fnLoad c v) s = .next (s.storeFnLoad c v) := by
  show execFnLoad c v s = _
  simp [execFnLoad, hbus, hclk]

/-- An SFU whose check has ended with its code; a table that passes is committed (R120, R121). -/
def SfuSt.checked (u : SfuSt) (f : Nat) : SfuSt :=
  let u1 := { u with checking := none, lastSlot := f, result := stageCheck u.stage }
  if stageCheck u.stage = 0 then u1.commit f else u1

theorem exec_fnCheckDone {c : Fin 136} {f : Nat} {s : State} (h : (s.core c).sfu.checking = some f) (hclk : s.clkOn c 2 = true) :
    exec (.fnCheckDone c) s = .next (s.updSfu c (fun u => u.checked f)) := by
  show execFnCheckDone c s = _
  have ends : execFnCheckDone c s = .next (s.updSfu c (fun u =>
      let u1 := { u with checking := none, lastSlot := f, result := stageCheck (s.core c).sfu.stage }
      if stageCheck (s.core c).sfu.stage = 0 then u1.commit f else u1)) := by
    simp [execFnCheckDone, h, hclk]
  rw [ends]
  exact congrArg Host.Outcome.next (updSfu_congr rfl)

/-- A word of a table that has been committed (R120). -/
theorem get_tables_commit (u : SfuSt) (f k : Nat) (h : k < 16 + 8 * tN (stageWord u.stage)) :
    (u.commit f).tables.get 0 (f * 4096 + k) = stageWord u.stage k := by
  rw [SfuSt.commit, SMap.get_sets, if_pos (by simp [h])]
  simp [List.getD_eq_getElem?_getD, h]

theorem checked_of_bad {u : SfuSt} (h : stageCheck u.stage ≠ 0) (f : Nat) :
    u.checked f = { u with checking := none, lastSlot := f, result := stageCheck u.stage } := if_neg h

theorem checked_of_ok {u : SfuSt} (h : stageCheck u.stage = 0) (f : Nat) :
    u.checked f = { u with checking := none, lastSlot := f, result := stageCheck u.stage }.commit f := if_pos h

/-- Settles O27: the store and the end of the check are each one change of the SFU. -/
theorem functionTablesLoad : Obligations.FunctionTablesLoad := by
  unfold Obligations.FunctionTablesLoad
  refine ⟨fun c v s hbus hclk => ?store, fun c f s hchk hclk => ?checkDone⟩
  case store =>
    refine ⟨_, exec_fnLoad hbus hclk v, ?_⟩
    rw [storeFnLoad_eq]
    exact ⟨onlyCore_updSfu s c _, by simp [SfuSt.loadSlot]⟩
  case checkDone =>
    refine ⟨_, exec_fnCheckDone hchk hclk, onlyCore_updSfu s c _, ?_⟩
    simp only [core_updSfu, if_true, true_and]
    by_cases h : stageCheck (s.core c).sfu.stage = 0
    · rw [checked_of_ok h]
      exact ⟨rfl, rfl, rfl, rfl, rfl, fun hbad => absurd h hbad, fun _ => ⟨rfl, fun k hk => get_tables_commit _ f k hk⟩⟩
    · rw [checked_of_bad h]
      exact ⟨rfl, rfl, rfl, rfl, rfl, fun _ => ⟨rfl, rfl⟩, fun hok => absurd hok h⟩

end Sys2Proof.Machine

/-! SUPPORT. The action log and a load of a schedule: an accepted action is recorded in device memory before its effect (R376). -/

namespace Sys2Proof.Machine

theorem mem_forEach {α : Type} {f : State → α → State} (hf : ∀ s x, (f s x).mem = s.mem) (xs : List α) (s : State) :
    (s.forEach xs f).mem = s.mem := by
  induction xs generalizing s with
  | nil => rfl
  | cons x xs ih => exact (ih (f s x)).trans (hf s x)

@[simp] theorem mem_post (s : State) (code sev src : Nat) (args : List Nat) : (s.post code sev src args).mem = s.mem := by
  obtain ⟨l, h⟩ := post_eq s code sev src args
  rw [h]

theorem mem_setLife (s : State) (l : Nat) : (s.setLife l).mem = s.mem := by
  unfold State.setLife
  split
  · rfl
  · rw [mem_post]

theorem mem_lifeRefresh (s : State) : s.lifeRefresh.mem = s.mem := by
  unfold State.lifeRefresh
  split
  · exact mem_setLife s _
  · rfl

/-- The effect of a load's start touches no memory (R131). -/
theorem mem_actLoad (s : State) (off : Nat) : (actLoad s off).eff.mem = s.mem := by
  have slots : ∀ (t : State) (c : Nat), (t.updSfu c (fun u => { u with valid := 0 })).mem = t.mem := fun _ _ => rfl
  simp only [actLoad, State.setSched, mem_lifeRefresh, mem_forEach slots]
  rfl

theorem mem_answer (s : State) (q : OdReq) (st : Nat) : (s.answer q st).mem = s.mem := by
  unfold State.answer
  split <;> rfl

/-- An accepted LoadSchedule is recorded, and then takes effect (R131, R376). -/
theorem exec_loadSchedule {q : OdReq} {off : BitVec 64} {s : State} (h : s.admits q 0x0601 (leBytes 8 off.toNat))
    (hst : s.sched.st = 0 ∨ schedIdle s.sched.st = true) : exec (.loadSchedule q off) s =
      .next ((actLoad (s.taken 0x0601 0 (leBytes 8 off.toNat)) (ofLe (leBytes 8 off.toNat))).eff.answer q 0) := by
  have obj : objOf 0x0601 0 = some ⟨0x0601, 0, 0, .u64, .act⟩ := by decide
  have idle : (actLoad (s.noteAct .act 0x0601 0 0) (ofLe (leBytes 8 off.toNat))).bad = false := by
    have same : (s.noteAct .act 0x0601 0 0).sched = s.sched := rfl
    simpa [actLoad, same, imp_iff_not_or] using hst
  show Host.Outcome.next (s.request q 0x0601 0 (leBytes 8 off.toNat) (fun t => actLoad t (ofLe (leBytes 8 off.toNat)))) = _
  exact congrArg Host.Outcome.next
    (request_taken (fun t => actLoad t (ofLe (leBytes 8 off.toNat))) h (by decide) (by decide) obj rfl rfl rfl idle)

/-- A module in READY with no image, whose action log has room for one record at the bottom of device memory. -/
def loggingModule : State :=
  { life := 2, clock := { locked := true }, boot := { phase := .on },
    hubs := [(0, { clken := 0xFF, cpuEn := 0xFF }), (1, { clken := 0x1F })], husk := { logLen := 1 } }

/-- A request of an owner by the management port. -/
def ownerRequest : OdReq := { role := .owner, cpu := none }

theorem loggingModule_admits : loggingModule.admits ownerRequest 0x0601 (leBytes 8 (0 : BitVec 64).toNat) := by
  unfold State.admits
  decide

/-- The record of the load stands in a line of the slice that homes it. -/
theorem mem_taken_loggingModule : (loggingModule.taken 0x0601 0 (leBytes 8 (0 : BitVec 64).toNat)).mem ≠ loggingModule.mem := by
  decide

/-- Refutes O24: its first clause leaves device memory as it was, but with the action log in use an accepted LoadSchedule is recorded
there (R376). -/
theorem not_loadsCommitOrRefuse : ¬ Obligations.LoadsCommitOrRefuse := by
  unfold Obligations.LoadsCommitOrRefuse
  rintro ⟨accepted, -⟩
  obtain ⟨t, hexec, u, ht, -, -, -, -, hmem, -⟩ := accepted ownerRequest 0 loggingModule loggingModule_admits (.inl rfl)
  rw [exec_loadSchedule loggingModule_admits (.inl rfl), Host.Outcome.next.injEq] at hexec
  refine mem_taken_loggingModule ?_
  calc (loggingModule.taken 0x0601 0 (leBytes 8 (0 : BitVec 64).toNat)).mem
    _ = (actLoad (loggingModule.taken 0x0601 0 (leBytes 8 (0 : BitVec 64).toNat)) (ofLe (leBytes 8 (0 : BitVec 64).toNat))).eff.mem :=
        (mem_actLoad _ _).symm
    _ = t.mem := by rw [← hexec, mem_answer]
    _ = u.mem := by rw [ht, mem_answer]
    _ = loggingModule.mem := hmem

end Sys2Proof.Machine

/-! SUPPORT. The sequencer's commands that run in the sequencer: issue, waits, loops (R140 to R149). -/

namespace Sys2Proof.Machine

/-- A step takes the front command (log 7). -/
theorem step_cons {i : Instr} {rest : List Instr} {s : State} (h : s.pending = i :: rest) : step s = exec i { s with pending := rest } := by
  unfold step
  rw [h]

/-- Settles O55: the two cases of the queue. -/
theorem stepRunsTheFrontCommand : Obligations.StepRunsTheFrontCommand := by
  refine ⟨fun i rest s h => step_cons h, fun s h => ?_⟩
  unfold step
  rw [h]

section
variable {c : Fin 136} {w : Cmd} {s : State}

/-! Issue. -/

theorem exec_sqSegment (h : s.sqTakes c w 1) (hmode : (idleMask (s.core c) 7 && modeClash (s.core c).mxe (bit w.w0 23)) = false) :
    exec (.sqSegment c w) s = .next (s.seqWait c 1 (some w)) :=
  congrArg Host.Outcome.next (issueSq_ok (fun s => s.seqWait c 1 (some w)) h rfl rfl hmode)

theorem exec_sqWait (h : s.sqTakes c w 2) : exec (.sqWait c w) s =
    .next (if idleMask (s.core c) (sqEmask w) then s.advance c else s.seqWait c 1 (some w)) :=
  congrArg Host.Outcome.next
    (issueSq_ok (fun s => if idleMask (s.core c) (sqEmask w) then s.advance c else s.seqWait c 1 (some w)) h rfl rfl rfl)

theorem exec_sqWaitg (h : s.sqTakes c w 3) : exec (.sqWaitg c w) s = .next (s.waitg c w) :=
  congrArg Host.Outcome.next (issueSq_ok (fun s => s.waitg c w) h rfl rfl rfl)

theorem exec_sqSignal (h : s.sqTakes c w 4) : exec (.sqSignal c w) s = .next (s.seqWait c 1 (some w)) :=
  congrArg Host.Outcome.next (issueSq_ok (fun s => s.seqWait c 1 (some w)) h rfl rfl rfl)

theorem exec_sqBar (h : s.sqTakes c w 5) (hmask : (s.bar (sqBarid w)).mask.contains c.val = true) : exec (.sqBar c w) s =
    .next ((s.updBar (sqBarid w) (fun x => { x with inflight := x.inflight ++ [c.val] })).seqWait c 4 (some w)) :=
  congrArg Host.Outcome.next (issueSq_ok
    (fun s => (s.updBar (sqBarid w) (fun x => { x with inflight := x.inflight ++ [c.val] })).seqWait c 4 (some w)) h
    (congrArg not hmask) rfl rfl)

theorem exec_sqFlagrd (h : s.sqTakes c w 6) (hgated : s.engGated c (sqEngsel w) = false) (hclk : s.clkOn c 4 = true) :
    exec (.sqFlagrd c w) s = .next (s.seqWait c 1 (some w)) :=
  congrArg Host.Outcome.next (issueSq_ok (fun s => s.seqWait c 1 (some w)) h rfl (by simp [hgated, hclk]) rfl)

theorem exec_sqFlagclr (h : s.sqTakes c w 7) (hgated : s.engGated c (sqEngsel w) = false) :
    exec (.sqFlagclr c w) s = .next (s.seqWait c 1 (some w)) :=
  congrArg Host.Outcome.next (issueSq_ok (fun s => s.seqWait c 1 (some w)) h rfl hgated rfl)

theorem exec_sqLoop (h : s.sqTakes c w 8) : exec (.sqLoop c w) s = .next ((s.advance c).updCore c (fun k =>
    { k with seq := { k.seq with loops := { body := k.seq.pc, count := w.w1.toNat, done := 0 } :: k.seq.loops } })) :=
  congrArg Host.Outcome.next (issueSq_ok (fun s => (s.advance c).updCore c (fun k =>
    { k with seq := { k.seq with loops := { body := k.seq.pc, count := w.w1.toNat, done := 0 } :: k.seq.loops } })) h rfl rfl rfl)

theorem exec_sqEndloop (h : s.sqTakes c w 9) :
    exec (.sqEndloop c w) s = .next ((s.advance c).updCore c (fun k => { k with seq := loopEnd k.seq })) :=
  congrArg Host.Outcome.next
    (issueSq_ok (fun s => (s.advance c).updCore c (fun k => { k with seq := loopEnd k.seq })) h rfl rfl rfl)

theorem exec_sqEnd (h : s.sqTakes c w 10) : exec (.sqEnd c w) s = .next (s.seqWait c 1 (some w)) :=
  congrArg Host.Outcome.next (issueSq_ok (fun s => s.seqWait c 1 (some w)) h rfl rfl rfl)

theorem exec_sqWaitRelease (h : s.begun c 2 = some w) (hidle : idleMask (s.core c) (sqEmask w) = true) :
    exec (.sqWaitRelease c) s = .next (s.advance c) := by
  show execSqWaitRelease c s = _
  simp [execSqWaitRelease, h, hidle]

/-! What a command that waits, and one that moves on, leave (R140, R164). -/

/-- A sequencer that begins to wait for engines changes nothing else of the module. -/
theorem gives_seqWait {i : Instr} (h : exec i s = .next (s.seqWait c 1 (some w))) :
    Gives i s (fun t => OnlyCore s t c ∧ t.core c = { s.core c with seq := (s.core c).seq.waits s.tsc 1 w }) :=
  ⟨_, h, onlyCore_seqWait s c 1 _, core_seqWait s c 1 w⟩

theorem core_advance_same (s : State) (c : Nat) : (s.advance c).core c = { s.core c with seq := (s.core c).seq.moved s.tsc } := by
  rw [core_advance, if_pos rfl]

/-- A sequencer that moves on changes nothing else of the module. -/
theorem gives_advance {i : Instr} (h : exec i s = .next (s.advance c)) :
    Gives i s (fun t => OnlyCore s t c ∧ t.core c = { s.core c with seq := (s.core c).seq.moved s.tsc }) :=
  ⟨_, h, onlyCore_advance s c, core_advance_same s c⟩

/-- A sequencer that moves on and changes its loops changes nothing else of the module. -/
theorem gives_advance_seq {i : Instr} {f : SeqSt → SeqSt} (h : exec i s = .next ((s.advance c).updCore c (fun k => { k with seq := f k.seq }))) :
    Gives i s (fun t => OnlyCore s t c ∧ t.core c = { s.core c with seq := f ((s.core c).seq.moved s.tsc) }) := by
  refine ⟨_, h, (onlyCore_advance s c).then (onlyCore_upd _ c _), ?_⟩
  rw [core_updCore, if_pos rfl, core_advance_same]

/-- A pass of the innermost loop ends, with passes left or as the last one (R149). -/
theorem loopEnd_cons {q : SeqSt} {l : LoopSt} {ls : List LoopSt} (h : q.loops = l :: ls) : loopEnd q =
    if l.done + 1 < l.count then { q with pc := l.body, buf := [], loops := { l with done := l.done + 1 } :: ls } else { q with loops := ls } := by
  simp [loopEnd, h]

end

/-- Settles O10: each of the commands begins to wait. -/
theorem sqCommandsThatWait : Obligations.SqCommandsThatWait := by
  unfold Obligations.SqCommandsThatWait
  intro c w s waits
  exact ⟨fun h hmode => gives_seqWait (exec_sqSegment h hmode),
    fun h hbusy => gives_seqWait (by rw [exec_sqWait h, if_neg (by simp [hbusy])]),
    fun h => gives_seqWait (exec_sqSignal h), fun h hgated hclk => gives_seqWait (exec_sqFlagrd h hgated hclk),
    fun h hgated => gives_seqWait (exec_sqFlagclr h hgated), fun h => gives_seqWait (exec_sqEnd h)⟩

/-- Settles O16: both commands move on and change the loops of their sequencer. -/
theorem loopsRepeatTheirBody : Obligations.LoopsRepeatTheirBody := by
  unfold Obligations.LoopsRepeatTheirBody
  refine ⟨fun c w s h => ?loop, fun c w l ls s h hloops => ?endloop⟩
  case loop =>
    exact gives_advance_seq (f := fun q => { q with loops := { body := q.pc, count := w.w1.toNat, done := 0 } :: q.loops }) (exec_sqLoop h)
  case endloop =>
    have moved : ((s.core c).seq.moved s.tsc).loops = l :: ls := hloops
    have pass := gives_advance_seq (exec_sqEndloop h)
    rwa [loopEnd_cons moved] at pass

end Sys2Proof.Machine

/-! SUPPORT. What a change of one core or of some cores leaves of the others, the time base, the clocks and the schedule; what the end of
a segment does (R170 to R172). -/

namespace Sys2Proof.Machine

theorem MemOnly.core {s t : State} (h : MemOnly s t) (c : Nat) : t.core c = s.core c := by
  unfold State.core
  rw [h.cores]

theorem MemOnly.tsc {s t : State} (h : MemOnly s t) : t.tsc = s.tsc := by
  rw [h]

theorem MemOnly.clock {s t : State} (h : MemOnly s t) : t.clock = s.clock := by
  rw [h]

theorem MemOnly.sched {s t : State} (h : MemOnly s t) : t.sched = s.sched := by
  rw [h]

theorem memOnly_devRead (s : State) (o n : Nat) : MemOnly s (s.devRead o n).1 := memOnly_memRead s deviceStream o n 0 noErr

theorem memOnly_devWrite (s : State) (o : Nat) (bs : List Byte) : MemOnly s (s.devWrite o bs) := memOnly_memWrite s deviceStream o bs 0 noErr

/-- The time base, the clocks, the schedule and the cores outside `cs` are the same in two states. -/
structure LeavesCores (s t : State) (cs : List Nat) : Prop where
  tsc : t.tsc = s.tsc
  clock : t.clock = s.clock
  sched : t.sched = s.sched
  core : ∀ d, d ∉ cs → t.core d = s.core d

namespace LeavesCores

theorem refl (s : State) (cs : List Nat) : LeavesCores s s cs := ⟨rfl, rfl, rfl, fun _ _ => rfl⟩

theorem trans {s t u : State} {cs : List Nat} (h : LeavesCores s t cs) (g : LeavesCores t u cs) : LeavesCores s u cs :=
  ⟨g.tsc.trans h.tsc, g.clock.trans h.clock, g.sched.trans h.sched, fun d hd => (g.core d hd).trans (h.core d hd)⟩

theorem mono {s t : State} {cs ds : List Nat} (h : LeavesCores s t cs) (hsub : cs ⊆ ds) : LeavesCores s t ds :=
  ⟨h.tsc, h.clock, h.sched, fun d hd => h.core d (fun hc => hd (hsub hc))⟩

theorem imageCores {s t : State} {cs : List Nat} (h : LeavesCores s t cs) : t.imageCores = s.imageCores := by
  unfold State.imageCores
  rw [h.sched]

end LeavesCores

theorem MemOnly.leavesCores {s t : State} (h : MemOnly s t) (cs : List Nat) : LeavesCores s t cs :=
  ⟨h.tsc, h.clock, h.sched, fun d _ => h.core d⟩

theorem OnlyCore.leavesCores {s t : State} {c : Nat} (h : OnlyCore s t c) : LeavesCores s t [c] := by
  obtain ⟨frame, others⟩ := h
  refine ⟨?_, ?_, ?_, fun d hd => others d (by simpa using hd)⟩
  all_goals rw [frame]

/-- A core whose segment has ended: with no segment, and past its record if there was one to write (R170, R171). -/
def CoreSt.endsSegment (k : CoreSt) (n : Nat) : CoreSt :=
  { k with seq := { k.seq with
    seg := none, seqno := if k.seq.seg = none ∨ n = 0 then k.seq.seqno else k.seq.seqno + 1 } }

/-- With no segment there is nothing to end. -/
theorem endSegment_of_none {s : State} {c : Nat} (h : (s.core c).seq.seg = none) (endk : Nat) : s.endSegment c endk = s := by
  simp [State.endSegment, h]

theorem core_updCore_same (s : State) (c : Nat) (f : CoreSt → CoreSt) : (s.updCore c f).core c = f (s.core c) := by
  rw [core_updCore, if_pos rfl]

/-- The end of a segment: its record is written if there is a log, the core forgets the segment, and an overrun is posted (R170 to R172). -/
theorem endSegment_of_some {s : State} {c : Nat} {g : Segment} (h : (s.core c).seq.seg = some g) (endk : Nat) :
    ∃ u, MemOnly s u ∧ MemOnly (u.updCore c (fun k => k.endsSegment s.sched.logn)) (s.endSegment c endk) := by
  have ended : ∀ u : State, MemOnly s u → ∀ f : CoreSt → CoreSt, f (s.core c) = (s.core c).endsSegment s.sched.logn →
      u.updCore c f = u.updCore c (fun k => k.endsSegment s.sched.logn) :=
    fun u hu f hf => updCore_congr (by rw [hu.core, hf])
  unfold State.endSegment
  extract_lets q n o
  split
  next hnone => exact absurd (hnone.symm.trans h) nofun
  next =>
    extract_lets s1
    have recorded : ∃ u, MemOnly s u ∧ s1 = u.updCore c (fun k => k.endsSegment s.sched.logn) := by
      by_cases hn : n = 0
      · exact ⟨s, .refl s, (if_pos hn).trans (ended s (.refl s) _ (by simp [CoreSt.endsSegment, show s.sched.logn = 0 from hn]))⟩
      · refine ⟨_, memOnly_devWrite s _ _, (if_neg hn).trans (ended _ (memOnly_devWrite s _ _) _ ?_)⟩
        simp [CoreSt.endsSegment, h, show s.sched.logn ≠ 0 from hn]
    obtain ⟨u, hu, hs1⟩ := recorded
    refine ⟨u, hu, ?_⟩
    rw [← hs1]
    split
    · exact memOnly_post _ _ _ _ _
    · exact .refl s1

/-- The end of a segment leaves of the cores all but the segment of its own. -/
theorem leavesCores_endSegment (s : State) (c endk : Nat) : LeavesCores s (s.endSegment c endk) [c] := by
  cases h : (s.core c).seq.seg with
  | none => rw [endSegment_of_none h]; exact .refl s [c]
  | some g =>
    obtain ⟨u, hu, hend⟩ := endSegment_of_some h endk
    exact ((hu.leavesCores [c]).trans (onlyCore_upd u c _).leavesCores).trans (hend.leavesCores [c])

theorem core_endSegment (s : State) (c endk : Nat) : (s.endSegment c endk).core c = (s.core c).endsSegment s.sched.logn := by
  cases h : (s.core c).seq.seg with
  | none =>
    rw [endSegment_of_none h, CoreSt.endsSegment, if_pos (.inl h), ← h]
  | some g =>
    obtain ⟨u, hu, hend⟩ := endSegment_of_some h endk
    rw [hend.core, core_updCore_same, hu.core]

/-- A segment begins in a core. -/
def CoreSt.beginsSegment (g : Segment) (k : CoreSt) : CoreSt := { k with seq := { k.seq with seg := some g } }

theorem exec_segmentBoundary {c : Fin 136} {w : Cmd} {s : State} (hw : s.begun c 1 = some w) (hidle : idleMask (s.core c) 7 = true)
    (hmode : modeClash (s.core c).mxe (bit w.w0 23) = false) : exec (.segmentBoundary c) s =
      .next (((s.endSegment c 0).updCore c (CoreSt.beginsSegment (segOf w s.tsc))).advance c) := by
  show execSegmentBoundary c s = _
  simp only [execSegmentBoundary, hw, hidle, hmode]
  rfl

/-- A sequencer that begins a segment and moves on changes nothing else of the module. -/
theorem onlyCore_nextSegment (s : State) (c : Nat) (g : Segment) : OnlyCore s ((s.updCore c (CoreSt.beginsSegment g)).advance c) c :=
  (onlyCore_upd s c _).then (onlyCore_advance _ c)

theorem core_nextSegment (s : State) (c : Nat) (g : Segment) : ((s.updCore c (CoreSt.beginsSegment g)).advance c).core c =
    { s.core c with seq := { (s.core c).seq.moved s.tsc with seg := some g } } := by
  rw [core_advance_same, core_updCore_same]
  rfl

/-- Settles O11: the end of the segment before, the new one, and the move to the next command each change this core only. -/
theorem segmentBoundaryBegins : Obligations.SegmentBoundaryBegins := by
  unfold Obligations.SegmentBoundaryBegins
  intro c w s hw hidle hmode
  have next := core_nextSegment (s.endSegment c 0) c (segOf w s.tsc)
  have frame := (leavesCores_endSegment s c 0).trans (onlyCore_nextSegment (s.endSegment c 0) c (segOf w s.tsc)).leavesCores
  have others : ∀ d, d ≠ c.val → _ := fun d hd => frame.core d (by simpa using hd)
  refine ⟨_, exec_segmentBoundary hw hidle hmode, rfl, ?_, ?_, ?_, ?_, ?_, ?_, ?_, ?_, ?_, others, fun hnone => ?_⟩
  case refine_10 =>
    rw [endSegment_of_none hnone]
    exact ⟨onlyCore_nextSegment s c _, core_nextSegment s c _⟩
  all_goals simp [next, core_endSegment, CoreSt.endsSegment, SeqSt.moved]

end Sys2Proof.Machine

/-! SUPPORT. Gates: the test of SQ.WAITG (R144, R151) and the additions of SQ.SIGNAL (R145, R153). -/

namespace Sys2Proof.Machine

/-! The lifecycle follows the image, and the stop of the image changes its state. -/

theorem setLife_eq (s : State) (l : Nat) : ∃ (n t : Nat) (g : LogSt), s.setLife l = { s with life := n, lifeSince := t, log := g } := by
  unfold State.setLife
  split
  · exact ⟨s.life, s.lifeSince, s.log, rfl⟩
  · obtain ⟨g, hg⟩ := post_eq { s with life := l, lifeSince := s.tsc } 0x0201 1 (srcHub s.logHub 0xFF) [s.life, l]
    exact ⟨l, s.tsc, g, hg⟩

/-- A new image state moves the lifecycle and posts its event, and touches nothing else (R427). -/
theorem setSched_eq (s : State) (st : Nat) :
    ∃ (n t : Nat) (g : LogSt), s.setSched st = { s with sched := { s.sched with st := st }, life := n, lifeSince := t, log := g } := by
  unfold State.setSched State.lifeRefresh
  split
  · exact setLife_eq _ _
  · exact ⟨s.life, s.lifeSince, s.log, rfl⟩

theorem sched_setSched (s : State) (st : Nat) : (s.setSched st).sched = { s.sched with st := st } := by
  obtain ⟨n, t, g, h⟩ := setSched_eq s st
  rw [h]

/-- A stop takes the running image out of its state (R137). -/
theorem st_stopImage_ne {s : State} (h : s.sched.st = 3) (fcode : Nat) : (s.stopImage fcode).sched.st ≠ 3 := by
  rw [State.stopImage, if_pos h, sched_setSched]
  exact nofun

/-! The test of a gate. -/

section
variable {c : Fin 136} {w : Cmd} {s : State}

/-- The module after a gate of value `v` has passed its test: CONSUME lowers it by TARGET (R151). -/
def State.gatePassed (s : State) (w : Cmd) (v : Nat) : State :=
  if sqConsume w then s.devWrite (sqGoff w) (leBytes 8 (v - sqTarget w)) else s

theorem memOnly_gatePassed (s : State) (w : Cmd) (v : Nat) : MemOnly s (s.gatePassed w v) := by
  unfold State.gatePassed
  split
  · exact memOnly_devWrite _ _ _
  · exact .refl s

theorem gateTest_waits (h : s.sliceWaits deviceStream (sqGoff w) = true) :
    s.gateTest (sqGoff w) (sqTarget w) (sqConsume w) = (s, false) := by
  rw [State.gateTest, if_pos h]

theorem gateTest_poisoned (h : s.sliceWaits deviceStream (sqGoff w) = false) (hread : (s.devRead (sqGoff w) 8).2 = none) :
    s.gateTest (sqGoff w) (sqTarget w) (sqConsume w) = ((s.devRead (sqGoff w) 8).1.stopImage 4, false) := by
  rw [State.gateTest, if_neg (by simp [h])]
  simp only [hread]

variable {b : List Byte}

theorem gateTest_below (h : s.sliceWaits deviceStream (sqGoff w) = false) (hread : (s.devRead (sqGoff w) 8).2 = some b)
    (hb : ofLe b < sqTarget w) :
    s.gateTest (sqGoff w) (sqTarget w) (sqConsume w) = ((s.devRead (sqGoff w) 8).1, false) := by
  rw [State.gateTest, if_neg (by simp [h])]
  simp only [hread, if_pos hb]

theorem gateTest_passes (h : s.sliceWaits deviceStream (sqGoff w) = false) (hread : (s.devRead (sqGoff w) 8).2 = some b)
    (hb : sqTarget w ≤ ofLe b) : s.gateTest (sqGoff w) (sqTarget w) (sqConsume w) =
      ((s.devRead (sqGoff w) 8).1.gatePassed w (ofLe b), true) := by
  rw [State.gateTest, if_neg (by simp [h])]
  simp only [hread, if_neg (Nat.not_lt.mpr hb), State.gatePassed]
  split <;> rfl

/-! SQ.WAITG by the outcome of its test, at issue and while it waits. -/

variable {t : State}

theorem waitg_passes (htest : s.gateTest (sqGoff w) (sqTarget w) (sqConsume w) = (t, true)) (hst : t.sched.st = 3) :
    s.waitg c w = t.advance c := by
  simp [State.waitg, htest, hst]

theorem waitg_waits (htest : s.gateTest (sqGoff w) (sqTarget w) (sqConsume w) = (t, false)) (hst : t.sched.st = 3) :
    s.waitg c w = t.seqWait c 3 (some w) := by
  simp [State.waitg, htest, hst]

theorem waitg_stopped (htest : s.gateTest (sqGoff w) (sqTarget w) (sqConsume w) = (t, false)) (hst : t.sched.st ≠ 3) : s.waitg c w = t := by
  simp [State.waitg, htest, hst]

theorem exec_waitgPoll_passes (hw : s.begun c 3 = some w) (htest : s.gateTest (sqGoff w) (sqTarget w) (sqConsume w) = (t, true))
    (hst : t.sched.st = 3) : exec (.waitgPoll c) s = .next (t.advance c) := by
  show execWaitgPoll c s = _
  simp [execWaitgPoll, hw, htest, hst]

theorem exec_waitgPoll_fails (hw : s.begun c 3 = some w) (htest : s.gateTest (sqGoff w) (sqTarget w) (sqConsume w) = (t, false)) :
    exec (.waitgPoll c) s = .next t := by
  show execWaitgPoll c s = _
  simp [execWaitgPoll, hw, htest]

end

/-- After a gate test that has touched the memory only, a sequencer that moves on, or waits, is all that changes in the cores. -/
theorem MemOnly.cores_advance {s t : State} (h : MemOnly s t) (c : Nat) :
    (t.advance c).core c = { s.core c with seq := (s.core c).seq.moved s.tsc } ∧ ∀ d, d ≠ c → (t.advance c).core d = s.core d :=
  ⟨by rw [core_advance_same, h.core, h.tsc], fun d hd => by rw [core_advance, if_neg hd, h.core]⟩

theorem MemOnly.cores_seqWait {s t : State} (h : MemOnly s t) (c waitk : Nat) (w : Cmd) :
    (t.seqWait c waitk (some w)).core c = { s.core c with seq := (s.core c).seq.waits s.tsc waitk w } ∧
      ∀ d, d ≠ c → (t.seqWait c waitk (some w)).core d = s.core d := by
  obtain ⟨-, others⟩ := onlyCore_seqWait t c waitk (some w)
  exact ⟨by rw [core_seqWait, h.core, h.tsc], fun d hd => by rw [others d hd, h.core]⟩

/-- Settles O12: SQ.WAIT looks at the engines, SQ.WAITG at the outcome of its gate test. -/
theorem waitsGoOnWhenMet : Obligations.WaitsGoOnWhenMet := by
  unfold Obligations.WaitsGoOnWhenMet
  refine ⟨⟨fun c w s h hidle => gives_advance (by rw [exec_sqWait h, if_pos hidle]),
    fun c w s hw hidle => gives_advance (exec_sqWaitRelease hw hidle)⟩, fun c w s hst => ?_⟩
  dsimp only
  have read : MemOnly s (s.devRead (sqGoff w) 8).1 := memOnly_devRead s (sqGoff w) 8
  have running : ∀ {t}, MemOnly s t → t.sched.st = 3 := fun ht => by rw [ht.sched, hst]
  refine ⟨fun b hfree hb => ⟨fun hpass => ?passes, fun hbelow => ?below⟩, fun hwait => ?waits, fun hfree hnone => ?poisoned⟩
  case passes =>
    have test := gateTest_passes hfree hb hpass
    have only : MemOnly s ((s.devRead (sqGoff w) 8).1.gatePassed w (ofLe b)) := read.trans (memOnly_gatePassed _ w _)
    exact ⟨fun h => ⟨_, exec_sqWaitg h, waitg_passes test (running only), waitg_passes (c := c) test (running only) ▸ only.cores_advance c⟩,
      fun hw => ⟨_, exec_waitgPoll_passes hw test (running only), rfl, only.cores_advance c⟩⟩
  case below =>
    have test := gateTest_below hfree hb hbelow
    exact ⟨fun h => ⟨_, exec_sqWaitg h, waitg_waits test (running read), waitg_waits (c := c) test (running read) ▸ read.cores_seqWait c 3 w⟩,
      fun hw => ⟨_, exec_waitgPoll_fails hw test, rfl, read.cores⟩⟩
  case waits =>
    have test := gateTest_waits hwait
    exact ⟨fun h => ⟨_, exec_sqWaitg h, waitg_waits test hst⟩, fun hw => ⟨_, exec_waitgPoll_fails hw test, rfl⟩⟩
  case poisoned =>
    have test := gateTest_poisoned hfree hnone
    exact ⟨fun h => ⟨_, exec_sqWaitg h, waitg_stopped test (st_stopImage_ne (running read) 4)⟩,
      fun hw => ⟨_, exec_waitgPoll_fails hw test, rfl⟩⟩

end Sys2Proof.Machine

/-! SUPPORT. Signals (R145, R153, R234): a packet that leaves, and the gate addition of a core. -/

namespace Sys2Proof.Machine

/-- A packet of this module finds no path, or it waits in the transmit queue of a port, from the tree with a TSEQ of its own (R292, R305). -/
theorem sendPkt_cases (s : State) (p : Packet) : s.sendPkt p = (s, none) ∨
    ∃ ports tseq port, s.sendPkt p = ({ s with ports := ports, fab := { s.fab with tseq := tseq } }, some port) := by
  unfold State.sendPkt
  extract_lets code
  split
  · split
    · exact .inl rfl
    · split
      · exact .inl rfl
      next port _ =>
        split
        · exact .inl rfl
        · exact .inr ⟨_, s.fab.tseq, port, rfl⟩
  · split
    · exact .inl rfl
    · split
      · exact .inl rfl
      next port _ =>
        split
        · exact .inl rfl
        · exact .inr ⟨_, _, port, rfl⟩

/-- The ADD packet of a gate addition takes a TXN of its own; with a path it leaves, and its TXN and a signal entry stay in use until the
answer (R234). -/
theorem sendAdd_cases (s : State) (c : Nat) (g : GateAdd) :
    s.sendAdd c g = { s with fab := { s.fab with nextTxn := (s.fab.nextTxn + 1) % 65536 } } ∨
    ∃ ports tseq port, s.sendAdd c g = State.updCore { s with ports := ports, fab := { s.fab with
        nextTxn := (s.fab.nextTxn + 1) % 65536, tseq := tseq,
        txns := s.fab.txns.set none s.fab.nextTxn (some { owner := .gateAdd c, port := port }) } } c
      (fun k => { k with ste := { k.ste with sigBusy := k.ste.sigBusy + 1 } }) := by
  unfold State.sendAdd
  extract_lets txn fab s1 own p r
  obtain hr | ⟨ports, tseq, port, hr⟩ := sendPkt_cases s1 p
  · rw [show r = _ from hr]
    exact .inl rfl
  · rw [show r = _ from hr]
    exact .inr ⟨ports, tseq, port, rfl⟩

section
variable {c : Fin 136} {w : Cmd} {s : State}

theorem exec_signalGateAdd (hw : s.begun c 4 = some w) (hidle : idleMask (s.core c) (sqEmask w) = true) : exec (.signalGateAdd c) s =
    .next ((s.advance c).signalGate c { gaddr := sqGaddr w, add := sqTarget w, epoch := s.sched.placeEpoch }) := by
  show execSignalGateAdd c s = _
  simp [execSignalGateAdd, hw, hidle]

theorem exec_gateSignalSend {g : GateAdd} {rest : List GateAdd} (hwait : (s.core c).ste.sigWait = g :: rest)
    (hbusy : (s.core c).ste.sigBusy < 16) (hlost : s.clock.lost = false) : exec (.gateSignalSend c) s =
      .next ((s.updCore c (fun k => { k with ste := { k.ste with sigWait := rest } })).signalNow c g) := by
  show execGateSignalSend c s = _
  simp [execGateSignalSend, hwait, hbusy, hlost]

/-- A gate addition that finds a signal entry leaves at once (R153). -/
theorem signalGate_free {g : GateAdd} (hbusy : (s.core c).ste.sigBusy < 16) (hwait : (s.core c).ste.sigWait = []) :
    s.signalGate c g = s.signalNow c g := by
  simp [State.signalGate, hbusy, hwait]

/-- A gate addition without a signal entry, or behind others, waits (R153, R234). -/
theorem signalGate_full {g : GateAdd} (h : 16 ≤ (s.core c).ste.sigBusy ∨ (s.core c).ste.sigWait ≠ []) :
    s.signalGate c g = s.updCore c (fun k => { k with ste := { k.ste with sigWait := k.ste.sigWait ++ [g] } }) := by
  have notNow : ¬ ((s.core c).ste.sigBusy < 16 ∧ (s.core c).ste.sigWait.isEmpty = true) := by
    simpa [imp_iff_not_or] using h
  rw [State.signalGate, if_neg notNow]

theorem ste_advance (s : State) (c : Nat) : ((s.advance c).core c).ste = (s.core c).ste := by
  simp

end

/-- Settles O13: a signal with an entry leaves at once, one without waits, and a waiting one leaves when its turn has come. -/
theorem signalsAddToGates : Obligations.SignalsAddToGates := by
  unfold Obligations.SignalsAddToGates
  refine ⟨fun c w s hw hidle => ?signal, fun c g rest s hwait hbusy hlost => ?send⟩
  case signal =>
    intro g
    refine ⟨fun hbusy hwait => ⟨_, exec_signalGateAdd hw hidle, ?_⟩, fun hfull => ⟨_, exec_signalGateAdd hw hidle, ?_⟩⟩
    · rw [signalGate_free (by rwa [ste_advance]) (by rwa [ste_advance])]
      rfl
    · rw [signalGate_full (by rwa [ste_advance])]
      refine ⟨(onlyCore_advance s c).then (onlyCore_upd _ c _), ?_⟩
      rw [core_updCore_same, core_advance_same]
  case send =>
    intro u
    have own : u.core c = { s.core c with ste := { (s.core c).ste with sigWait := rest } } := core_updCore_same s c _
    have others : ∀ d, d ≠ c.val → u.core d = s.core d := fun d hd => by rw [core_updCore, if_neg hd]
    refine ⟨fun hlocal => ⟨_, exec_gateSignalSend hwait hbusy hlost, if_pos hlocal⟩, fun hremote => ?_⟩
    have sent : u.signalNow c g = u.sendAdd c g := if_neg (Bool.eq_false_iff.mp hremote)
    refine ⟨_, sent ▸ exec_gateSignalSend hwait hbusy hlost, rfl, ?_⟩
    obtain hadd | ⟨ports, tseq, port, hadd⟩ := sendAdd_cases u c g
    · rw [hadd]
      have core : ∀ d, State.core { u with fab := { u.fab with nextTxn := (u.fab.nextTxn + 1) % 65536 } } d = u.core d := fun _ => rfl
      refine ⟨?_, rfl, others, rfl, rfl, .inl ⟨?_, rfl, rfl⟩⟩ <;> rw [core, own]
    · rw [hadd]
      refine ⟨?_, rfl, fun d hd => ?_, rfl, rfl, .inr ⟨?_, port, ?_⟩⟩
      · rw [core_updCore_same]
        exact congrArg (fun k => k.ste.sigWait) own
      · rw [core_updCore, if_neg hd]
        exact others d hd
      · rw [core_updCore_same]
        exact congrArg (fun k => k.ste.sigBusy + 1) own
      · rw [updCore_fab, SMap.get_set]
        exact if_pos rfl

end Sys2Proof.Machine

/-! SUPPORT. Barriers (R146, R154, R155): an arrival, and the release of the participants. -/

namespace Sys2Proof.Machine

theorem bar_seqWait (s : State) (c waitk : Nat) (cmd : Option Cmd) (b : Nat) : (s.seqWait c waitk cmd).bar b = s.bar b := rfl

/-- The module differs in its cores only. -/
def CoresOnly (s t : State) : Prop := t = { s with cores := t.cores }

theorem CoresOnly.trans {s t u : State} (h : CoresOnly s t) (g : CoresOnly t u) : CoresOnly s u := by
  unfold CoresOnly at h g ⊢
  rw [g, h]

theorem CoresOnly.bar {s t : State} (h : CoresOnly s t) (b : Nat) : t.bar b = s.bar b := by
  rw [h]
  rfl

/-- The release of a core that waits at a barrier moves its sequencer on; any other core stays as it is (R155). -/
theorem core_barRelease (s : State) (c d : Nat) : (s.barRelease c).core d =
    if d = c ∧ (s.begun c 5).isSome = true then { s.core d with seq := (s.core d).seq.moved s.tsc } else s.core d := by
  unfold State.barRelease
  split
  next h =>
    rw [core_advance]
    split
    next hd => rw [if_pos ⟨hd, h⟩, hd]
    next hd => rw [if_neg (fun hx => hd hx.1)]
  next h => rw [if_neg (fun hx => h hx.2)]

theorem coresOnly_barRelease (s : State) (c : Nat) : CoresOnly s (s.barRelease c) := by
  unfold State.barRelease
  split <;> rfl

theorem begun_congr {s t : State} {c : Nat} (hcore : t.core c = s.core c) (hclock : t.clock = s.clock) (op : Nat) :
    t.begun c op = s.begun c op := by
  simp only [State.begun, hcore, hclock]

/-- A sequencer that has moved on has begun nothing. -/
theorem begun_of_moved {s : State} {c tsc : Nat} {q : SeqSt} (h : (s.core c).seq = q.moved tsc) (op : Nat) : s.begun c op = none := by
  simp [State.begun, h, SeqSt.moved]

/-- After the release each listed core that waited at a barrier has moved on, once; every other core is as it was. -/
theorem forEach_barRelease (cs : List Nat) (s : State) :
    CoresOnly s (s.forEach cs State.barRelease) ∧
    ∀ d, (s.forEach cs State.barRelease).core d =
      if (s.begun d 5).isSome = true ∧ d ∈ cs then { s.core d with seq := (s.core d).seq.moved s.tsc } else s.core d := by
  induction cs generalizing s with
  | nil => exact ⟨rfl, fun d => by simp [State.forEach]⟩
  | cons c cs ih =>
    obtain ⟨frame, cores⟩ := ih (s.barRelease c)
    have first : s.barRelease c = _ := coresOnly_barRelease s c
    have tsc : (s.barRelease c).tsc = s.tsc := by rw [first]
    have clock : (s.barRelease c).clock = s.clock := by rw [first]
    refine ⟨(coresOnly_barRelease s c).trans frame, fun d => ?_⟩
    · show ((s.barRelease c).forEach cs State.barRelease).core d = _
      rw [cores d, tsc]
      by_cases hd : d = c ∧ (s.begun c 5).isSome = true
      · obtain ⟨rfl, hb⟩ := hd
        have moved := (core_barRelease s d d).trans (if_pos ⟨rfl, hb⟩)
        rw [begun_of_moved (congrArg CoreSt.seq moved), moved]
        simp [hb]
      · have same := (core_barRelease s c d).trans (if_neg hd)
        rw [begun_congr same clock, same]
        congr 1
        simp only [List.mem_cons, eq_iff_iff, and_congr_right_iff]
        intro hb
        have : d ≠ c := by rintro rfl; exact hd ⟨rfl, hb⟩
        simp [this]

section
variable {b : Fin 64} {c : Nat} {rest : List Nat} {s : State} (hin : (s.bar b).inflight = c :: rest)
  (hfenced : (s.hub (s.barHub b)).fenced = false) (hlost : s.clock.lost = false)
include hin hfenced hlost

theorem exec_barrierArrival_counts (h : (s.bar b).arrived + 1 ≠ (s.bar b).mask.length) : exec (.barrierArrival b) s =
    .next (s.updBar b (fun x => { x with inflight := rest, arrived := x.arrived + 1, waiting := x.waiting ++ [c] })) := by
  show execBarrierArrival b s = _
  simp [execBarrierArrival, hin, hfenced, hlost, h]

theorem exec_barrierArrival_releases (h : (s.bar b).arrived + 1 = (s.bar b).mask.length) : exec (.barrierArrival b) s =
    .next ((s.updBar b (fun x => { x with inflight := rest, arrived := 0, waiting := [] })).forEach ((s.bar b).waiting ++ [c])
      State.barRelease) := by
  show execBarrierArrival b s = _
  simp [execBarrierArrival, hin, hfenced, hlost, h]

end

/-- Settles O14: a change of one barrier, beside which an arrival's core begins to wait and a release moves its participants on. -/
theorem barriersCountAndRelease : Obligations.BarriersCountAndRelease := by
  unfold Obligations.BarriersCountAndRelease
  have own : ∀ (s : State) (b : Nat) (f : BarSt → BarSt), (s.updBar b f).bar b = f (s.bar b) := fun s b f => by
    rw [bar_updBar, if_pos rfl]
  have others : ∀ (s : State) (b : Nat) (f : BarSt → BarSt) (d : Nat), d ≠ b → (s.updBar b f).bar d = s.bar d := fun s b f d hd => by
    rw [bar_updBar, if_neg hd]
  refine ⟨fun c w s h hmask => ?arrival, fun b c rest s hin hfenced hlost => ⟨fun hmore => ?counted, fun hlast => ?released⟩⟩
  case arrival =>
    obtain ⟨-, waits⟩ := onlyCore_seqWait (s.updBar (sqBarid w) (fun x => { x with inflight := x.inflight ++ [c.val] })) c 4 (some w)
    refine ⟨_, exec_sqBar h hmask, core_seqWait _ c 4 w, waits, ?_, fun b hb => ?_, rfl⟩
    · rw [bar_seqWait, own]
    · rw [bar_seqWait, others s _ _ b hb]
  case counted => exact ⟨_, exec_barrierArrival_counts hin hfenced hlost hmore, own s _ _, others s _ _, rfl⟩
  case released =>
    obtain ⟨only, cores⟩ := forEach_barRelease ((s.bar b).waiting ++ [c])
      (s.updBar b (fun x => { x with inflight := rest, arrived := 0, waiting := [] }))
    refine ⟨_, exec_barrierArrival_releases hin hfenced hlost hlast, ?_, fun d hd => ?_, ?_, cores⟩
    · rw [only.bar, own]
    · rw [only.bar, others s _ _ d hd]
    · rw [only]
      rfl

end Sys2Proof.Machine

/-! SUPPORT. The halt of an image (R137, R163): what it leaves of the cores, of the schedule and of the rest of the module. -/

namespace Sys2Proof.Machine

/-! An operation for each core of a list. -/

section
variable {f : State → Nat → State}

theorem LeavesCores.forEach {α : Type} {f : State → α → State} {cs : List Nat} (hf : ∀ s x, LeavesCores s (f s x) cs) (xs : List α) (s : State) :
    LeavesCores s (s.forEach xs f) cs := by
  induction xs generalizing s with
  | nil => exact .refl s cs
  | cons x xs ih => exact (hf s x).trans (ih (f s x))

variable (hf : ∀ s c, LeavesCores s (f s c) [c])
include hf

/-- An operation on single cores, for each of a list, leaves every other core. -/
theorem leavesCores_forEach (cs : List Nat) (s : State) : LeavesCores s (s.forEach cs f) cs := by
  induction cs generalizing s with
  | nil => exact .refl s []
  | cons c cs ih =>
    exact ((hf s c).mono (by simp)).trans ((ih (f s c)).mono (List.subset_cons_self c cs))

/-- A core that is listed once is worked on in a state that has it, and the schedule, as before. -/
theorem core_forEach_of_mem {cs : List Nat} {d : Nat} (h : d ∈ cs) (hn : cs.Nodup) (s : State) :
    ∃ t, LeavesCores s t cs ∧ t.core d = s.core d ∧ (s.forEach cs f).core d = (f t d).core d := by
  induction cs generalizing s with
  | nil => exact absurd h List.not_mem_nil
  | cons c cs ih =>
    obtain ⟨hc, hcs⟩ := List.nodup_cons.mp hn
    have first : LeavesCores s (f s c) (c :: cs) := (hf s c).mono (by simp)
    by_cases hd : d = c
    · subst hd
      exact ⟨s, .refl s _, rfl, (leavesCores_forEach hf cs (f s d)).core d hc⟩
    · obtain ⟨t, ht, same, last⟩ := ih ((List.mem_cons.mp h).resolve_left hd) hcs (f s c)
      exact ⟨t, first.trans (ht.mono (List.subset_cons_self c cs)), same.trans ((hf s c).core d (by simpa using hd)), last⟩

end

theorem imageCores_nodup (s : State) : s.imageCores.Nodup := List.nodup_range.filter _

/-! Hubs, ports and the fabric. -/

/-- The module differs in hubs, ports and its fabric only. -/
def LinksOnly (s t : State) : Prop := t = { s with hubs := t.hubs, ports := t.ports, fab := t.fab }

namespace LinksOnly

theorem refl (s : State) : LinksOnly s s := rfl

theorem trans {s t u : State} (h : LinksOnly s t) (g : LinksOnly t u) : LinksOnly s u := by
  unfold LinksOnly at h g ⊢
  rw [g, h]

theorem forEach {α : Type} {f : State → α → State} (hf : ∀ s x, LinksOnly s (f s x)) (xs : List α) (s : State) :
    LinksOnly s (s.forEach xs f) := by
  induction xs generalizing s with
  | nil => exact .refl s
  | cons x xs ih => exact (hf s x).trans (ih (f s x))

theorem core {s t : State} (h : LinksOnly s t) (c : Nat) : t.core c = s.core c := by
  rw [h]
  rfl

theorem leavesCores {s t : State} (h : LinksOnly s t) (cs : List Nat) : LeavesCores s t cs := by
  refine ⟨?_, ?_, ?_, fun d _ => h.core d⟩
  all_goals rw [h]

theorem log {s t : State} (h : LinksOnly s t) : t.log = s.log := by
  rw [h]

end LinksOnly

theorem linksOnly_collDo (s : State) (h : Nat) (f : CollSt → CollSt) : LinksOnly s (s.collDo h f) := by
  unfold State.collDo State.freePackets
  have put : ∀ k, LinksOnly s (s.updColl h (fun _ => k)) := fun _ => rfl
  have freed : ∀ (t : State) (x : Nat × Packet), LinksOnly t (t.freeIngress x.1 4 (slotCount x.2)) := fun _ _ => rfl
  exact (put _).trans (.forEach freed _ _)

theorem linksOnly_collForget (s : State) (h : Nat) : LinksOnly s (s.collForget h) := rfl

/-- The stop of the collective sequencers touches hubs, ports and the fabric (R312). -/
theorem linksOnly_collStop (s : State) : LinksOnly s s.collStop :=
  (((linksOnly_collDo s 0 _).trans (linksOnly_collForget _ 0)).trans (linksOnly_collDo _ 1 _)).trans (linksOnly_collForget _ 1)

/-! One core that stops. -/

/-- A core whose sequencer halts, if it runs or waits (R137, R163). -/
def CoreSt.halts (k : CoreSt) (fcode n : Nat) : CoreSt :=
  if k.seq.st = 1 ∨ k.seq.st = 2 then
    { k with seq := { (k.endsSegment n).seq with st := 4, fcode := fcode, waitk := 0, cmd := none } }
  else k

theorem leavesCores_haltSeq (fcode : Nat) (s : State) (c : Nat) : LeavesCores s (s.haltSeq fcode c) [c] := by
  unfold State.haltSeq
  extract_lets q
  split
  · exact (leavesCores_endSegment s c 2).trans (onlyCore_upd _ c _).leavesCores
  · exact .refl s [c]

theorem core_haltSeq (fcode : Nat) (s : State) (c : Nat) : (s.haltSeq fcode c).core c = (s.core c).halts fcode s.sched.logn := by
  unfold State.haltSeq CoreSt.halts
  extract_lets q
  split
  next h =>
    rw [core_updCore_same, core_endSegment]
    rfl
  next h => rfl

/-- A core after its engines have abandoned their work: its sequencer is as before, and no engine has work left (R137). -/
structure CoreSt.Abandons (k l : CoreSt) : Prop where
  seq : l.seq = k.seq
  arrQ : l.mxe.arrQ = []
  drains : l.mxe.drains = []
  vxeQ : l.vxe.q = []
  pipes : l.vxe.pipes = []
  steQ : l.ste.q = []

theorem leavesCores_forEach_updRegion (g : RegionSt → RegionSt) (rs : List Nat) (s : State) :
    LeavesCores s (s.forEach rs (fun s r => s.updRegion r g)) [] :=
  .forEach (f := fun s r => s.updRegion r g) (fun _ _ => ⟨rfl, rfl, rfl, fun _ _ => rfl⟩) rs s

/-- A change of landings and fabric, and then of one core. -/
theorem updCore_setReel_spec {s t : State} (h : LeavesCores s t []) (l : List Landing) (x : FabSt) (c : Nat) (f : CoreSt → CoreSt) :
    LeavesCores s (State.updCore { t with landings := l, fab := x } c f) [c] ∧
      (State.updCore { t with landings := l, fab := x } c f).core c = f (s.core c) := by
  have same : State.core { t with landings := l, fab := x } c = s.core c := h.core c List.not_mem_nil
  have forgotten : LeavesCores s { t with landings := l, fab := x } [] := ⟨h.tsc, h.clock, h.sched, h.core⟩
  exact ⟨(forgotten.mono (List.nil_subset _)).trans (onlyCore_upd _ c f).leavesCores, by rw [core_updCore_same, same]⟩

/-- The cancellation of a core's streams leaves of the cores all but its own STE (R237). -/
theorem steCancel_spec (s : State) (c : Nat) :
    LeavesCores s (s.steCancel c) [c] ∧ ∃ e : SteSt, e.q = [] ∧ (s.steCancel c).core c = { s.core c with ste := e } := by
  unfold State.steCancel
  obtain ⟨leaves, core⟩ := updCore_setReel_spec (leavesCores_forEach_updRegion (fun g =>
    { g with q := g.q.filter (fun q => !q.ofCore c), held := g.held.filter (fun q => !q.ofCore c) }) allRegions s) _ _ c _
  exact ⟨leaves, _, rfl, core⟩

theorem abandonCore_spec (s : State) (c : Nat) : LeavesCores s (s.abandonCore c) [c] ∧ (s.core c).Abandons ((s.abandonCore c).core c) := by
  unfold State.abandonCore
  extract_lets xs s1 s2 s3
  have drained : LeavesCores s s2 [c] ∧ ∃ x m, s2.core c = { s.core c with spad := x, mxe := m } := by
    show LeavesCores s (dite _ _ _) [c] ∧ ∃ x m, State.core (dite _ _ _) c = _
    split
    next h =>
      obtain ⟨only, r, -, core⟩ := mxeRaises_updCore s ⟨c, h⟩ (fun k => { k with spad := exitWrite k.spad xs }) (exitFlags xs)
      exact ⟨only.leavesCores, _, _, core⟩
    next => exact ⟨(onlyCore_upd s c _).leavesCores, _, _, core_updCore_same s c _⟩
  obtain ⟨leaves, x, m, core⟩ := drained
  clear_value s2
  have stopped : LeavesCores s s3 [c] := leaves.trans (onlyCore_upd s2 c _).leavesCores
  have stoppedCore : s3.core c = { s2.core c with
      mxe := abandonMxe (s.freeCtr + 1) (s2.core c).mxe, vxe := { (s2.core c).vxe with pipes := [], q := [], popped := 0 } } :=
    core_updCore_same s2 c _
  clear_value s3
  have counted : LeavesCores s { s3 with freeCtr := s.freeCtr + 1 + 16 * 12288 } [c] := ⟨stopped.tsc, stopped.clock, stopped.sched, stopped.core⟩
  obtain ⟨cancelled, e, hq, last⟩ := steCancel_spec { s3 with freeCtr := s.freeCtr + 1 + 16 * 12288 } c
  refine ⟨counted.trans cancelled, ?_⟩
  have same : State.core { s3 with freeCtr := s.freeCtr + 1 + 16 * 12288 } c = s3.core c := rfl
  rw [last, same, stoppedCore, core]
  exact ⟨rfl, rfl, rfl, rfl, rfl, hq⟩

/-! The image. -/

theorem barsAndHalt_leaves {s t : State} {cs : List Nat} (h : LeavesCores s t cs) (b : SMap BarSt) :
    LeavesCores { s with sched := { s.sched with halted := true } } { t with bars := b, sched := { t.sched with halted := true } } cs :=
  ⟨h.tsc, h.clock, by rw [h.sched], h.core⟩

/-- The halt of the image: the schedule is marked, its cores halt and abandon their work, and every other core is as it was (R137). -/
theorem haltImage_spec (s : State) (fcode : Nat) :
    LeavesCores { s with sched := { s.sched with halted := true } } (s.haltImage fcode) s.imageCores ∧
    ∀ c ∈ s.imageCores, ((s.core c).halts fcode s.sched.logn).Abandons ((s.haltImage fcode).core c) := by
  unfold State.haltImage
  extract_lets marked cs s1 s2 halting s3
  have halted : LeavesCores s s1 cs := leavesCores_forEach (leavesCores_haltSeq fcode) cs s
  have halts : ∀ c ∈ cs, s1.core c = (s.core c).halts fcode s.sched.logn := by
    intro c hc
    obtain ⟨t, ht, same, last⟩ := core_forEach_of_mem (leavesCores_haltSeq fcode) hc (imageCores_nodup s) s
    exact last.trans (by rw [core_haltSeq, same, ht.sched])
  clear_value s1
  have leaves : ∀ u c, LeavesCores u (State.abandonCore u c) [c] := fun u c => (abandonCore_spec u c).1
  have abandoned : LeavesCores s1 s2 cs := leavesCores_forEach leaves cs s1
  have abandons : ∀ c ∈ cs, (s1.core c).Abandons (s2.core c) := by
    intro c hc
    obtain ⟨t, -, same, last⟩ := core_forEach_of_mem leaves hc (imageCores_nodup s) s1
    have one := (abandonCore_spec t c).2
    rw [same] at one
    exact last ▸ one
  clear_value s2
  have stopped := linksOnly_collStop s3
  refine ⟨(barsAndHalt_leaves (halted.trans abandoned) _).trans (stopped.leavesCores cs), fun c hc => ?_⟩
  rw [stopped.core, ← halts c hc]
  exact abandons c hc

end Sys2Proof.Machine

/-! SUPPORT. The ends of an image (R136, R138, R163, R167): completion, the stall event, and the rest after a halt. -/

namespace Sys2Proof.Machine

/-! The state of the image. -/

theorem leavesCores_setSched (s : State) (st : Nat) (cs : List Nat) :
    LeavesCores { s with sched := { s.sched with st := st } } (s.setSched st) cs := by
  obtain ⟨n, t, g, h⟩ := setSched_eq s st
  rw [h]
  exact ⟨rfl, rfl, rfl, fun _ _ => rfl⟩

theorem core_setSched (s : State) (st c : Nat) : (s.setSched st).core c = s.core c :=
  (leavesCores_setSched s st []).core c List.not_mem_nil

/-- A posted event stands at the end of those raised (R431). -/
theorem raised_post {s : State} (h : s.clock.lost = false) (code sev src : Nat) (args : List Nat) :
    (s.post code sev src args).log.raised =
      s.log.raised ++ [{ code := code, sev := sev, src := src, tsc := s.tsc, args := args.map (BitVec.ofNat 32) }] := by
  simp [State.post, h]

theorem mem_raised_post {s : State} {e : Ev} (h : e ∈ s.log.raised) (code sev src : Nat) (args : List Nat) :
    e ∈ (s.post code sev src args).log.raised := by
  unfold State.post
  split
  · exact h
  · exact List.mem_append_left _ h

/-! Completion. -/

/-- The end of a collective sequencer that is not DONE touches hubs, ports and the fabric, and posts its event (R312). -/
theorem collAbandon_spec (s : State) (h : Nat) :
    LeavesCores s (s.collAbandon h) [] ∧ ∀ e ∈ s.log.raised, e ∈ (s.collAbandon h).log.raised := by
  unfold State.collAbandon
  extract_lets k
  split
  · have halted := (linksOnly_collDo s h collHalt).trans (linksOnly_collForget _ h)
    refine ⟨(halted.leavesCores []).trans ((memOnly_post _ _ _ _ _).leavesCores []), fun e he => ?_⟩
    rw [← halted.log] at he
    exact mem_raised_post he _ _ _ _
  · exact ⟨.refl s [], fun e he => he⟩

/-- An image with a sequencer that is not DONE goes on. -/
theorem completeIfDone_of_not_done {s : State} {d : Nat} (hd : d ∈ s.imageCores) (h : (s.core d).seq.st ≠ 3) : s.completeIfDone = s := by
  refine if_neg (fun hx => h ?_)
  simpa using List.all_eq_true.mp hx.2 d hd

/-- An image whose sequencers are all DONE is COMPLETE, and its event is posted (R136). -/
theorem completeIfDone_of_done {s : State} (hst : s.sched.st = 3) (hlost : s.clock.lost = false)
    (h : ∀ d ∈ s.imageCores, (s.core d).seq.st = 3) :
    LeavesCores { s with sched := { s.sched with st := 4 } } s.completeIfDone [] ∧
    ∃ e ∈ s.completeIfDone.log.raised, e.code = 0x0601 ∧ e.tsc = s.tsc ∧ e.args = [BitVec.ofNat 32 s.sched.entry] := by
  have done : s.imageCores.all (fun c => decide ((s.core c).seq.st = 3)) = true :=
    List.all_eq_true.mpr (fun d hd => decide_eq_true (h d hd))
  rw [State.completeIfDone, if_pos ⟨hst, done⟩]
  have moved := leavesCores_setSched s 4 []
  have posted := moved.trans ((memOnly_post (s.setSched 4) 0x0601 0 (srcHub s.logHub 0xFF) [s.sched.entry]).leavesCores [])
  have locked : (s.setSched 4).clock.lost = false := by rw [moved.clock, hlost]
  have raised := raised_post locked 0x0601 0 (srcHub s.logHub 0xFF) [s.sched.entry]
  generalize (s.setSched 4).post 0x0601 0 (srcHub s.logHub 0xFF) [s.sched.entry] = u at posted raised ⊢
  obtain ⟨north, northLog⟩ := collAbandon_spec u 0
  obtain ⟨south, southLog⟩ := collAbandon_spec (u.collAbandon 0) 1
  refine ⟨(posted.trans north).trans south, _, southLog _ (northLog _ (raised ▸ List.mem_append_right _ List.mem_cons_self)), rfl, ?_, rfl⟩
  exact moved.tsc

/-- Completion changes no core. -/
theorem core_completeIfDone (s : State) (d : Nat) : s.completeIfDone.core d = s.core d := by
  unfold State.completeIfDone
  split
  · obtain ⟨north, -⟩ := collAbandon_spec ((s.setSched 4).post 0x0601 0 (srcHub s.logHub 0xFF) [s.sched.entry]) 0
    obtain ⟨south, -⟩ := collAbandon_spec (((s.setSched 4).post 0x0601 0 (srcHub s.logHub 0xFF) [s.sched.entry]).collAbandon 0) 1
    rw [south.core d List.not_mem_nil, north.core d List.not_mem_nil, core_post, core_setSched]
  · rfl

/-! The slots of cancelled streams. -/

/-- A core whose STE has no stream left in a slot (R237). -/
def CoreSt.freesSlots (k : CoreSt) : CoreSt := { k with ste := { k.ste with slots := [] } }

theorem freeCancelled_spec (s : State) : LeavesCores s s.freeCancelled s.imageCores ∧ s.freeCancelled.mem = s.mem ∧
    ∀ c ∈ s.imageCores, s.freeCancelled.core c = (s.core c).freesSlots := by
  have one : ∀ (u : State) c, LeavesCores u (u.updCore c CoreSt.freesSlots) [c] := fun u c => (onlyCore_upd u c _).leavesCores
  refine ⟨leavesCores_forEach one _ s, mem_forEach (f := fun u c => u.updCore c CoreSt.freesSlots) (fun _ _ => rfl) _ s, fun c hc => ?_⟩
  obtain ⟨t, -, same, last⟩ := core_forEach_of_mem one hc (imageCores_nodup s) s
  exact last.trans (by rw [core_updCore_same, same])

/-- The image at rest after a halt: its cancelled streams' slots free, and its state `st` (R138, R163). -/
def State.atRest (s : State) (st : Nat) : State :=
  ({ s.freeCancelled with sched := { s.sched with faulting := false } } : State).setSched st

theorem atRest_spec (s : State) (st : Nat) : (s.atRest st).sched = { s.sched with st := st, faulting := false } ∧
    (s.atRest st).mem = s.mem ∧ (∀ c ∈ s.imageCores, (s.atRest st).core c = (s.core c).freesSlots) ∧
    ∀ c, c ∉ s.imageCores → (s.atRest st).core c = s.core c := by
  obtain ⟨leaves, mem, own⟩ := freeCancelled_spec s
  unfold State.atRest
  refine ⟨sched_setSched _ st, ?_, fun c hc => ?_, fun c hc => ?_⟩
  · rw [State.setSched, mem_lifeRefresh]
    exact mem
  · rw [core_setSched]
    exact own c hc
  · rw [core_setSched]
    exact leaves.core c hc

/-! The halt of a faulted image. -/

theorem faultHalt_of_halted {s : State} (h : s.sched.halted = true) : s.faultHalt = s := by
  simp [State.faultHalt, h]

theorem faultHalt_of_faulting {s : State} (hf : s.sched.faulting = true) (h : s.sched.halted = false) : s.faultHalt = s.haltImage 5 := by
  simp [State.faultHalt, hf, h]

/-- The halt of a faulting image leaves its schedule marked, and nothing else of it changed (R163). -/
theorem faultHalt_leaves {s : State} (hf : s.sched.faulting = true) :
    LeavesCores { s with sched := { s.sched with halted := true } } s.faultHalt s.imageCores := by
  cases h : s.sched.halted with
  | true =>
    rw [faultHalt_of_halted h]
    exact ⟨rfl, rfl, by rw [← h], fun _ _ => rfl⟩
  | false =>
    rw [faultHalt_of_faulting hf h]
    exact (haltImage_spec s 5).1

theorem halts_of_busy {k : CoreSt} (h : k.seq.st = 1 ∨ k.seq.st = 2) (fcode n : Nat) :
    (k.halts fcode n).seq = { (k.endsSegment n).seq with st := 4, fcode := fcode, waitk := 0, cmd := none } := by
  rw [CoreSt.halts, if_pos h]

/-- A sequencer that is DONE (R149). -/
def CoreSt.done (k : CoreSt) : CoreSt := { k with seq := { k.seq with st := 3, waitk := 0, cmd := none } }

section
variable {c : Fin 136} {s : State}

theorem exec_sqEndComplete {w : Cmd} (hw : s.begun c 10 = some w) (hidle : idleMask (s.core c) 7 = true) : exec (.sqEndComplete c) s =
    .next ((s.endSegment c 1).updCore c CoreSt.done).completeIfDone := by
  show execSqEndComplete c s = _
  simp only [execSqEndComplete, hw, hidle]
  rfl

theorem exec_stall (hst : s.sched.st = 3) (hlost : s.clock.lost = false) (hseq : (s.core c).seq.st = 1 ∨ (s.core c).seq.st = 2)
    (hposted : (s.core c).seq.stallPosted = false) (hlate : s.sched.stallLimit * 400 ≤ s.tsc - (s.core c).seq.lastIssue) :
    exec (.stall c) s = .next ((s.updCore c (fun k => { k with seq := { k.seq with stallPosted := true } })).post 0x0603 1 (srcCore c 0)
      [dieOf c, logOf c, (s.core c).seq.waitk, (s.core c).seq.pc]) := by
  exact if_pos ⟨hst, hlost, hseq, hposted, hlate⟩

theorem lost_of_begun {c : Nat} {op : Nat} {w : Cmd} (h : s.begun c op = some w) : s.clock.lost = false := by
  unfold State.begun at h
  extract_lets q at h
  split at h
  · split at h
    next hx =>
      obtain ⟨-, -, -, hlost⟩ := hx
      exact hlost
    next => exact absurd h nofun
  · exact absurd h nofun

end

/-- Settles O17: the end of a sequencer and the completion of its image, the stall event, and the rest of a faulted image. -/
theorem endsOfAnImage : Obligations.EndsOfAnImage := by
  unfold Obligations.EndsOfAnImage
  refine ⟨fun c w s hw hidle hst => ?ended, fun c s hst hlost hseq hposted hlate => ?stall, fun s hst hf hlost hrest => ?faulted⟩
  case ended =>
    have leaves := (leavesCores_endSegment s c 1).trans (onlyCore_upd (s.endSegment c 1) c CoreSt.done).leavesCores
    have own : ((s.endSegment c 1).updCore c CoreSt.done).core c = ((s.core c).endsSegment s.sched.logn).done := by
      rw [core_updCore_same, core_endSegment]
    have others : ∀ d, d ≠ c.val → ((s.endSegment c 1).updCore c CoreSt.done).core d = s.core d :=
      fun d hd => leaves.core d (by simpa using hd)
    refine ⟨_, exec_sqEndComplete hw hidle, rfl, ?_⟩
    generalize (s.endSegment c 1).updCore c CoreSt.done = u at leaves own others ⊢
    simp only [core_completeIfDone, own]
    refine ⟨rfl, rfl, rfl, fun d hd => by rw [others d hd], fun hall => ?_, ?_⟩
    · have done : ∀ d ∈ u.imageCores, (u.core d).seq.st = 3 := by
        intro d hd
        rw [leaves.imageCores] at hd
        by_cases hdc : d = c.val
        · rw [hdc, own]
          rfl
        · rw [others d hdc, hall d hd hdc]
      obtain ⟨complete, e, he, code, tsc, args⟩ := completeIfDone_of_done (leaves.sched ▸ hst) (leaves.clock ▸ lost_of_begun hw) done
      exact ⟨by rw [complete.sched], e, he, code, tsc.trans leaves.tsc, by rw [args, leaves.sched]⟩
    · rintro ⟨d, hd, hdc, hnot⟩
      rw [completeIfDone_of_not_done (leaves.imageCores ▸ hd) (by rwa [others d hdc]), leaves.sched]
  case stall =>
    have locked : (s.updCore c (fun k => { k with seq := { k.seq with stallPosted := true } })).clock.lost = false := hlost
    refine ⟨_, exec_stall hst hlost hseq hposted hlate, (onlyCore_upd s c _).then (onlyCore_post _ c _ _ _ _), ?_, _, raised_post locked _ _ _ _,
      rfl, rfl⟩
    rw [core_post, core_updCore_same]
  case faulted =>
    have halted := faultHalt_leaves hf
    obtain ⟨sched, -, own, -⟩ := atRest_spec s.faultHalt 7
    have hexec : exec .imageFaulted s = .next (s.faultHalt.atRest 7) := by
      refine if_pos ⟨?_, ?_, hrest, by rw [halted.clock, hlost]⟩
      all_goals
        rw [halted.sched]
        assumption
    refine ⟨_, hexec, ?_, ?_, ?_, rfl, fun hnot d hd hbusy => ?_⟩
    · rw [sched]
    · rw [sched]
    · rw [sched, halted.sched]
    · have halts := (haltImage_spec s 5).2 d hd
      rw [own d (by rwa [halted.imageCores]), faultHalt_of_faulting hf hnot]
      simp only [CoreSt.freesSlots, halts.seq, halts_of_busy hbusy, and_self]

end Sys2Proof.Machine

/-! SUPPORT. StopSchedule (R134, R137), its end (R138), and PlaceEpochAdvance (R175). -/

namespace Sys2Proof.Machine

theorem leavesCores_taken (s : State) (idx sub : Nat) (b : List Byte) (cs : List Nat) : LeavesCores s (s.taken idx sub b) cs := by
  rw [taken_frame]
  exact ⟨rfl, rfl, rfl, fun _ _ => rfl⟩

/-- The number that the little-endian bytes of `v` spell (R3). -/
theorem ofLe_leBytes (n v : Nat) : ofLe (leBytes n v) = v % 256 ^ n := by
  induction n generalizing v with
  | zero => simp [leBytes, ofLe, Nat.mod_one]
  | succ n ih =>
    rw [leBytes, ofLe, ih, BitVec.toNat_ofNat, Nat.pow_succ' (m := 256)]
    exact Nat.mod_mul.symm

/-- The stop of a running image: its state, and what it leaves of each core (R137). -/
theorem stopImage_spec {s : State} (h : s.sched.st = 3) (fcode : Nat) :
    (s.stopImage fcode).sched = { s.sched with st := 5, halted := true } ∧
    (∀ c ∈ s.imageCores, ((s.core c).halts fcode s.sched.logn).Abandons ((s.stopImage fcode).core c)) ∧
    ∀ c, c ∉ s.imageCores → (s.stopImage fcode).core c = s.core c := by
  obtain ⟨leaves, own⟩ := haltImage_spec s fcode
  rw [State.stopImage, if_pos h, sched_setSched, leaves.sched]
  refine ⟨rfl, fun c hc => ?_, fun c hc => ?_⟩
  · rw [core_setSched]
    exact own c hc
  · rw [core_setSched]
    exact leaves.core c hc

section
variable {q : OdReq} {s : State}

/-- An accepted StopSchedule (R134). -/
theorem exec_stopSchedule {v : BitVec 8} (h : s.admits q 0x0603 (leBytes 1 v.toNat)) (hst : s.sched.st = 3) :
    exec (.stopSchedule q v) s = .next (((s.taken 0x0603 0 (leBytes 1 v.toNat)).stopImage 4).answer q 0) := by
  have obj : objOf 0x0603 0 = some ⟨0x0603, 0, 0, .u8, .act⟩ := by decide
  show Host.Outcome.next (s.request q 0x0603 0 (leBytes 1 v.toNat) actStop) = _
  exact congrArg Host.Outcome.next (request_taken actStop h (by decide) (by decide) obj rfl rfl rfl
    (decide_eq_false (fun hne => hne hst)))

theorem exec_placeEpochAdvance (e : BitVec 16) (s : State) : exec (.placeEpochAdvance q e) s =
    .next (s.request q 0x0621 0 (leBytes 2 e.toNat) (fun t => actEpoch t e.toNat)) := by
  have value : ofLe (leBytes 2 e.toNat) = e.toNat := by
    rw [ofLe_leBytes]
    exact Nat.mod_eq_of_lt e.isLt
  show Host.Outcome.next (s.request q 0x0621 0 (leBytes 2 e.toNat) (fun t => actEpoch t (ofLe (leBytes 2 e.toNat)))) = _
  rw [value]

/-- PlaceEpochAdvance to the next epoch (R175). -/
theorem request_epoch_next {e : BitVec 16} (h : s.admits q 0x0621 (leBytes 2 e.toNat)) (hnext : e.toNat = (s.sched.placeEpoch + 1) % 65536)
    (hst : s.sched.st ≠ 1) : s.request q 0x0621 0 (leBytes 2 e.toNat) (fun t => actEpoch t e.toNat) =
      (actEpoch (s.taken 0x0621 0 (leBytes 2 e.toNat)) e.toNat).eff.answer q 0 := by
  have obj : objOf 0x0621 0 = some ⟨0x0621, 0, 0, .u16, .act⟩ := by decide
  exact request_taken (fun t => actEpoch t e.toNat) h (by decide) (by decide) obj rfl rfl
    (decide_eq_false (fun hne => hne hnext)) (decide_eq_false hst)

/-- PlaceEpochAdvance to any other epoch is INVALID (R175). -/
theorem request_epoch_other {e : BitVec 16} (h : s.admits q 0x0621 (leBytes 2 e.toNat)) (hother : e.toNat ≠ (s.sched.placeEpoch + 1) % 65536) :
    s.request q 0x0621 0 (leBytes 2 e.toNat) (fun t => actEpoch t e.toNat) = (s.noteAct .act 0x0621 0 3).answer q 3 := by
  have obj : objOf 0x0621 0 = some ⟨0x0621, 0, 0, .u16, .act⟩ := by decide
  have invalid : (actEpoch (s.noteAct .act 0x0621 0 0) e.toNat).inv = true := decide_eq_true hother
  have last : (s.noteAct .act 0x0621 0 0).noteAct .act 0x0621 0 3 = s.noteAct .act 0x0621 0 3 := by
    simp [State.noteAct]
  rw [request_cases (fun t => actEpoch t e.toNat) h (by decide) (by decide) obj (by decide) rfl]
  simp only [invalid, if_true]
  exact congrArg (fun t => State.answer t q 3) last

end

/-- Settles O26: the stop and its rest by what they leave of each core, the epoch by its request. -/
theorem stopsAndEpochs : Obligations.StopsAndEpochs := by
  unfold Obligations.StopsAndEpochs
  refine ⟨⟨fun q v s h hst => ?stop, fun s hst hrest hlost => ?rest⟩, fun q e s h => ⟨fun hnext hst => ?next, fun hother => ?other⟩⟩
  case stop =>
    have taken := leavesCores_taken s 0x0603 0 (leBytes 1 v.toNat) []
    have core : ∀ c, (s.taken 0x0603 0 (leBytes 1 v.toNat)).core c = s.core c := fun c => taken.core c List.not_mem_nil
    obtain ⟨sched, own, others⟩ := stopImage_spec (taken.sched ▸ hst) 4
    refine ⟨_, exec_stopSchedule h hst, _, rfl, by rw [sched, taken.sched], fun c hc => ?_, fun c hc => ?_⟩
    · have stopped := own c (taken.imageCores ▸ hc)
      refine ⟨stopped.arrQ, stopped.drains, stopped.vxeQ, stopped.pipes, stopped.steQ, fun hbusy => ?_⟩
      rw [stopped.seq, core, halts_of_busy hbusy]
      exact ⟨rfl, rfl, rfl, rfl⟩
    · rw [others c (taken.imageCores ▸ hc), core]
  case rest =>
    obtain ⟨sched, mem, own, others⟩ := atRest_spec s 6
    exact ⟨s.atRest 6, if_pos ⟨hst, hrest, hlost⟩, sched, mem, own, others⟩
  case next =>
    refine ⟨_, (exec_placeEpochAdvance e s).trans (congrArg Host.Outcome.next (request_epoch_next h hnext hst)), _, rfl, ?_⟩
    simp only [actEpoch, sched_taken]
  case other => exact ⟨_, exec_placeEpochAdvance e s, request_epoch_other h hother⟩

end Sys2Proof.Machine

/-! SUPPORT. Object writes, the control-core window and the management port leave the waiting commands as they are (R412, R415, R421). -/

namespace Sys2Proof.Machine

/-! The effect of a write, and what it leaves when it is refused. -/

/-- Neither the effect of a write nor its refusal changes the commands that wait. -/
def Act.Keeps (a : Act) (s : State) : Prop := a.eff.pending = s.pending ∧ ∀ t ∈ a.rej, t.pending = s.pending

@[simp] theorem keeps_mk (s : State) (inv bad : Bool) (rej : Option State) (eff : State) :
    Act.Keeps { inv := inv, bad := bad, rej := rej, eff := eff } s ↔ eff.pending = s.pending ∧ ∀ t ∈ rej, t.pending = s.pending := Iff.rfl

@[simp] theorem keeps_huskAct (s : State) (bad : Bool) (code : Nat) (eff : State) :
    (s.huskAct bad code eff).Keeps s ↔ eff.pending = s.pending := by
  simp [State.huskAct]

section
variable (s : State) (cpu : Option (Fin 16)) (lo sub : Nat) (b : List Byte)

@[simp] theorem keeps_actFlagClear (v : Word) (coset : List (FlagUnit × BitVec 4)) : (actFlagClear s v coset).Keeps s := by
  simp [actFlagClear]

@[simp] theorem keeps_actFwSlotData (ok : Bool) : (actFwSlotData s b ok).Keeps s := by
  simp [actFwSlotData, apply_ite State.pending]

@[simp] theorem keeps_actPortControl (p v : Nat) : (actPortControl s p v).Keeps s := by
  unfold actPortControl
  (repeat' split) <;> simp [apply_ite State.pending]

@[simp] theorem keeps_actOptPrepare (n : Nat) : (actOptPrepare s n).Keeps s := by
  refine (keeps_mk s _ _ _ _).mpr ⟨by simp, fun t ht => ?_⟩
  split at ht
  · obtain rfl := Option.some.inj ht
    rfl
  · exact absurd ht nofun

@[simp] theorem keeps_wrClocks : (wrClocks s cpu lo sub b).Keeps s := by
  unfold wrClocks
  split <;> simp [actClockReselect, actClockOutSel, actRegionClkEn, actHubClkEn, actCtlCoreEnable, apply_ite State.pending]

@[simp] theorem keeps_wrMemory : (wrMemory s lo b).Keeps s := by
  unfold wrMemory
  split <;> simp [actBandSet, apply_ite State.pending]

@[simp] theorem keeps_wrSched : (wrSched s lo b).Keeps s := by
  unfold wrSched
  split <;> simp [actLoad, actStart, actStop, actEpoch]

@[simp] theorem keeps_wrFlags : (wrFlags s lo b).Keeps s := by
  unfold wrFlags
  split <;> simp

@[simp] theorem keeps_wrLinks : (wrLinks s lo sub b).Keeps s := by
  unfold wrLinks
  split <;> simp [actExpectedPeer, apply_ite State.pending]

@[simp] theorem keeps_wrFabric : (wrFabric s lo b).Keeps s := by
  unfold wrFabric
  split <;> simp [actSliceSet, actSliceStop]

@[simp] theorem keeps_wrHusk : (wrHusk s lo b).Keeps s := by
  unfold wrHusk
  split <;> simp [actHuskMapLoad, actHuskInit, actHuskOpen, actHuskFold, actHuskSeal, actHuskRestore, actHuskRebuild, actHuskDeclareLost,
    actHuskResume, apply_ite State.pending]

@[simp] theorem keeps_wrTrain : (wrTrain s lo b).Keeps s := by
  unfold wrTrain
  split <;> simp [actOptCommit, actTrainStepSet]

@[simp] theorem keeps_wrSecurity : (wrSecurity s lo sub b).Keeps s := by
  unfold wrSecurity
  split <;> simp [actOwnerCommit, actJobKey, actJobRelease, actJobImage, actAttestNonce, actSvnRaise, actDebugUnlock, actDebugLock,
    apply_ite State.pending]

@[simp] theorem keeps_wrMgmt : (wrMgmt s lo b).Keeps s := by
  unfold wrMgmt
  split <;> simp [actEventPost]

@[simp] theorem keeps_wrBox : (wrBox s lo b).Keeps s := by
  unfold wrBox
  split <;> simp [actBlackBoxSelect, actBlackBoxWrite, actFwSlotErase, actFwActivate, apply_ite State.pending]

@[simp] theorem keeps_objAct (idx : Nat) : (s.objAct cpu idx sub b).Keeps s := by
  have reset : (if idx % 256 = 2 then actDeviceReset s (ofLe b) else if idx % 256 = 3 then actConfigSave s else actConfigErase s).Keeps s := by
    split
    · simp [actDeviceReset]
    · split <;> simp [actConfigSave, actConfigErase]
  unfold State.objAct
  split
  · exact reset
  all_goals simp

end

/-! A request in order (R412). -/

theorem odApply_pending {act : State → Act} (h : ∀ t, (act t).Keeps t) (s : State) (o : Obj) (idx sub : Nat) (b : List Byte) :
    (s.odApply o idx sub b act).1.pending = s.pending := by
  have noted : (s.noteAct o.acc idx sub 0).pending = s.pending := by simp
  have refused : ((act (s.noteAct o.acc idx sub 0)).rej.getD (s.noteAct o.acc idx sub 0)).pending = s.pending := by
    obtain ⟨-, rejected⟩ := h (s.noteAct o.acc idx sub 0)
    cases hr : (act (s.noteAct o.acc idx sub 0)).rej with
    | none => exact noted
    | some t => exact (rejected t hr).trans noted
  have done : ∀ t : State, t.pending = s.pending → (act t).eff.pending = s.pending := fun t ht => (h t).1.trans ht
  simp only [State.odApply]
  (repeat' split)
  · simpa using refused
  · simpa using refused
  · exact done _ (by simp)
  · exact done _ noted

theorem odRequest_pending {act : State → Act} (h : ∀ t, (act t).Keeps t) (s : State) (q : OdReq) (idx sub : Nat) (b : List Byte) :
    (s.odRequest q idx sub b act).1.pending = s.pending := by
  unfold State.odRequest
  (repeat' split) <;> simp [odApply_pending h]

theorem request_pending {act : State → Act} (h : ∀ t, (act t).Keeps t) (s : State) (q : OdReq) (idx sub : Nat) (b : List Byte) :
    (s.request q idx sub b act).pending = s.pending := by
  simp only [State.request]
  (repeat' split) <;> simp [odRequest_pending h]

/-- A write of an object leaves the commands that wait as they are. -/
@[simp] theorem put_pending (s : State) (q : OdReq) (idx sub : Nat) (b : List Byte) : (s.put q idx sub b).pending = s.pending :=
  request_pending (fun t => keeps_objAct t q.cpu sub b idx) s q idx sub b

@[simp] theorem odWrite_pending (s : State) (q : OdReq) (idx sub : Nat) (b : List Byte) : (s.odWrite q idx sub b).1.pending = s.pending :=
  odRequest_pending (fun t => keeps_objAct t q.cpu sub b idx) s q idx sub b

/-! The control-core window. -/

@[simp] theorem windowCommit_pending (s : State) (c : Fin 16) (n : Nat) : (s.windowCommit c n).pending = s.pending := by
  simp only [State.windowCommit]
  (repeat' split) <;> simp

@[simp] theorem windowPut_pending (s : State) (c : Fin 16) (rel width : Nat) (v : BitVec 64) :
    (s.windowPut c rel width v).pending = s.pending := by
  simp only [State.windowPut]
  (repeat' split) <;> simp

/-! The management port (R417 to R426). -/

@[simp] theorem serveBody_pending (s : State) (q : OdReq) (write : Bool) (b : List Byte) : (s.serveBody q write b).1.pending = s.pending := by
  have put : (s.servePut q b).1.pending = s.pending := by
    refine odRequest_pending (fun t => ?_) s q _ _ _
    exact keeps_objAct t q.cpu _ _ _
  unfold State.serveBody
  split
  · exact put
  · rfl

@[simp] theorem sessionReq_pending (s : State) (x : Session) (d : Datagram) (write : Bool) (b : List Byte) :
    (s.sessionReq x d write b).pending = s.pending := by
  simp only [State.sessionReq]
  (repeat' split) <;> simp

/-- A message of an open session leaves the commands that wait as they are when what it asks for does. -/
theorem sessionMsg_pending {act : State → Session → List Byte → State} (h : ∀ t x b, (act t x b).pending = t.pending) (s : State)
    (d : Datagram) (typ : Nat) : (s.sessionMsg d typ act).pending = s.pending := by
  simp only [State.sessionMsg]
  (repeat' split) <;> simp [h]

@[simp] theorem serveObj_pending (s : State) (p : Packet) : (s.serveObj p).pending = s.pending := by
  simp only [State.serveObj]
  (repeat' split) <;> simp

/-- What a datagram's message is put together from leaves the commands that wait as they are (R420). -/
theorem gather_pending {s t : State} {d : Datagram} {b : Option (List Byte)} (h : s.gather d = (t, b)) : t.pending = s.pending := by
  have gathered := (State.gather_keeps s d).1
  rwa [h] at gathered

end Sys2Proof.Machine

/-! SUPPORT. Every command answers a next state, with the waiting commands as they were: the commands of each chapter (log 1). -/

namespace Sys2Proof.Machine

/-- The outcome is a next state, with the commands of `s` still waiting. -/
def Completes (s : State) (o : Host.Outcome State Fault Refusal) : Prop := ∃ t, o = .next t ∧ t.pending = s.pending

@[simp] theorem completes_next (s t : State) : Completes s (.next t) ↔ t.pending = s.pending := by
  simp [Completes]

/-! The boot ROM (R468). -/

@[simp] theorem restoreRecords_pending (s : State) : s.restoreRecords.pending = s.pending := by
  have refused : ∀ t : State, t.cfgRefused.pending = t.pending := fun t => by simp [State.cfgRefused]
  unfold State.restoreRecords
  extract_lets mgmt s1
  have configured : s1.pending = s.pending := by
    unfold s1
    split
    · rfl
    · exact refused s
  clear_value s1
  split
  · simpa using configured
  · exact (refused s1).trans configured

@[simp] theorem romChoose_pending (s : State) : s.romChoose.pending = s.pending := by
  unfold State.romChoose
  extract_lets s1 n box s2 slot tgt s3
  have scanned : s1.pending = s.pending := by simp [s1]
  clear_value s1 slot tgt
  split
  · simpa [s3, s2] using scanned
  · simpa [s3, s2] using scanned

/-! A packet whose service leaves the queue as it is. -/

theorem fmAccept_pending (s : State) (p : Packet) {act : State → State} (h : ∀ t, (act t).pending = t.pending) :
    (s.fmAccept p act).pending = s.pending := by
  unfold State.fmAccept
  (repeat' split) <;> simp [h]

theorem epochThen_pending (s : State) (p : Packet) {act : State → State} (h : ∀ t, (act t).pending = t.pending) :
    (s.epochThen p act).pending = s.pending := by
  simp only [State.epochThen]
  (repeat' split) <;> simp [h]

theorem pktArrive_pending (s : State) (port : Nat) (p : Packet) (types : List Nat) {serve : Packet → State → State}
    (h : ∀ q t, (serve q t).pending = t.pending) : (s.pktArrive port p types serve).pending = s.pending := by
  simp only [State.pktArrive]
  split
  · rfl
  · split
    · split
      next t ht => simpa using (State.torusCheck_keeps ht).1
      next => exact h p s
    · (repeat' split) <;> simp [h]

theorem pktServe_pending (s : State) (port : Nat) (p : Packet) (types : List Nat) {serve : Packet → State → State}
    (h : ∀ q t, (serve q t).pending = t.pending) : (s.pktServe port p types serve).pending = s.pending := by
  refine pktArrive_pending s port p types fun q t => ?_
  dsimp only
  split
  · rw [epochThen_pending _ q (h q)]
    simp
  · simp

/-! Commands whose effect runs inside a shared operation, which keeps the queue when the effect does. -/

section
variable (s : State)

@[simp] theorem completes_execSqWait (c : Fin 136) (w : Cmd) : Completes s (execSqWait c w s) := by
  refine (completes_next s _).mpr (State.issueSq_keeps s c w 2 false false false _ fun t => ?_).1
  split <;> simp

@[simp] theorem completes_execAttest (p : Fin 40) (m : LinkMsg) : Completes s (execAttest p m s) := by
  refine (completes_next s _).mpr (State.waltzMsg_keeps s p 3 3 9216 m _ fun t => ?_).1
  dsimp only
  (repeat' split) <;> simp

@[simp] theorem completes_execKemek (p : Fin 40) (m : LinkMsg) : Completes s (execKemek p m s) := by
  refine (completes_next s _).mpr (State.waltzMsg_keeps s p 4 4 1184 m _ fun t => ?_).1
  dsimp only
  split <;> simp

@[simp] theorem completes_execKemct (p : Fin 40) (m : LinkMsg) : Completes s (execKemct p m s) := by
  refine (completes_next s _).mpr (State.waltzMsg_keeps s p 5 4 1088 m _ fun t => ?_).1
  dsimp only
  (repeat' split) <;> simp

@[simp] theorem completes_execCaps (p : Fin 40) (m : LinkMsg) : Completes s (execCaps p m s) := by
  refine (completes_next s _).mpr (State.waltzMsg_keeps s p 6 5 3584 m _ fun t => ?_).1
  dsimp only
  (repeat' split) <;> simp

@[simp] theorem completes_execPktColl (p : Fin 40) (pk : Packet) : Completes s (execPktColl p pk s) := by
  refine (completes_next s _).mpr (State.pktArrive_keeps s p pk [0x31] _ fun q t => ?_).1
  split <;> simp

@[simp] theorem completes_execPktReel (p : Fin 40) (pk : Packet) : Completes s (execPktReel p pk s) := by
  refine (completes_next s _).mpr (State.pktArrive_keeps s p pk [0x30] _ fun q t => ?_).1
  dsimp only
  split <;> simp

/-- An object request of another module may raise fuses (R426), so of its service only the queue is the same. -/
@[simp] theorem completes_execPktObjreq (p : Fin 40) (pk : Packet) : Completes s (execPktObjreq p pk s) :=
  (completes_next s _).mpr (pktServe_pending s p pk [0x04] fun q t => fmAccept_pending t q (fun u => serveObj_pending u q))

@[simp] theorem completes_execControlWindowWrite (cpu : Fin 16) (off : BitVec 40) (width : Nat) (v : BitVec 64) :
    Completes s (execControlWindowWrite cpu off width v s) := by
  unfold execControlWindowWrite
  split
  · simp
  · split
    next t ht => simpa using (State.windowStore_keeps ht).1
    next => simp

@[simp] theorem completes_execToaHello (d : Datagram) : Completes s (execToaHello d s) := by
  unfold execToaHello
  split
  · simp
  · split
    · simp
    · split
      next t ht => simpa using gather_pending ht
      next t b ht => simpa using gather_pending ht

@[simp] theorem completes_execToaAuth (d : Datagram) : Completes s (execToaAuth d s) := by
  unfold execToaAuth
  split
  · simp
  · split
    · simp
    · split
      next t ht => simpa using gather_pending ht
      next t b ht => split <;> simpa using gather_pending ht

end

end Sys2Proof.Machine

namespace Sys2Proof.Machine

/-! The commands, chapter by chapter: each unfolds to next states of operations that leave the queue, under its own conditions. -/

/-- The commands of the matrix engine. -/
theorem completes_matrix (s : State) :
    (∀ c w, Completes s (execMxOpen c w s)) ∧ (∀ c, Completes s (execMxOpenHeldStart c s)) ∧ (∀ c w, Completes s (execMxMac c w s)) ∧
    (∀ c, Completes s (execMxeGroupResult c s)) ∧ (∀ c w, Completes s (execMxClose c w s)) ∧ (∀ c w, Completes s (execMxMerge c w s)) ∧
    (∀ c, Completes s (execMxDrainResume c s)) ∧ (∀ c, Completes s (execMxDrainDone c s)) := by
  simp only [execMxOpen, execMxOpenHeldStart, execMxMac, execMxeGroupResult, execMxClose, execMxMerge, execMxDrainResume, execMxDrainDone]
  and_intros
  all_goals
    intros
    (repeat' split) <;> simp

/-- The commands of the vector engine. -/
theorem completes_vector (s : State) :
    (∀ c w, Completes s (execVxSetvl c w s)) ∧ (∀ c w ecc, Completes s (execVxLd c w ecc s)) ∧ (∀ c w, Completes s (execVxSt c w s)) ∧
    (∀ c w, Completes s (execVxStt c w s)) ∧ (∀ c w, Completes s (execVxHqpop c w s)) ∧ (∀ c, Completes s (execHqpopEntryArrive c s)) ∧
    (∀ c w, Completes s (execVxAdd c w s)) ∧ (∀ c w, Completes s (execVxSub c w s)) ∧ (∀ c w, Completes s (execVxMul c w s)) ∧
    (∀ c w, Completes s (execVxMax c w s)) ∧ (∀ c w, Completes s (execVxMin c w s)) ∧ (∀ c w, Completes s (execVxFma c w s)) ∧
    (∀ c w, Completes s (execVxCvt c w s)) ∧ (∀ c w, Completes s (execVxQnt c w s)) ∧ (∀ c w, Completes s (execVxDqnt c w s)) ∧
    (∀ c w, Completes s (execVxRsum c w s)) ∧ (∀ c w, Completes s (execVxRmax c w s)) ∧ (∀ c w, Completes s (execVxFn c w s)) ∧
    (∀ c w, Completes s (execVxWelf c w s)) ∧ (∀ c w, Completes s (execVxWmrg c w s)) ∧ (∀ c w, Completes s (execVxWred c w s)) ∧
    (∀ c w, Completes s (execVxWfin c w s)) := by
  simp only [execVxSetvl, execVxLd, execVxSt, execVxStt, execVxHqpop, execHqpopEntryArrive, execVxAdd, execVxSub, execVxMul, execVxMax,
    execVxMin, execVxFma, execVxCvt, execVxQnt, execVxDqnt, execVxRsum, execVxRmax, execVxFn, execVxWelf, execVxWmrg, execVxWred,
    execVxWfin]
  and_intros
  all_goals
    intros
    simp

/-- The commands of the sequencer. -/
theorem completes_sequencer (s : State) :
    (∀ c w, Completes s (execSqSegment c w s)) ∧ (∀ c, Completes s (execSegmentBoundary c s)) ∧ (∀ c w, Completes s (execSqWait c w s)) ∧
    (∀ c, Completes s (execSqWaitRelease c s)) ∧ (∀ c w, Completes s (execSqWaitg c w s)) ∧ (∀ c, Completes s (execWaitgPoll c s)) ∧
    (∀ c w, Completes s (execSqSignal c w s)) ∧ (∀ c, Completes s (execSignalGateAdd c s)) ∧ (∀ c w, Completes s (execSqBar c w s)) ∧
    (∀ b, Completes s (execBarrierArrival b s)) ∧ (∀ c w, Completes s (execSqFlagrd c w s)) ∧ (∀ c, Completes s (execFlagrdRead c s)) ∧
    (∀ c w, Completes s (execSqFlagclr c w s)) ∧ (∀ c coset, Completes s (execFlagclrClear c coset s)) ∧
    (∀ c w, Completes s (execSqLoop c w s)) ∧ (∀ c w, Completes s (execSqEndloop c w s)) ∧ (∀ c w, Completes s (execSqEnd c w s)) ∧
    (∀ c, Completes s (execSqEndComplete c s)) ∧ (∀ c, Completes s (execStall c s)) ∧ Completes s (execImageFaulted s) := by
  simp only [execSqSegment, execSegmentBoundary, execSqWaitRelease, execSqWaitg, execWaitgPoll, execSqSignal, execSignalGateAdd,
    execSqBar, execBarrierArrival, execSqFlagrd, execFlagrdRead, execSqFlagclr, execFlagclrClear, execSqLoop, execSqEndloop, execSqEnd,
    execSqEndComplete, execStall, execImageFaulted]
  and_intros
  all_goals
    intros
    (repeat' split) <;> simp

/-- The commands of the stream engine. -/
theorem completes_stream (s : State) :
    (∀ c w, Completes s (execStIssue c w s)) ∧ (∀ c, Completes s (execStreamSlotTake c s)) ∧ (∀ c, Completes s (execSteGrant c s)) ∧
    (∀ c k, Completes s (execSteResponse c k s)) ∧ (∀ c slot, Completes s (execStreamRetire c slot s)) ∧
    (∀ c, Completes s (execGateSignalSend c s)) ∧ (∀ p, Completes s (execReelPacketLand p s)) ∧
    (∀ p, Completes s (execReelHold p s)) := by
  simp only [execStIssue, execStreamSlotTake, execSteGrant, execSteResponse, execStreamRetire, execGateSignalSend, execReelPacketLand,
    execReelHold]
  and_intros
  all_goals
    intros
    (repeat' split) <;> simp

/-- The commands of the schedule image. -/
theorem completes_schedule (s : State) :
    (∀ q off, Completes s (execLoadSchedule q off s)) ∧ Completes s (execLoadComplete s) ∧
    (∀ q e, Completes s (execStartSchedule q e s)) ∧ (∀ q v, Completes s (execStopSchedule q v s)) ∧ Completes s (execStopComplete s) ∧
    (∀ q e, Completes s (execPlaceEpochAdvance q e s)) := by
  simp only [execLoadSchedule, execLoadComplete, execStartSchedule, execStopSchedule, execStopComplete, execPlaceEpochAdvance]
  and_intros
  all_goals
    intros
    (repeat' split) <;> simp

/-- The commands of the function tables, flags and control windows. -/
theorem completes_window (s : State) :
    (∀ c v, Completes s (execFnLoad c v s)) ∧ (∀ c, Completes s (execFnCheckDone c s)) ∧
    (∀ u v coset, Completes s (execNumflagsWindowClear u v coset s)) ∧ (∀ q v coset, Completes s (execFlagClear q v coset s)) ∧
    (∀ c v, Completes s (execMxeCfgStore c v s)) ∧ (∀ c v, Completes s (execCoreClkenStore c v s)) ∧
    (∀ cpu off width v, Completes s (execControlWindowWrite cpu off width v s)) ∧
    (∀ cpu a off width v ecc err, Completes s (execControlCoreAccess cpu a off width v ecc err s)) := by
  simp only [execFnLoad, execFnCheckDone, execNumflagsWindowClear, execFlagClear, execMxeCfgStore, execCoreClkenStore,
    execControlCoreAccess]
  and_intros
  all_goals
    intros
    (repeat' split) <;> simp [request_pending]

/-- The commands of the device memory and scratchpads. -/
theorem completes_memory (s : State) :
    (∀ q v, Completes s (execHbmBandSet q v s)) ∧ (∀ b, Completes s (execBandChangeDone b s)) ∧ (∀ r, Completes s (execMscClean r s)) ∧
    (∀ r, Completes s (execMscFlush r s)) ∧ (∀ r, Completes s (execMscDrop r s)) ∧ (∀ r, Completes s (execMscUnkeep r s)) ∧
    (∀ r, Completes s (execMscOpDone r s)) ∧ (∀ r ecc, Completes s (execMscRequest r ecc s)) ∧
    (∀ r pc bank, Completes s (execHbmAdmit r pc bank s)) ∧ (∀ r k err, Completes s (execHbmRequestComplete r k err s)) ∧
    (∀ r, Completes s (execHbmRefresh r s)) ∧ (∀ r err, Completes s (execHbmScrub r err s)) ∧
    (∀ c word ecc, Completes s (execSpadScrub c word ecc s)) ∧ (∀ r mdeg, Completes s (execStackTempSample r mdeg s)) := by
  simp only [execHbmBandSet, execBandChangeDone, execMscClean, execMscFlush, execMscDrop, execMscUnkeep, execMscOpDone, execMscRequest,
    execHbmAdmit, execHbmRequestComplete, execHbmRefresh, execHbmScrub, execSpadScrub, execStackTempSample]
  and_intros
  all_goals
    intros
    (repeat' split) <;> simp

/-- The commands of the die-to-die ports and links. -/
theorem completes_link (s : State) :
    (∀ a, Completes s (execD2dTrained a s)) ∧ (∀ a flit, Completes s (execD2dFlitReceive a flit s)) ∧
    (∀ a seq, Completes s (execD2dReplayRequest a seq s)) ∧ (∀ a, Completes s (execD2dReplayTimeout a s)) ∧
    (∀ p, Completes s (execFrameTransmit p s)) ∧ (∀ p f obs, Completes s (execFrameReceive p f obs s)) ∧
    (∀ p, Completes s (execKeepaliveSend p s)) ∧ (∀ p m, Completes s (execKeepalive p m s)) ∧
    (∀ p, Completes s (execKeepaliveTimeout p s)) ∧ (∀ p lanes, Completes s (execLaneSignalLoss p lanes s)) ∧
    (∀ p, Completes s (execWaltzRetry p s)) ∧ (∀ p rates failed delay, Completes s (execLaneTrainingDone p rates failed delay s)) ∧
    (∀ p, Completes s (execWaltzStepTimeout p s)) := by
  simp only [execD2dTrained, execD2dFlitReceive, execD2dReplayRequest, execD2dReplayTimeout, execFrameTransmit, execFrameReceive,
    execKeepaliveSend, execKeepalive, execKeepaliveTimeout, execLaneSignalLoss, execWaltzRetry, execLaneTrainingDone,
    execWaltzStepTimeout]
  and_intros
  all_goals
    intros
    (repeat' split) <;> simp

/-- The commands of the handshake of a link and the control of a port. -/
theorem completes_handshake (s : State) :
    (∀ p m, Completes s (execHello p m s)) ∧ (∀ p m, Completes s (execAttest p m s)) ∧ (∀ p m, Completes s (execKemek p m s)) ∧
    (∀ p m, Completes s (execKemct p m s)) ∧ (∀ p m, Completes s (execCaps p m s)) ∧ (∀ p m, Completes s (execVerdict p m s)) ∧
    (∀ p m, Completes s (execLinkmsgReserved p m s)) ∧ (∀ q p, Completes s (execPortEnable q p s)) ∧
    (∀ q p, Completes s (execPortDisable q p s)) ∧ (∀ q p, Completes s (execPortRetrain q p s)) ∧
    (∀ q p v, Completes s (execExpectedPeerWrite q p v s)) := by
  simp only [execHello, execVerdict, execLinkmsgReserved, execPortEnable, execPortDisable, execPortRetrain, execExpectedPeerWrite]
  and_intros
  all_goals
    intros
    (repeat' split) <;> simp

/-- The commands of the fabric. -/
theorem completes_packet (s : State) :
    (∀ p pk, Completes s (execPktStop p pk s)) ∧ (∀ p pk, Completes s (execFenceLoss p pk s)) ∧
    (∀ p pk, Completes s (execFenceSeal p pk s)) ∧ (∀ p pk, Completes s (execRecoverResume p pk s)) ∧
    (∀ p pk, Completes s (execPktObjreq p pk s)) ∧ (∀ p pk, Completes s (execPktObjrsp p pk s)) ∧
    (∀ p pk, Completes s (execPktRead p pk s)) ∧ (∀ p pk, Completes s (execPktWrite p pk s)) ∧ (∀ p pk, Completes s (execPktAdd p pk s)) ∧
    (∀ p pk, Completes s (execPktData p pk s)) ∧ (∀ p pk, Completes s (execPktAck p pk s)) ∧ (∀ p pk, Completes s (execPktErr p pk s)) ∧
    (∀ p pk, Completes s (execPktReel p pk s)) ∧ (∀ p pk, Completes s (execPktColl p pk s)) ∧
    (∀ stream, Completes s (execPacketCloseTimer stream s)) ∧ (∀ q v, Completes s (execSliceSet q v s)) ∧
    (∀ q v, Completes s (execSliceStop q v s)) := by
  simp only [execPktStop, execFenceLoss, execFenceSeal, execRecoverResume, execPktObjrsp, execPktRead, execPktWrite, execPktAdd,
    execPktData, execPktAck, execPktErr, execPacketCloseTimer, execSliceSet, execSliceStop]
  and_intros
  all_goals
    intros
    (repeat' split) <;> simp

/-- The commands of the collectives and the training support. -/
theorem completes_training (s : State) :
    (∀ h v, Completes s (execCollLoad h v s)) ∧ (∀ h, Completes s (execCollStartGate h s)) ∧
    (∀ h, Completes s (execCollDescriptorDone h s)) ∧ (∀ q n, Completes s (execOptPrepare q n s)) ∧ Completes s (execOptPrepareDone s) ∧
    (∀ q n, Completes s (execOptCommit q n s)) ∧ (∀ q n, Completes s (execTrainStepSet q n s)) := by
  simp only [execCollLoad, execCollStartGate, execCollDescriptorDone, execOptPrepare, execOptPrepareDone, execOptCommit, execTrainStepSet]
  and_intros
  all_goals
    intros
    (repeat' split) <;> simp

/-- The commands of the Husk. -/
theorem completes_husk (s : State) :
    (∀ q v, Completes s (execHuskMapLoad q v s)) ∧ Completes s (execHuskMapLoadDone s) ∧ (∀ q g, Completes s (execHuskInit q g s)) ∧
    Completes s (execHuskInitDone s) ∧ (∀ q g, Completes s (execHuskOpen q g s)) ∧ Completes s (execHuskOpenDone s) ∧
    (∀ q g, Completes s (execHuskFold q g s)) ∧ (∀ h, Completes s (execHuskTrailerPoll h s)) ∧ Completes s (execHuskFoldDone s) ∧
    (∀ q g, Completes s (execHuskSeal q g s)) ∧ Completes s (execHuskApplyDone s) ∧ Completes s (execRecoverySettleExpire s) ∧
    (∀ q v, Completes s (execHuskRestore q v s)) ∧ Completes s (execHuskRestoreDone s) ∧
    (∀ q off, Completes s (execHuskRebuild q off s)) ∧ Completes s (execHuskRebuildDone s) ∧
    (∀ q v, Completes s (execHuskDeclareLost q v s)) ∧ (∀ q v, Completes s (execHuskResume q v s)) ∧ Completes s (execHuskFlushDone s) ∧
    (∀ q b, Completes s (execActionLogAppend q b s)) := by
  simp only [execHuskMapLoad, execHuskMapLoadDone, execHuskInit, execHuskInitDone, execHuskOpen, execHuskOpenDone, execHuskFold,
    execHuskTrailerPoll, execHuskFoldDone, execHuskSeal, execHuskApplyDone, execRecoverySettleExpire, execHuskRestore,
    execHuskRestoreDone, execHuskRebuild, execHuskRebuildDone, execHuskDeclareLost, execHuskResume, execHuskFlushDone,
    execActionLogAppend]
  and_intros
  all_goals
    intros
    (repeat' split) <;> simp

/-- The commands of the clocks. -/
theorem completes_clock (s : State) :
    Completes s (execIoscTrim s) ∧ Completes s (execPllFirstLock s) ∧ Completes s (execXtalQualify s) ∧
    Completes s (execRackrefQualify s) ∧
    (∀ src ref count detect xtalIn3 ioscIn3, Completes s (execClockWindow src ref count detect xtalIn3 ioscIn3 s)) ∧
    (∀ q v, Completes s (execClockReselect q v s)) ∧ Completes s (execRefEdgesMissing s) ∧ Completes s (execPllRelock s) ∧
    Completes s (execPllUnlock s) ∧ (∀ us, Completes s (execPllLockReturn us s)) ∧ (∀ d, Completes s (execLevelRequest d s)) ∧
    (∀ d, Completes s (execRailSetpointReached d s)) ∧ (∀ q r v, Completes s (execRegionClkenWrite q r v s)) ∧
    (∀ q h v, Completes s (execHubClkenWrite q h v s)) ∧ (∀ q h v, Completes s (execCtlCoreEnableWrite q h v s)) ∧
    (∀ q v, Completes s (execClockOutSelWrite q v s)) := by
  simp only [execIoscTrim, execPllFirstLock, execXtalQualify, execRackrefQualify, execClockWindow, execClockReselect,
    execRefEdgesMissing, execPllRelock, execPllUnlock, execPllLockReturn, execLevelRequest, execRailSetpointReached,
    execRegionClkenWrite, execHubClkenWrite, execCtlCoreEnableWrite, execClockOutSelWrite]
  and_intros
  all_goals
    intros
    (repeat' split) <;> simp

/-- The commands of the power and temperature. -/
theorem completes_power (s : State) :
    (∀ mv, Completes s (execVinSample mv s)) ∧ Completes s (execShedStageLeave s) ∧ (∀ d mv, Completes s (execRailSample d mv s)) ∧
    (∀ mw, Completes s (execPowerSample mw s)) ∧ (∀ sensors, Completes s (execDieTempSample sensors s)) ∧
    Completes s (execSafeStateEntry s) := by
  simp only [execVinSample, execShedStageLeave, execRailSample, execPowerSample, execDieTempSample, execSafeStateEntry]
  and_intros
  all_goals
    intros
    (repeat' split) <;> simp

/-- The commands of the object dictionary window. -/
theorem completes_dictionary (s : State) :
    (∀ cpu off width, Completes s (execOdWindowLoad cpu off width s)) ∧
    (∀ cpu off width v, Completes s (execOdWindowStore cpu off width v s)) ∧ (∀ cpu v, Completes s (execWindowCommit cpu v s)) ∧
    (∀ q idx sub b, Completes s (execOdWrite q idx sub b s)) := by
  simp only [execOdWindowLoad, execOdWindowStore, execWindowCommit, execOdWrite]
  and_intros
  all_goals
    intros
    (repeat' split) <;> simp

/-- The commands of the management sessions. -/
theorem completes_session (s : State) :
    (∀ d, Completes s (execToaHello d s)) ∧ (∀ d, Completes s (execToaAuth d s)) ∧ (∀ d, Completes s (execToaRead d s)) ∧
    (∀ d, Completes s (execToaWrite d s)) ∧ (∀ d, Completes s (execToaSubscribe d s)) ∧ (∀ d, Completes s (execToaEvack d s)) ∧
    (∀ d, Completes s (execToaPing d s)) ∧ (∀ d, Completes s (execToaClose d s)) ∧ (∀ session, Completes s (execEventSend session s)) ∧
    (∀ session seq, Completes s (execEventResend session seq s)) ∧ (∀ session, Completes s (execAuthTimeout session s)) ∧
    (∀ session seq, Completes s (execReassemblyTimeout session seq s)) ∧ (∀ session, Completes s (execSessionIdleTimeout session s)) := by
  simp only [execToaRead, execToaWrite, execToaSubscribe, execToaEvack, execToaPing, execToaClose, execEventSend, execEventResend,
    execAuthTimeout, execReassemblyTimeout, execSessionIdleTimeout]
  and_intros
  all_goals
    intros
    (repeat' split) <;> simp [apply_ite State.pending, sessionMsg_pending]

/-- The commands of the events, the configuration and the reset. -/
theorem completes_event (s : State) :
    Completes s (execEventRaise s) ∧ Completes s (execEventCommit s) ∧ (∀ q b, Completes s (execEventPost q b s)) ∧
    (∀ q v, Completes s (execConfigSave q v s)) ∧ (∀ q v, Completes s (execConfigErase q v s)) ∧
    (∀ ok, Completes s (execConfigDone ok s)) ∧ (∀ q v, Completes s (execDeviceReset q v s)) := by
  simp only [execEventRaise, execEventCommit, execEventPost, execConfigSave, execConfigErase, execConfigDone, execDeviceReset]
  and_intros
  all_goals
    intros
    (repeat' split) <;> simp

/-- The commands of the security functions. -/
theorem completes_security (s : State) :
    (∀ q b, Completes s (execAttestNonce q b s)) ∧ Completes s (execAttestReportReady s) ∧ (∀ q v, Completes s (execSvnRaise q v s)) ∧
    (∀ q v, Completes s (execOwnerCommit q v s)) ∧ (∀ q b, Completes s (execJobKey q b s)) ∧ (∀ q v, Completes s (execJobRelease q v s)) ∧
    (∀ q k b, Completes s (execJobImageListWrite q k b s)) ∧ (∀ q v, Completes s (execDebugUnlock q v s)) ∧
    (∀ q v, Completes s (execDebugLock q v s)) ∧ Completes s (execDebugExpire s) ∧ (∀ h, Completes s (execEntropyFail h s)) := by
  simp only [execAttestNonce, execAttestReportReady, execSvnRaise, execOwnerCommit, execJobKey, execJobRelease, execJobImageListWrite,
    execDebugUnlock, execDebugLock, execDebugExpire, execEntropyFail]
  and_intros
  all_goals
    intros
    (repeat' split) <;> simp

/-- The commands of the power-on and the boot. -/
theorem completes_boot (s : State) :
    Completes s (execPowerOn s) ∧ Completes s (execHoldupCharged s) ∧ Completes s (execResetNAssert s) ∧
    Completes s (execResetNRelease s) ∧ Completes s (execFlashExtRelease s) ∧ (∀ kernelOk, Completes s (execBootRomStart kernelOk s)) ∧
    Completes s (execFirmwareStart s) ∧ (∀ rep, Completes s (execSelftestItem rep s)) ∧ Completes s (execSelftestTimeout s) := by
  simp only [execPowerOn, execHoldupCharged, execResetNAssert, execResetNRelease, execFlashExtRelease, execBootRomStart,
    execFirmwareStart, execSelftestItem, execSelftestTimeout]
  and_intros
  all_goals
    intros
    (repeat' split) <;> simp

/-- The commands of the black box and the firmware slots, and the module's other signals. -/
theorem completes_record (s : State) :
    (∀ q v, Completes s (execBlackBoxWrite q v s)) ∧ (∀ fail0 fail1, Completes s (execBlackboxWritten fail0 fail1 s)) ∧
    (∀ q rseq, Completes s (execBlackBoxSelect q rseq s)) ∧ (∀ q v, Completes s (execFwSlotErase q v s)) ∧
    (∀ ok, Completes s (execFwSlotEraseDone ok s)) ∧ (∀ q b ok, Completes s (execFwSlotData q b ok s)) ∧
    (∀ q v, Completes s (execFwActivate q v s)) ∧ Completes s (execInputFallWhileCharging s) ∧
    (∀ f, Completes s (execManagementPortFrame f s)) ∧ (∀ up, Completes s (execMgmtBlockLock up s)) ∧
    (∀ inlet outlet, Completes s (execCoolantSample inlet outlet s)) ∧ (∀ code, Completes s (execTestAccessPort code s)) ∧
    Completes s (execFlashExtNAssert s) ∧ (∀ slot ok0 ok1, Completes s (execBackgroundEraseDone slot ok0 ok1 s)) := by
  simp only [execBlackBoxWrite, execBlackboxWritten, execBlackBoxSelect, execFwSlotErase, execFwSlotEraseDone, execFwSlotData,
    execFwActivate, execInputFallWhileCharging, execManagementPortFrame, execMgmtBlockLock, execCoolantSample, execTestAccessPort,
    execFlashExtNAssert, execBackgroundEraseDone]
  and_intros
  all_goals
    intros
    (repeat' split) <;> simp [request_pending]

/-- Every command answers a next state and leaves the queue, each by the lemma of its chapter. -/
theorem completes_exec (i : Instr) (s : State) : Completes s (exec i s) := by
  cases i <;> simp only [exec, completes_matrix, completes_vector, completes_sequencer, completes_stream,
    completes_schedule, completes_window, completes_memory, completes_link, completes_handshake, completes_packet,
    completes_training, completes_husk, completes_clock, completes_power, completes_dictionary, completes_session,
    completes_event, completes_security, completes_boot, completes_record]

/-- Settles O56, command by command. -/
theorem everyCommandCompletes : Obligations.EveryCommandCompletes := completes_exec

end Sys2Proof.Machine

/-! SUPPORT. More laws of the sparse table: a read after keys were dropped, and what a table lists after a write. -/

namespace Sys2Proof.SMap

variable {α : Type}

/-- A read after keys were dropped: they read as unlisted keys do. -/
theorem get_drop (d : α) (m : SMap α) (p : Nat → Bool) (k : Nat) : (m.drop p).get d k = if p k then d else m.get d k := by
  induction m with
  | nil => exact (ite_self d).symm
  | cons x m ih =>
    obtain ⟨j, v⟩ := x
    have step : SMap.drop ((j, v) :: m) p = if p j then SMap.drop m p else (j, v) :: SMap.drop m p := by
      unfold SMap.drop
      rw [List.filter_cons]
      cases p j <;> rfl
    rw [step]
    by_cases hk : k = j
    · subst hk
      cases hp : p k <;> simp [SMap.get_cons, ih, hp]
    · cases p j <;> simp [SMap.get_cons, hk, ih]

theorem mem_of_mem_erase {m : SMap α} {a : Nat} {x : Nat × α} (h : x ∈ m.erase a) : x ∈ m := by
  induction m with
  | nil => exact h
  | cons y m ih =>
    obtain ⟨k, v⟩ := y
    unfold SMap.erase at h
    split at h
    · exact List.mem_cons_of_mem _ (ih h)
    · exact (List.mem_cons.mp h).elim (fun e => e ▸ List.mem_cons_self) (fun hx => List.mem_cons_of_mem _ (ih hx))

theorem mem_ins {m : SMap α} {a : Nat} {v : α} {x : Nat × α} (h : x ∈ m.ins a v) : x = (a, v) ∨ x ∈ m := by
  induction m with
  | nil => exact .inl (List.mem_singleton.mp h)
  | cons y m ih =>
    obtain ⟨k, w⟩ := y
    unfold SMap.ins at h
    split at h
    · exact List.mem_cons.mp h
    · rcases List.mem_cons.mp h with e | hx
      · exact .inr (e ▸ List.mem_cons_self)
      · exact (ih hx).imp_right (List.mem_cons_of_mem _)

theorem mem_set [DecidableEq α] {d : α} {m : SMap α} {a : Nat} {v : α} {x : Nat × α} (h : x ∈ m.set d a v) :
    x = (a, v) ∨ x ∈ m := by
  unfold SMap.set at h
  split at h
  · exact .inr (mem_of_mem_erase h)
  · exact (mem_ins h).imp_right mem_of_mem_erase

/-- What a table lists after every entry was changed is the change of a listed entry. -/
theorem exists_of_mem_mapV [DecidableEq α] {d : α} {f : Nat → α → α} {m : SMap α} {x : Nat × α} (h : x ∈ m.mapV d f) :
    ∃ y ∈ m, x.2 = f y.1 y.2 := by
  induction m with
  | nil => exact absurd h List.not_mem_nil
  | cons y m ih =>
    rcases mem_set h with e | hx
    · exact ⟨y, List.mem_cons_self, by rw [e]⟩
    · obtain ⟨z, hz, e⟩ := ih hx
      exact ⟨z, List.mem_cons_of_mem _ hz, e⟩

end Sys2Proof.SMap

/-! SUPPORT. What the work of one region touches: its slice, its stack, and the event log (R191 to R208). -/

namespace Sys2Proof.Machine

/-! One region. -/

theorem region_updRegion_same (s : State) (r : Nat) (f : RegionSt → RegionSt) : (s.updRegion r f).region r = f (s.region r) := by
  rw [region_updRegion, if_pos rfl]

theorem region_updRegion_of_ne (s : State) {r d : Nat} (h : d ≠ r) (f : RegionSt → RegionSt) : (s.updRegion r f).region d = s.region d := by
  rw [region_updRegion, if_neg h]

theorem onlyRegion_upd (s : State) (r : Nat) (f : RegionSt → RegionSt) : OnlyRegion s (s.updRegion r f) r :=
  ⟨rfl, fun _ hd => region_updRegion_of_ne s hd f⟩

theorem OnlyRegion.then {s t u : State} {r : Nat} (h : OnlyRegion s t r) (g : OnlyRegion t u r) : OnlyRegion s u r := by
  obtain ⟨frame, others⟩ := h
  obtain ⟨frame', others'⟩ := g
  refine ⟨?_, fun d hd => (others' d hd).trans (others d hd)⟩
  rw [frame', frame]

@[simp] theorem region_post (s : State) (code sev src : Nat) (args : List Nat) (d : Nat) : (s.post code sev src args).region d = s.region d := by
  unfold State.region
  rw [mem_post]

/-- The module differs in region `r`, in the bytes and errors of the stacks, and in the event log only; the queue of the slice and the place
of the scrub pass stay. -/
structure RegionWork (s t : State) (r : Nat) : Prop where
  frame : t = { s with mem := { s.mem with hbm := t.mem.hbm, errs := t.mem.errs, regions := t.mem.regions }, log := t.log }
  others : ∀ d, d ≠ r → t.region d = s.region d
  q : (t.region r).q = (s.region r).q
  scrubPos : (t.region r).scrubPos = (s.region r).scrubPos

namespace RegionWork

theorem refl (s : State) (r : Nat) : RegionWork s s r := ⟨rfl, fun _ _ => rfl, rfl, rfl⟩

theorem trans {s t u : State} {r : Nat} (h : RegionWork s t r) (g : RegionWork t u r) : RegionWork s u r := by
  refine ⟨?_, fun d hd => (g.others d hd).trans (h.others d hd), g.q.trans h.q, g.scrubPos.trans h.scrubPos⟩
  rw [g.frame, h.frame]

theorem cores {s t : State} {r : Nat} (h : RegionWork s t r) : t.cores = s.cores := by
  rw [h.frame]

theorem core {s t : State} {r : Nat} (h : RegionWork s t r) (c : Nat) : t.core c = s.core c := by
  unfold State.core
  rw [h.cores]

theorem bandMap {s t : State} {r : Nat} (h : RegionWork s t r) : t.mem.bandMap = s.mem.bandMap := by
  rw [h.frame]

theorem bandChg {s t : State} {r : Nat} (h : RegionWork s t r) : t.mem.bandChg = s.mem.bandChg := by
  rw [h.frame]

end RegionWork

theorem regionWork_updRegion (s : State) (r : Nat) (f : RegionSt → RegionSt) (hq : (f (s.region r)).q = (s.region r).q)
    (hscrub : (f (s.region r)).scrubPos = (s.region r).scrubPos) : RegionWork s (s.updRegion r f) r :=
  ⟨rfl, fun _ hd => region_updRegion_of_ne s hd f, by rw [region_updRegion_same, hq], by rw [region_updRegion_same, hscrub]⟩

theorem regionWork_post (s : State) (r code sev src : Nat) (args : List Nat) : RegionWork s (s.post code sev src args) r := by
  refine ⟨?_, fun d _ => region_post s _ _ _ _ d, by rw [region_post], by rw [region_post]⟩
  obtain ⟨l, h⟩ := post_eq s code sev src args
  rw [h]

theorem regionWork_setSector (s : State) (st a : Nat) (bs : List Byte) : RegionWork s (s.setSector st a bs) st :=
  ⟨rfl, fun _ _ => rfl, rfl, rfl⟩

theorem regionWork_setErr (s : State) (st a : Nat) (e : HbmErr) : RegionWork s (s.setErr st a e) st :=
  ⟨rfl, fun _ _ => rfl, rfl, rfl⟩

theorem regionWork_setLines (s : State) (st a : Nat) (ls : List Line) : RegionWork s (s.setLines st a ls) st :=
  regionWork_updRegion s st _ rfl rfl

theorem regionWork_stackWrite (s : State) (st a : Nat) (bs : List Byte) : RegionWork s (s.stackWrite st a bs) st :=
  ((regionWork_setSector s st a bs).trans (regionWork_setErr _ st a noErr)).trans (regionWork_updRegion _ st _ rfl rfl)

theorem regionWork_postUe (s : State) (st a : Nat) : RegionWork s (s.postUe st a) st :=
  (regionWork_updRegion s st _ rfl rfl).trans (regionWork_post _ st _ _ _ _)

theorem regionWork_countCe (s : State) (st n : Nat) : RegionWork s (s.countCe st n) st := by
  have counted : RegionWork s (s.updRegion st (fun r => { r with ce := r.ce + n })) st := regionWork_updRegion s st _ rfl rfl
  unfold State.countCe
  extract_lets c s' t
  split
  · exact counted.trans (regionWork_post _ st _ _ _ _)
  · exact counted

/-- A sector read of a stack works on its region only (R205 to R207). -/
theorem regionWork_stackReadBy (s : State) (policy st a : Nat) (err : HbmErr) : RegionWork s (s.stackReadBy policy st a err).1 st := by
  unfold State.stackReadBy
  split
  next => exact regionWork_postUe s st a
  next =>
    extract_lets e s1
    have counted : RegionWork s s1 st := by
      unfold s1
      split
      · exact .refl s st
      · exact regionWork_countCe s st _
    split
    next => exact counted
    next d _ =>
      exact ((counted.trans (regionWork_setErr s1 st a noErr)).trans (regionWork_setSector _ st a d)).trans (regionWork_countCe _ st 1)
    next => exact (counted.trans (regionWork_setErr s1 st a e)).trans (regionWork_postUe _ st a)

theorem regionWork_toStack (s : State) (r : Nat) (q : MemReq) : RegionWork s (s.toStack r q) r := by
  unfold State.toStack
  extract_lets g
  split <;> exact regionWork_updRegion s r _ rfl rfl

theorem regionWork_evict (s : State) (st n : Nat) (v : Line) : RegionWork s (s.evict st n v) st := by
  unfold State.evict
  split
  · exact (regionWork_stackWrite s st _ _).trans (regionWork_toStack _ st _)
  · exact .refl s st

/-- A line that is allocated, and the victim that it evicts, are work of one region (R194). -/
theorem regionWork_allocLine (s : State) (st n : Nat) (l : Line) : RegionWork s (s.allocLine st n l) st := by
  unfold State.allocLine
  extract_lets a ls0 ls
  split
  next => exact regionWork_setLines s st a _
  next =>
    split
    · exact regionWork_setLines s st a _
    · exact (regionWork_evict s st n _).trans (regionWork_setLines _ st a _)

/-- What a hit leaves: its lines in a new order and with new marks, or nothing changed (R192, R193). -/
theorem touchLine_eq (s : State) (st : Nat) (l : Line) (hint : Nat) : ∃ a ls, s.touchLine st l hint = s.setLines st a ls := by
  unfold State.touchLine
  extract_lets a ls0 keep ls
  split
  · exact ⟨a, _, rfl⟩
  · exact ⟨a, _, rfl⟩

/-- A read that hits answers the line's data, and changes nothing but lines of its slice (R193). -/
theorem mscReadBy_of_hit {s : State} {policy n st a hint : Nat} {err : HbmErr} {l : Line} (h : s.findLine st a = some l) :
    (s.mscReadBy policy n st a hint err).2 = some l.data ∧
    ((s.mscReadBy policy n st a hint err).1 = s ∨ ∃ b ls, (s.mscReadBy policy n st a hint err).1 = s.setLines st b ls) := by
  simp only [State.mscReadBy, h]
  split
  · exact ⟨rfl, .inr ⟨_, _, rfl⟩⟩
  · split
    · exact ⟨rfl, .inl rfl⟩
    · exact ⟨rfl, .inr (touchLine_eq s st l _)⟩

/-- A sector read served by a slice works on its region only (R193). -/
theorem regionWork_mscReadBy (s : State) (policy n st a hint : Nat) (err : HbmErr) :
    RegionWork s (s.mscReadBy policy n st a hint err).1 st := by
  cases h : s.findLine st a with
  | some l =>
    obtain ⟨-, same | ⟨b, ls, lines⟩⟩ := mscReadBy_of_hit (policy := policy) (n := n) (hint := hint) (err := err) h
    · rw [same]
      exact .refl s st
    · rw [lines]
      exact regionWork_setLines s st b ls
  | none =>
    have stack := regionWork_stackReadBy s policy st a err
    simp only [State.mscReadBy, h]
    split
    · exact stack
    · split
      · exact stack.trans (regionWork_allocLine _ st n _)
      · exact stack

/-- A sector write served by a slice works on its region only (R193, R196). -/
theorem regionWork_mscWriteBy (s : State) (policy n st a off : Nat) (bs : List Byte) (hint : Nat) (err : HbmErr) :
    RegionWork s (s.mscWriteBy policy n st a off bs hint err).1 st := by
  unfold State.mscWriteBy
  extract_lets h
  split
  next l _ =>
    obtain ⟨b, ls, lines⟩ := touchLine_eq s st { l with data := mergeAt l.data off bs, dirty := true } h
    simp only [lines]
    exact regionWork_setLines s st b ls
  next listed s0 read _ _ =>
    have cleared : RegionWork s s0 st := regionWork_updRegion s st _ rfl rfl
    have base : RegionWork s read.1 st := by
      unfold read
      split
      · exact cleared
      · exact cleared.trans (regionWork_stackReadBy s0 policy st a err)
    split
    · exact base
    · extract_lets d'
      split
      · exact base.trans (regionWork_stackWrite _ st a d')
      · exact base.trans (regionWork_allocLine _ st n _)

end Sys2Proof.Machine

/-! SUPPORT. Changes of a band (R183). -/

namespace Sys2Proof.Machine

/-! The bands' modes and changes through writes of device memory. -/

/-- The modes of the bands and the changes in progress are the same in two states. -/
def KeepsBands (s t : State) : Prop := t.mem.bandMap = s.mem.bandMap ∧ t.mem.bandChg = s.mem.bandChg

theorem KeepsBands.refl (s : State) : KeepsBands s s := ⟨rfl, rfl⟩

theorem KeepsBands.trans {s t u : State} (h : KeepsBands s t) (g : KeepsBands t u) : KeepsBands s u :=
  ⟨g.1.trans h.1, g.2.trans h.2⟩

theorem RegionWork.keepsBands {s t : State} {r : Nat} (h : RegionWork s t r) : KeepsBands s t := ⟨h.bandMap, h.bandChg⟩

theorem keepsBands_memWrite (s : State) (w o : Nat) (bs : List Byte) (hint : Nat) (err : HbmErr) :
    KeepsBands s (s.memWrite w o bs hint err).1 := by
  exact List.foldlRecOn (motive := fun (acc : State × Bool × List Byte) => KeepsBands s acc.1) _ _ (.refl s)
    (fun acc kept x _ => kept.trans (regionWork_mscWriteBy acc.1 _ w _ _ _ _ hint err).keepsBands)

theorem keepsBands_appendLog (s : State) (idx sub : Nat) (b : List Byte) : KeepsBands s (s.appendLog idx sub b) := by
  unfold State.appendLog
  extract_lets k val record place s1
  split
  · exact .refl s
  · show KeepsBands s s1
    unfold s1
    split
    · exact keepsBands_memWrite s deviceStream place record 0 noErr
    · exact .refl s

/-- The record of an action touches no band (R376). -/
theorem keepsBands_taken (s : State) (idx sub : Nat) (b : List Byte) : KeepsBands s (s.taken idx sub b) := by
  unfold State.taken
  split
  · exact keepsBands_appendLog (s.noteAct .act idx sub 0) idx sub b
  · exact .refl s

/-! The beginning of a change. -/

/-- The effect of HbmBandSet: a change to another mode begins. -/
theorem actBandSet_eff (s : State) (v : Nat) : (actBandSet s v).eff = { s with mem := { s.mem with
    bandChg := if s.homed (v % 64) = v.testBit 15 then s.mem.bandChg else s.mem.bandChg ++ [(v % 64, v.testBit 15)] } } := by
  unfold actBandSet
  extract_lets b homed
  show (if _ then _ else _) = _
  split <;> rfl

/-- An accepted HbmBandSet. -/
theorem exec_hbmBandSet {q : OdReq} {v : BitVec 16} {s : State} (h : s.admits q 0x0501 (leBytes 2 v.toNat)) (hband : v.toNat % 64 ≤ 35)
    (hrsvd : nfld v.toNat 14 6 = 0) (hbusy : s.schedBusy = false) (huse : s.bandInUse (v.toNat % 64) = false)
    (hchg : s.bandBusy (v.toNat % 64) = false) :
    exec (.hbmBandSet q v) s = .next ((actBandSet (s.taken 0x0501 0 (leBytes 2 v.toNat)) v.toNat).eff.answer q 0) := by
  have obj : objOf 0x0501 0 = some ⟨0x0501, 0, 0, .u16, .act⟩ := by decide
  have value : ofLe (leBytes 2 v.toNat) = v.toNat := by
    rw [ofLe_leBytes]
    exact Nat.mod_eq_of_lt v.isLt
  have valid : (actBandSet (s.noteAct .act 0x0501 0 0) v.toNat).inv = false := by
    simp [actBandSet, hrsvd, Nat.not_lt.mpr hband]
  have free : (actBandSet (s.noteAct .act 0x0501 0 0) v.toNat).bad = false := by
    show (s.schedBusy || s.bandInUse (v.toNat % 64) || s.bandBusy (v.toNat % 64)) = false
    rw [hbusy, huse, hchg]
    rfl
  show Host.Outcome.next (s.request q 0x0501 0 (leBytes 2 v.toNat) (fun t => actBandSet t (ofLe (leBytes 2 v.toNat)))) = _
  rw [value]
  exact congrArg Host.Outcome.next (request_taken (fun t => actBandSet t v.toNat) h (by decide) (by decide) obj rfl rfl valid free)

/-! The end of a change. -/

/-- A region when the change of a band ends: no line, poisoned sector or waiting request of the band is left (R183). -/
def RegionSt.endsChange (b : Nat) (g : RegionSt) : RegionSt :=
  { g with
    sets := g.sets.mapV [] (fun _ ls => ls.filter (fun l => !inBand b (l.tag * 64))),
    poison := g.poison.filter (fun a => !inBand b a),
    q := g.q.filter (fun q => q.band ≠ b), held := g.held.filter (fun q => q.band ≠ b) }

/-- The memory when the change of a band to a mode ends, before the held requests go on (R183). -/
def State.endsChange (s : State) (b : Nat) (h : Bool) : State :=
  { s with mem := { s.mem with
    bandChg := s.mem.bandChg.erase (b, h),
    bandMap := if h then s.mem.bandMap ||| BitVec.ofNat 36 (2 ^ b) else s.mem.bandMap &&& ~~~BitVec.ofNat 36 (2 ^ b),
    hbm := s.mem.hbm.drop (fun k => inBand b (k % 2 ^ 40)),
    regions := s.mem.regions.mapV {} (fun _ g => g.endsChange b),
    errs := s.mem.errs.drop (fun k => inBand b (k % 2 ^ 40)) } }

theorem region_endsChange (s : State) (b : Nat) (h : Bool) (r : Nat) : (s.endsChange b h).region r = (s.region r).endsChange b :=
  SMap.get_mapV ({} : RegionSt) (fun _ g => g.endsChange b) s.mem.regions r rfl

/-- The map's bit of one band. -/
theorem getLsbD_bandBit (b : Fin 36) (k : Nat) : (BitVec.ofNat 36 (2 ^ b.val)).getLsbD k = decide (k = b.val) := by
  rw [BitVec.getLsbD_ofNat, Nat.testBit_two_pow, Bool.eq_iff_iff]
  simp only [Bool.and_eq_true, decide_eq_true_eq]
  omega

/-- The mode of the band is the new one, and every other band keeps its own (R183). -/
theorem homed_endsChange (s : State) (b : Fin 36) (h : Bool) (k : Nat) :
    (s.endsChange b h).homed k = if k = b.val then h else s.homed k := by
  have bound : s.mem.bandMap.getLsbD k = true → k < 36 := BitVec.lt_of_getLsbD
  show BitVec.getLsbD (if h then _ else _) k = if k = b.val then h else s.mem.bandMap.getLsbD k
  cases h
  · rw [if_neg Bool.false_ne_true, BitVec.getLsbD_and, BitVec.getLsbD_not, getLsbD_bandBit]
    by_cases hk : k = b.val
    · simp [hk]
    · simpa [hk] using bound
  · rw [if_pos rfl, BitVec.getLsbD_or, getLsbD_bandBit]
    by_cases hk : k = b.val <;> simp [hk]

/-- The module differs in the queues of slices only. -/
def QueuesOnly (s t : State) : Prop :=
  t = { s with mem := { s.mem with regions := t.mem.regions } } ∧ ∀ r, ∃ q, t.region r = { s.region r with q := q }

theorem QueuesOnly.refl (s : State) : QueuesOnly s s := ⟨rfl, fun r => ⟨(s.region r).q, rfl⟩⟩

theorem QueuesOnly.trans {s t u : State} (h : QueuesOnly s t) (g : QueuesOnly t u) : QueuesOnly s u := by
  obtain ⟨frame, regions⟩ := h
  obtain ⟨frame', regions'⟩ := g
  refine ⟨by rw [frame', frame], fun r => ?_⟩
  obtain ⟨q, first⟩ := regions r
  obtain ⟨q', second⟩ := regions' r
  exact ⟨q', by rw [second, first]⟩

theorem queuesOnly_toSlice (s : State) (w : ReqOwner) (o : Nat) (op : MemOp) (hint : Nat) : QueuesOnly s (s.toSlice w o op hint) := by
  refine ⟨rfl, fun r => ?_⟩
  simp only [State.toSlice, region_updRegion]
  split
  next h => exact ⟨_, by rw [h]⟩
  next => exact ⟨(s.region r).q, rfl⟩

/-- The requests that a change held go on to the queues of slices (R183). -/
theorem queuesOnly_bandFree (s : State) (xs : List (Nat × MemReq)) : QueuesOnly s (s.bandFree xs) := by
  induction xs generalizing s with
  | nil => exact .refl s
  | cons x xs ih => exact (queuesOnly_toSlice s _ _ _ _).trans (ih _)

/-- The end of the only change in progress. -/
theorem exec_bandChangeDone {b : Fin 36} {h : Bool} {s : State} (hchg : s.mem.bandChg = [(b.val, h)]) (hlost : s.clock.lost = false)
    (hadm : ∀ r, r < 24 → ∀ x ∈ (s.region r).adm, x.band ≠ b.val) :
    exec (.bandChangeDone b) s = .next ((s.endsChange b h).bandFree (s.bandHeld b)) := by
  have found : s.mem.bandChg.find? (fun p => p.1 = b.val) = some (b.val, h) := by simp [hchg]
  have idle : allRegions.any (fun r => (s.region r).adm.any (fun q => q.band = b.val)) = false := by
    simp only [List.any_eq_false, decide_eq_true_eq, Bool.not_eq_true, allRegions, List.mem_range]
    exact hadm
  show execBandChangeDone b s = _
  simp only [execBandChangeDone, found, idle, hlost]
  rfl

end Sys2Proof.Machine

/-! SUPPORT. Maintenance of a slice (R198). -/

namespace Sys2Proof.Machine

/-- What a write of CLEAN, FLUSH, DROP or UNKEEP to MSC_OP leaves of the region: a refusal's code, or the operation begun (R198). -/
def State.mscWritten (s : State) (r op : Nat) : RegionSt :=
  if (s.region r).op.isSome = true ∨ (op = 3 ∧ (s.sched.st = 3 ∨ s.sched.st = 5)) then { s.region r with result := 1 }
  else if fld (s.region r).baseHi 31 8 ≠ 0 ∨ ((s.region r).len ≠ 0 ∧ hbmTop < (s.region r).base + 64 * (s.region r).len.toNat) then
    { s.region r with result := 2 }
  else { s.region r with op := some op, result := 0 }

/-- A write of a legal code to MSC_OP of a clocked slice changes that region only (R198). -/
theorem mscOp_spec {s : State} {r op : Nat} (hclk : (s.region r).clken.getLsbD 1 = true) (hlost : s.clock.lost = false)
    (hop : op ≠ 0 ∧ op ≤ 4) :
    OnlyRegion s (s.mscOp r op) r ∧ (s.mscOp r op).region r = s.mscWritten r op := by
  have legal : ¬ (op = 0 ∨ 4 < op) := by omega
  have served : ¬ ((s.region r).clken.getLsbD 1 = false ∨ s.clock.lost = true) := by simp [hclk, hlost]
  unfold State.mscOp State.mscWritten
  extract_lets g
  rw [if_neg served, if_neg legal]
  split
  · exact ⟨onlyRegion_upd s r _, region_updRegion_same s r _⟩
  · split <;> exact ⟨onlyRegion_upd s r _, region_updRegion_same s r _⟩

/-- The commands that write MSC_OP, with their codes (R198). -/
theorem exec_mscOp {r : Fin 24} {i : Instr} {op : Nat} (h : (i, op) ∈ [(.mscClean r, 1), (.mscFlush r, 2), (.mscDrop r, 3), (.mscUnkeep r, 4)])
    (s : State) : exec i s = .next (s.mscOp r op) ∧ op ≠ 0 ∧ op ≤ 4 := by
  simp only [List.mem_cons, Prod.mk.injEq, List.not_mem_nil, or_false] at h
  rcases h with ⟨rfl, rfl⟩ | ⟨rfl, rfl⟩ | ⟨rfl, rfl⟩ | ⟨rfl, rfl⟩ <;> exact ⟨rfl, by decide, by decide⟩

/-! The end of an operation. -/

/-- The cores and the other regions are as before, and region `r` differs in its poison list only. -/
def StackOnly (s t : State) (r : Nat) : Prop :=
  t.cores = s.cores ∧ (∀ d, d ≠ r → t.region d = s.region d) ∧ ∃ p, t.region r = { s.region r with poison := p }

theorem StackOnly.refl (s : State) (r : Nat) : StackOnly s s r := ⟨rfl, fun _ _ => rfl, (s.region r).poison, rfl⟩

theorem StackOnly.trans {s t u : State} {r : Nat} (h : StackOnly s t r) (g : StackOnly t u r) : StackOnly s u r := by
  obtain ⟨cores, others, p, own⟩ := h
  obtain ⟨cores', others', p', own'⟩ := g
  exact ⟨cores'.trans cores, fun d hd => (others' d hd).trans (others d hd), p', by rw [own', own]⟩

theorem stackOnly_stackWrite (s : State) (st a : Nat) (bs : List Byte) : StackOnly s (s.stackWrite st a bs) st :=
  ⟨rfl, fun _ hd => region_updRegion_of_ne _ hd _, _, region_updRegion_same _ st _⟩

theorem stackOnly_writeBack (s : State) (r : Nat) (p : Line → Bool) : StackOnly s (s.writeBack r p) r :=
  List.foldlRecOn (motive := fun t => StackOnly s t r) _ _ (.refl s r)
    (fun t kept l _ => kept.trans (stackOnly_stackWrite t r (l.tag * 64) l.data))

/-- A set of lines when operation `op` has passed it, where `p` tells the lines of its range (R198). -/
def mscPassed (op : Nat) (p : Line → Bool) (ls : List Line) : List Line :=
  if op = 1 then ls.map (fun l => if p l then { l with dirty := false } else l)
  else if op = 4 then ls.map (fun l => if p l then { l with keep := false } else l)
  else ls.filter (fun l => !p l)

/-- The lines of the range are clean after CLEAN, unmarked after UNKEEP, and gone after FLUSH and DROP (R198). -/
theorem mscPassed_spec {s : State} {r op : Nat} {ls : List Line} {l : Line} (h : l ∈ mscPassed op (s.inMscRange r) ls)
    (hin : s.inMscRange r l = true) : (op = 1 → l.dirty = false) ∧ (op = 4 → l.keep = false) ∧ op ≠ 2 ∧ op ≠ 3 := by
  unfold mscPassed at h
  split at h
  next h1 =>
    subst h1
    obtain ⟨k, -, rfl⟩ := List.mem_map.mp h
    refine ⟨fun _ => ?_, nofun, by decide, by decide⟩
    split at hin
    next hk => rw [if_pos hk]
    next hk => exact absurd hin hk
  next h1 =>
    split at h
    next h4 =>
      subst h4
      obtain ⟨k, -, rfl⟩ := List.mem_map.mp h
      refine ⟨nofun, fun _ => ?_, by decide, by decide⟩
      split at hin
      next hk => rw [if_pos hk]
      next hk => exact absurd hin hk
    next h4 =>
      have out := (List.mem_filter.mp h).2
      rw [hin] at out
      exact absurd out Bool.false_ne_true

/-- The region when an operation has passed every set (R198). -/
theorem exec_mscOpDone {r : Fin 24} {op : Nat} {s : State} (hop : (s.region r).op = some op) (hlost : s.clock.lost = false) :
    ∃ u, StackOnly s u r ∧ exec (.mscOpDone r) s = .next (u.updRegion r (fun g => { g with
      op := none, sets := g.sets.mapV [] (fun _ ls => mscPassed op (s.inMscRange r) ls) })) := by
  refine ⟨if op = 1 ∨ op = 2 then s.writeBack r (s.inMscRange r) else s, ?_, ?_⟩
  · split
    · exact stackOnly_writeBack s r _
    · exact .refl s r
  · show execMscOpDone r s = _
    simp only [execMscOpDone, hlost, hop]
    rfl

end Sys2Proof.Machine

/-! SUPPORT. Requests inside a slice: lookup, admission and completion (R193, R197, R200 to R203, R206). -/

namespace Sys2Proof.Machine

/-! The answer to a stream. -/

/-- A core whose STE has one more response. -/
def CoreSt.hears (k : CoreSt) (a : Resp) : CoreSt := { k with ste := { k.ste with resp := k.ste.resp ++ [a] } }

theorem respond_one (s : State) (c i : Nat) (kd : ReqKind) (data : List Byte) (status : Nat) :
    s.respond c i [kd] [data] status = s.updCore c (fun k => k.hears { slot := i, kind := kd, data := data, status := status }) := rfl

/-- A read of a stream is served by the slice's read and answered to the stream (R193, R206). -/
theorem serveReq_streamRead {q : MemReq} {c i : Nat} {kd : ReqKind} (ho : q.owner = .stream c i kd) (hop : q.op = .read)
    (s : State) (r : Nat) (err : HbmErr) :
    let d := s.mscReadBy q.policy (s.reqStream q) r q.addr q.hint err
    s.serveReq r q err = d.1.updCore c (fun k => k.hears
      { slot := i, kind := kd, data := d.2.getD [], status := if d.2.isSome then 0 else 3 }) := by
  simp only [State.serveReq, State.answerReq, ho, hop, respond_one]

/-- What the service of a stream's read leaves of other regions and of the cores (R206). -/
theorem serveReq_streamRead_spec {q : MemReq} {c i : Nat} {kd : ReqKind} (ho : q.owner = .stream c i kd) (hop : q.op = .read)
    (s : State) (r : Nat) (err : HbmErr) :
    (∀ d, d ≠ r → (s.serveReq r q err).region d = s.region d) ∧ (∀ d, d ≠ c → (s.serveReq r q err).core d = s.core d) ∧
    ∃ a : Resp, a.slot = i ∧ a.kind = kd ∧ (a.status = 0 ∨ a.status = 3 ∧ a.data = []) ∧
      (s.serveReq r q err).core c = (s.core c).hears a := by
  have work := regionWork_mscReadBy s q.policy (s.reqStream q) r q.addr q.hint err
  rw [serveReq_streamRead ho hop]
  generalize s.mscReadBy q.policy (s.reqStream q) r q.addr q.hint err = d at work ⊢
  refine ⟨work.others, fun e he => ?_, ⟨i, kd, d.2.getD [], if d.2.isSome then 0 else 3⟩, rfl, rfl, ?_, ?_⟩
  · rw [core_updCore, if_neg he, work.core]
  · cases hd : d.2 with
    | none => exact .inr ⟨rfl, rfl⟩
    | some b => exact .inl rfl
  · rw [core_updCore_same, work.core]

/-- A read of a stream that hits is answered with the line's data (R193). -/
theorem serveReq_streamHit {q : MemReq} {c i : Nat} {kd : ReqKind} {l : Line} {s : State} {r : Nat} (ho : q.owner = .stream c i kd)
    (hop : q.op = .read) (hit : s.findLine r q.addr = some l) (err : HbmErr) :
    ((s.serveReq r q err).region r).q = (s.region r).q ∧ (s.serveReq r q err).mem.hbm = s.mem.hbm ∧
    (s.serveReq r q err).core c = (s.core c).hears { slot := i, kind := kd, data := l.data, status := 0 } := by
  have work := regionWork_mscReadBy s q.policy (s.reqStream q) r q.addr q.hint err
  obtain ⟨data, lines⟩ := mscReadBy_of_hit (policy := q.policy) (n := s.reqStream q) (hint := q.hint) (err := err) hit
  rw [serveReq_streamRead ho hop]
  generalize s.mscReadBy q.policy (s.reqStream q) r q.addr q.hint err = d at work data lines ⊢
  refine ⟨work.q, ?_, ?_⟩
  · obtain same | ⟨b, ls, set⟩ := lines
    · rw [updCore_mem, same]
    · rw [updCore_mem, set]
      rfl
  · rw [core_updCore_same, work.core, data]
    rfl

/-! The lookup. -/

/-- The slice takes a request from its queue. -/
def State.dequeue (s : State) (r : Nat) (x : MemReq) : State := s.updRegion r (fun g => { g with q := g.q.erase x })

theorem region_dequeue (s : State) (r : Nat) (x : MemReq) :
    (s.dequeue r x).region r = { s.region r with q := (s.region r).q.erase x } := region_updRegion_same s r _

theorem findLine_dequeue (s : State) (r : Nat) (x : MemReq) (a : Nat) : (s.dequeue r x).findLine r a = s.findLine r a := by
  simp only [State.findLine, State.lines, region_dequeue]

theorem effHint_dequeue (s : State) (r : Nat) (x : MemReq) (hint : Nat) : (s.dequeue r x).effHint r hint = s.effHint r hint := by
  simp only [State.effHint, region_dequeue]

theorem servedHere_dequeue (s : State) (r : Nat) (x y : MemReq) : (s.dequeue r x).servedHere r y = s.servedHere r y := by
  unfold State.servedHere
  rw [findLine_dequeue, effHint_dequeue]

/-- A slice that is clocked serves or sends on the first request of its queue that waits for nothing (R183, R197). -/
theorem exec_mscRequest {r : Fin 24} {x : MemReq} {s : State}
    (hx : (s.region r).q.find? (fun q => !s.bandBusy q.band && !heldLine (s.region r) q) = some x)
    (hclk : (s.region r).clken.getLsbD 1 = true) (hlost : s.clock.lost = false) :
    exec (.mscRequest r .clean) s = .next (if s.servedHere r x then
      (s.dequeue r x).serveReq r { x with policy := s.mem.eccPolicy } noErr else (s.dequeue r x).toStack r x) := by
  have here : ((s.updRegion r (fun g => { g with q := g.q.erase x })).lineEcc r x.addr .clean) = s.dequeue r x := lineEcc_clean _ _ _
  show execMscRequest r .clean s = _
  simp only [execMscRequest, hx, hclk, hlost, here, servedHere_dequeue, Bool.not_true, Bool.or_self, Bool.false_eq_true, if_false]
  split <;> rfl

/-! Admission. -/

/-- A request that the slice sends to its stack is admitted, or held (R200, R201). -/
theorem toStack_spec (s : State) (r : Nat) (x : MemReq) : OnlyRegion s (s.toStack r x) r ∧ (s.toStack r x).region r =
    if s.canAdmit (s.region r).adm (s.reqStream x) x.addr && !s.behindHeld (s.region r).held (s.reqStream x) x.addr then
      { s.region r with
        adm := (s.region r).adm ++ [{ x with policy := s.mem.eccPolicy }],
        banks := (s.region r).banks.upd {} (bankKey x.addr) (fun b => { b with lastAdm := s.reqStream x }) }
    else { s.region r with held := (s.region r).held ++ [x] } := by
  unfold State.toStack
  extract_lets g
  split
  · exact ⟨onlyRegion_upd s r _, region_updRegion_same s r _⟩
  · exact ⟨onlyRegion_upd s r _, region_updRegion_same s r _⟩

theorem toStack_dequeue_spec (s : State) (r : Nat) (x : MemReq) :
    OnlyRegion s ((s.dequeue r x).toStack r x) r ∧ ((s.dequeue r x).toStack r x).region r =
    if s.canAdmit (s.region r).adm (s.reqStream x) x.addr && !s.behindHeld (s.region r).held (s.reqStream x) x.addr then
      { s.region r with
        q := (s.region r).q.erase x, adm := (s.region r).adm ++ [{ x with policy := s.mem.eccPolicy }],
        banks := (s.region r).banks.upd {} (bankKey x.addr) (fun b => { b with lastAdm := s.reqStream x }) }
    else { s.region r with q := (s.region r).q.erase x, held := (s.region r).held ++ [x] } := by
  obtain ⟨only, own⟩ := toStack_spec (s.dequeue r x) r x
  refine ⟨(onlyRegion_upd s r _).then only, own.trans ?_⟩
  rw [region_dequeue]
  rfl

/-- A fold that at each element keeps what it has or takes the element ends with one of the elements. -/
theorem mem_of_foldl_pick {α : Type} {f : Option α → α → Option α} (hf : ∀ acc q, f acc q = acc ∨ f acc q = some q)
    {xs : List α} {x : α} (h : xs.foldl f none = some x) : x ∈ xs := by
  have start : ∀ y, (none : Option α) = some y → y ∈ xs := nofun
  exact List.foldlRecOn (motive := fun acc => ∀ y, acc = some y → y ∈ xs) xs f start (fun acc ih q hq y hy =>
    (hf acc q).elim (fun same => ih y (same.symm.trans hy)) (fun new => Option.some.inj (new.symm.trans hy) ▸ hq)) x h

/-- The next request in round-robin order is one of those it is chosen from (R201). -/
theorem mem_of_nextRobin {s : State} {last : Nat} {qs : List MemReq} {x : MemReq} (h : s.nextRobin last qs = some x) : x ∈ qs := by
  unfold State.nextRobin at h
  extract_lets pick at h
  have picked : ∀ {xs : List MemReq} {y : MemReq}, pick xs = some y → y ∈ xs := by
    intro xs y hy
    refine mem_of_foldl_pick (fun acc q => ?_) hy
    cases acc with
    | none => exact .inr rfl
    | some b => exact (ite_eq_or_eq _ _ _).symm
  split at h
  next y hy =>
    obtain rfl := Option.some.inj h
    exact (List.mem_filter.mp (picked hy)).1
  next => exact picked h

theorem bankKey_of_mem_admissible {s : State} {g : RegionSt} {key : Nat} {x : MemReq} (h : x ∈ s.admissible g key) :
    bankKey x.addr = key := by
  have admitted := (List.mem_filter.mp h).2
  simp only [Bool.and_eq_true, decide_eq_true_eq] at admitted
  obtain ⟨⟨⟨bank, -⟩, -⟩, -⟩ := admitted
  exact bank

/-- A freed slot of a bank takes the next held request (R201). -/
theorem exec_hbmAdmit {r : Fin 24} {pc : Fin 32} {bank : Fin 48} {x : MemReq} {s : State} (hlost : s.clock.lost = false)
    (hx : s.nextRobin ((s.region r).banks.get {} (pc.val * 48 + bank.val)).lastAdm (s.admissible (s.region r) (pc.val * 48 + bank.val)) =
      some x) :
    exec (.hbmAdmit r pc bank) s = .next ((s.updRegion r (fun g => { g with held := g.held.erase x })).takeSlotFor r x) := by
  show execHbmAdmit r pc bank s = _
  simp only [execHbmAdmit, hlost, hx, Bool.false_eq_true, if_false]

/-! Completion. -/

/-- An admitted request whose turn it is leaves its bank with its row open, and is served (R202, R203). -/
theorem exec_hbmRequestComplete {r : Fin 24} {k : Nat} {e : HbmErr} {x : MemReq} {s : State} (hx : (s.region r).adm[k]? = some x)
    (hturn : bankTurn (s.region r) x = true) (hclk : (s.region r).clken.getLsbD 0 = true) (hlost : s.clock.lost = false) :
    exec (.hbmRequestComplete r k e) s = .next ((s.updRegion r (fun g => { g with
      adm := g.adm.eraseIdx k,
      banks := g.banks.upd {} (bankKey x.addr) (fun b => { b with
        row := some (rowOf x.addr),
        streak := if decide (((s.region r).adm.find? (fun y => bankKey y.addr = bankKey x.addr)) = some x) then 0 else b.streak + 1 }) })).serveReq
          r x e) := by
  show execHbmRequestComplete r k e s = _
  simp only [execHbmRequestComplete, hx, hturn, hclk, hlost, Bool.not_true, Bool.or_self, Bool.false_eq_true, if_false]

/-! Refresh and scrub. -/

theorem exec_hbmRefresh {r : Fin 24} {s : State} (hlost : s.clock.lost = false) : exec (.hbmRefresh r) s =
    .next (s.updRegion r (fun g => { g with refreshes := g.refreshes + 1, banks := g.banks.mapV {} (fun _ b => { b with row := none }) })) :=
  if_neg (by simp [hlost])

theorem exec_hbmScrub {r : Fin 24} {e : HbmErr} {s : State} (hclk : (s.region r).clken.getLsbD 0 = true) (hlost : s.clock.lost = false) :
    exec (.hbmScrub r e) s = .next ((s.stackRead r ((s.region r).scrubPos * 64) e).1.updRegion r
      (fun g => { g with scrubPos := (g.scrubPos + 1) % stackSectors })) :=
  if_neg (by simp [hclk, hlost])

end Sys2Proof.Machine

/-! SUPPORT. Scratchpad errors (R187) and the temperature of a stack (R210), and the settlement of O30. -/

namespace Sys2Proof.Machine

/-! SPAD_ERR through a stop of the image. -/

/-- The mark UE of every core's SPAD_ERR is the same in two states. -/
def KeepsUe (s t : State) : Prop := ∀ d, (t.core d).ue = (s.core d).ue

theorem KeepsUe.refl (s : State) : KeepsUe s s := fun _ => rfl

theorem KeepsUe.trans {s t u : State} (h : KeepsUe s t) (g : KeepsUe t u) : KeepsUe s u := fun d => (g d).trans (h d)

theorem KeepsUe.forEach {α : Type} {f : State → α → State} (hf : ∀ s x, KeepsUe s (f s x)) (xs : List α) (s : State) :
    KeepsUe s (s.forEach xs f) :=
  List.foldlRecOn (motive := KeepsUe s) xs f (.refl s) (fun t kept x _ => kept.trans (hf t x))

theorem LeavesCores.keepsUe {s t : State} {c : Nat} (h : LeavesCores s t [c]) (own : (t.core c).ue = (s.core c).ue) : KeepsUe s t := by
  intro d
  by_cases hd : d = c
  · rw [hd, own]
  · rw [h.core d (by simpa using hd)]

theorem keepsUe_updCore (s : State) (c : Nat) (f : CoreSt → CoreSt) (hf : (f (s.core c)).ue = (s.core c).ue) : KeepsUe s (s.updCore c f) :=
  (onlyCore_upd s c f).leavesCores.keepsUe (by rw [core_updCore_same, hf])

theorem keepsUe_haltSeq (fcode : Nat) (s : State) (c : Nat) : KeepsUe s (s.haltSeq fcode c) := by
  refine (leavesCores_haltSeq fcode s c).keepsUe ?_
  rw [core_haltSeq, CoreSt.halts]
  split <;> rfl

theorem keepsUe_raiseFlags (s : State) (c : Fin 136) (fl : Flags) : KeepsUe s (s.raiseFlags (.mxe c) fl) := by
  obtain ⟨r, -, cores⟩ := core_raiseFlags s (.mxe c) fl
  intro d
  rw [cores, core_setFlagReg]
  show (if d = c.val then _ else _ : CoreSt).ue = _
  split <;> rfl

theorem keepsUe_abandonCore (s : State) (c : Nat) : KeepsUe s (s.abandonCore c) := by
  unfold State.abandonCore
  extract_lets xs s1 s2 s3
  have drained : KeepsUe s s1 := keepsUe_updCore s c _ rfl
  have raised : KeepsUe s1 s2 := by
    unfold s2
    split
    · exact keepsUe_raiseFlags s1 _ _
    · exact .refl s1
  have stopped : KeepsUe s2 s3 := keepsUe_updCore s2 c _ rfl
  obtain ⟨leaves, e, -, core⟩ := steCancel_spec { s3 with freeCtr := s.freeCtr + 1 + 16 * 12288 } c
  have cancelled := leaves.keepsUe (by rw [core])
  exact ((drained.trans raised).trans stopped).trans cancelled

/-- A stop of the image leaves the mark UE of every core (R137, R187). -/
theorem keepsUe_stopImage (s : State) (fcode : Nat) : KeepsUe s (s.stopImage fcode) := by
  unfold State.stopImage
  split
  · unfold State.haltImage
    extract_lets cs s1 s2 halting s3
    have halted : KeepsUe s s1 := .forEach (keepsUe_haltSeq fcode) cs s
    have abandoned : KeepsUe s1 s2 := .forEach keepsUe_abandonCore cs s1
    intro d
    rw [core_setSched, (linksOnly_collStop s3).core]
    exact (halted.trans abandoned) d
  · exact .refl s

/-- The image after a stop: STOPPING if it was running (R137). -/
theorem st_stopImage (s : State) (fcode : Nat) : (s.stopImage fcode).sched.st = if s.sched.st = 3 then 5 else s.sched.st := by
  split
  next h => rw [(stopImage_spec h fcode).1]
  next h => rw [State.stopImage, if_neg h]

/-! Scratchpad errors. -/

/-- A single error is counted at its core and its die (R187). -/
theorem spadEcc_single_spec (s : State) (c word : Nat) :
    (s.spadEcc c word .single).core c = { s.core c with ceCnt := min ((s.core c).ceCnt + 1) 0xFFFF } ∧
    (∀ d, d ≠ c → (s.spadEcc c word .single).core d = s.core d) ∧
    (s.spadEcc c word .single).mem.spadCe.get 0 (dieOf c) = s.mem.spadCe.get 0 (dieOf c) + 1 := by
  have cores : ∀ d, (s.spadEcc c word .single).core d =
      if d = c then { s.core c with ceCnt := min ((s.core c).ceCnt + 1) 0xFFFF } else s.core d :=
    fun d => core_updCore s c d (fun k => { k with ceCnt := min (k.ceCnt + 1) 0xFFFF })
  have die := SMap.get_upd 0 s.mem.spadCe (dieOf c) (dieOf c) (fun n => n + 1)
  exact ⟨(cores c).trans (if_pos rfl), fun d hd => (cores d).trans (if_neg hd), die.trans (if_pos rfl)⟩

/-- A double error marks UE, stops the image and leaves the word zero (R187). -/
theorem spadEcc_double_spec (s : State) (c word : Nat) :
    ((s.spadEcc c word .double).core c).ue = true ∧ (s.spadEcc c word .double).spadRead c (8 * word) 8 = List.replicate 8 0 ∧
    (s.spadEcc c word .double).sched.st = if s.sched.st = 3 then 5 else s.sched.st := by
  simp only [State.spadEcc]
  have marked : (((s.updCore c (fun k => { k with ue := true })).stopImage 4).core c).ue = true := by
    rw [keepsUe_stopImage, core_updCore_same]
  have stopped := st_stopImage (s.updCore c (fun k => { k with ue := true })) 4
  rw [updCore_sched] at stopped
  generalize (s.updCore c (fun k => { k with ue := true })).stopImage 4 = u at marked stopped ⊢
  refine ⟨?_, ?_, ?_⟩
  · rw [core_post, core_spadWrite, if_pos rfl, marked]
  · rw [State.spadRead, core_post]
    exact spadRead_spadWrite u c (8 * word) (List.replicate 8 0)
  · rw [(memOnly_post _ _ _ _ _).sched]
    exact stopped

theorem exec_spadScrub {c : Fin 136} {w : Nat} {s : State} (hw : 8 * w < spadBytes) (hclk : s.clkOn c 4 = true) (ecc : Ecc) :
    exec (.spadScrub c w ecc) s = .next (s.spadEcc c w ecc) := if_pos ⟨hw, hclk⟩

/-! Temperature. -/

/-- A sample that is not the second critical one in succession sets the temperature and the throttle level (R210, R400). -/
theorem exec_stackTempSample {r : Fin 24} {m : Int} {s : State} (hup : s.busUp = true) (hm : m < 110000 ∨ (0x80 + r.val) ∉ s.power.hot) :
    ∃ p, exec (.stackTempSample r m) s = .next { s.updRegion r (fun g => { g with temp := m, throttle := throttleNext g.throttle m }) with
      power := p } := by
  have mild : (decide (110000 ≤ m) && s.power.hot.contains (0x80 + r.val)) = false := by
    rcases hm with cool | first
    · simp [Int.not_le.mpr cool]
    · simp [first]
  refine ⟨{ s.power with
    hot := s.power.hot.filter (fun k => decide (k ≠ 0x80 + r.val)) ++ if decide (110000 ≤ m) then [0x80 + r.val] else [] }, ?_⟩
  show execStackTempSample r m s = _
  simp only [execStackTempSample, hup, mild]
  rfl

/-- Settles O30: bands by their change, maintenance by the write of MSC_OP and the set that it passes, requests by what their service leaves of
a region and of the cores, and errors and temperatures by the state that their command leaves. -/
theorem memoryServesAndIsMaintained : Obligations.MemoryServesAndIsMaintained := by
  unfold Obligations.MemoryServesAndIsMaintained
  refine ⟨⟨fun q v s h hband hrsvd hbusy huse hchg => ?bandSet, fun b h s hchg hlost hadm => ?bandDone,
      fun r i op s hi hclk hlost => ?mscWrite, fun r op s hop hlost => ?mscDone⟩,
    fun r x s hx hclk hlost => ⟨fun here => ?served, fun c i k l ho hop hit => ?hit, fun here => ?sent⟩,
    fun r pc bank x s hlost hx => ?admission,
    fun r k e x s hx hturn hclk hlost => ⟨⟨_, exec_hbmRequestComplete hx hturn hclk hlost, rfl⟩, fun c i kd ho hop => ?answered⟩,
    fun r s hlost => ⟨_, exec_hbmRefresh hlost, onlyRegion_upd s r _, region_updRegion_same s r _⟩,
    fun r e s hclk hlost => ?scrub, fun c w s hw hclk => ?spad, fun r m s hup hm => ?temperature⟩
  case bandSet =>
    have taken := taken_frame s 0x0501 0 (leBytes 2 v.toNat)
    obtain ⟨modes, changes⟩ := keepsBands_taken s 0x0501 0 (leBytes 2 v.toNat)
    have homed : ∀ b, (s.taken 0x0501 0 (leBytes 2 v.toNat)).homed b = s.homed b := fun b => by rw [State.homed, modes, State.homed]
    refine ⟨_, exec_hbmBandSet h hband hrsvd hbusy huse hchg, _, rfl, ?_⟩
    rw [actBandSet_eff]
    refine ⟨sched_taken s _ _ _, by rw [taken], modes, ?_⟩
    simp only [homed, changes]
  case bandDone =>
    obtain ⟨frame, regions⟩ := queuesOnly_bandFree (s.endsChange b h) (s.bandHeld b)
    refine ⟨_, exec_bandChangeDone hchg hlost hadm, ?_⟩
    generalize (s.endsChange b h).bandFree (s.bandHeld b) = t at frame regions ⊢
    have modes : t.mem.bandMap = (s.endsChange b h).mem.bandMap := by rw [frame]
    have changes : t.mem.bandChg = s.mem.bandChg.erase (b.val, h) := by rw [frame]; rfl
    have bytes : t.mem.hbm = s.mem.hbm.drop (fun k => inBand b (k % 2 ^ 40)) := by rw [frame]; rfl
    refine ⟨by rw [frame]; rfl, ?_, fun k => ?_, fun k => ?_, fun r => ?_⟩
    · rw [changes, hchg, List.erase_cons_head]
    · rw [← homed_endsChange s b h k, State.homed, modes]
      rfl
    · rw [bytes, SMap.get_drop]
    · obtain ⟨q, own⟩ := regions r
      rw [own, region_endsChange]
      exact ⟨rfl, rfl⟩
  case mscWrite =>
    obtain ⟨hexec, legal⟩ := exec_mscOp hi s
    exact ⟨_, hexec, mscOp_spec hclk hlost legal⟩
  case mscDone =>
    obtain ⟨u, ⟨cores, others, p, own⟩, hexec⟩ := exec_mscOpDone hop hlost
    have region := region_updRegion_same u r (fun g => { g with
      op := none, sets := g.sets.mapV [] (fun _ ls => mscPassed op (s.inMscRange r) ls) })
    refine ⟨_, hexec, by rw [region], by rw [region, own], fun d hd => (region_updRegion_of_ne u hd _).trans (others d hd), cores,
      fun x hx l hl hin => ?_⟩
    rw [region] at hx
    obtain ⟨y, -, passed⟩ := SMap.exists_of_mem_mapV hx
    exact mscPassed_spec (passed ▸ hl) hin
  case served => exact ⟨_, exec_mscRequest hx hclk hlost, by rw [if_pos here]; rfl⟩
  case hit =>
    have here : s.servedHere r x = true := by simp [State.servedHere, hit]
    have hit' : (s.dequeue r x).findLine r x.addr = some l := (findLine_dequeue s r x x.addr).trans hit
    obtain ⟨queue, bytes, own⟩ := serveReq_streamHit (q := { x with policy := s.mem.eccPolicy }) ho hop hit' noErr
    obtain ⟨regions, cores, -⟩ := serveReq_streamRead_spec (q := { x with policy := s.mem.eccPolicy }) ho hop (s.dequeue r x) r noErr
    rw [region_dequeue] at queue
    refine ⟨_, exec_mscRequest hx hclk hlost, ?_⟩
    rw [if_pos here]
    exact ⟨queue, own, bytes, fun d hd => (regions d hd).trans (region_updRegion_of_ne s hd _), cores⟩
  case sent =>
    have sent := exec_mscRequest hx hclk hlost
    rw [if_neg (by simp [here])] at sent
    exact ⟨_, sent, toStack_dequeue_spec s r x⟩
  case admission =>
    have bank := bankKey_of_mem_admissible (mem_of_nextRobin hx)
    refine ⟨_, exec_hbmAdmit hlost hx, (onlyRegion_upd s r _).then (onlyRegion_upd _ r _), ?_⟩
    rw [State.takeSlotFor, region_updRegion_same, region_updRegion_same, bank]
    rfl
  case answered =>
    obtain ⟨regions, cores, answer⟩ := serveReq_streamRead_spec ho hop (s.updRegion r _) r e
    exact ⟨_, exec_hbmRequestComplete hx hturn hclk hlost, fun d hd => (regions d hd).trans (region_updRegion_of_ne s hd _), cores, answer⟩
  case scrub =>
    have read : RegionWork s (s.stackRead r ((s.region r).scrubPos * 64) e).1 r := regionWork_stackReadBy s s.mem.eccPolicy r _ e
    refine ⟨_, exec_hbmScrub hclk hlost, rfl, ?_, read.cores, fun d hd => (region_updRegion_of_ne _ hd _).trans (read.others d hd)⟩
    rw [region_updRegion_same]
    exact congrArg (fun n => (n + 1) % stackSectors) read.scrubPos
  case spad => exact ⟨⟨_, exec_spadScrub hw hclk .clean, rfl⟩, ⟨_, exec_spadScrub hw hclk .single, spadEcc_single_spec s c w⟩,
      ⟨_, exec_spadScrub hw hclk .double, spadEcc_double_spec s c w⟩⟩
  case temperature =>
    obtain ⟨p, hexec⟩ := exec_stackTempSample hup hm
    exact ⟨_, hexec, rfl, region_updRegion_same s r _, fun d hd => region_updRegion_of_ne s hd _⟩

end Sys2Proof.Machine

/-! SUPPORT. ST.ISSUE and the issue queue (R216, R220), and the head of the queue that takes a slot (R213, R217, R223, R235). -/

namespace Sys2Proof.Machine

/-! Issue. -/

/-- A command that passes its checks and finds its queue full waits with WAITK QUEUE (R140). -/
theorem issue_full {s : State} {c : Nat} {w : Cmd} {e o : Nat} {mal gated bad full : Bool} (eff : State → State)
    (h : s.atCmd c w e o = true) (h1 : mal = false) (h2 : gated = false) (h3 : bad = false) (h4 : full = true) :
    s.issue c w e o mal gated bad full eff = s.seqWait c 2 none := by
  simp [State.issue, fetchFor_of_atCmd h, h, h1, h2, h3, h4]

/-- The passes completed in each open loop of a core's sequencer, outermost first (R220). -/
def CoreSt.passes (k : CoreSt) : List Nat := (k.seq.loops.map (fun l => l.done)).reverse

/-- A core whose issue queue has one more command. -/
def CoreSt.enqueues (k : CoreSt) (q : StCmd) : CoreSt := { k with ste := { k.ste with q := k.ste.q ++ [q] } }

section
variable {c : Fin 136} {w : Cmd} {d : List Word} {s : State}

/-- ST.ISSUE that passes its checks is an issue with the issue queue's room alone left to ask. -/
theorem exec_stIssue (hmal : s.stIssueMal s.sched.secs s.sched.imgOff c w = false)
    (hdesc : s.descAt s.sched.secs s.sched.imgOff c (stDesc w) = some d)
    (hbad : s.descBad s.sched.secs s.sched.imgOff d (s.core c).passes = false) :
    exec (.stIssue c w) s = .next (s.issue c w 3 1 false (!s.clkOn c 3) false (decide (64 ≤ (s.core c).ste.q.length))
      (fun s' => s'.updCore c (fun k => k.enqueues { w := w, passes := (s.core c).passes }))) := by
  rw [CoreSt.passes] at hbad
  show execStIssue c w s = _
  simp only [execStIssue, hmal, hdesc, hbad]
  rfl

end

/-- Settles O19: the issue moves the sequencer on and lengthens the queue, or waits at a full one. -/
theorem stIssueJoinsItsQueue : Obligations.StIssueJoinsItsQueue := by
  unfold Obligations.StIssueJoinsItsQueue
  intro c w d s hat hclk hmal hdesc passes hbad
  have clocked : (!s.clkOn c 3) = false := by rw [hclk]; rfl
  refine ⟨fun hroom => ⟨_, exec_stIssue hmal hdesc hbad, ?room⟩, fun hfull => ⟨_, exec_stIssue hmal hdesc hbad, ?full⟩⟩
  case room =>
    rw [issue_ok _ hat rfl clocked rfl (decide_eq_false (Nat.not_le.mpr hroom))]
    refine ⟨(onlyCore_advance s c).then (onlyCore_upd _ c _), ?_⟩
    rw [core_updCore_same, core_advance_same]
    rfl
  case full =>
    rw [issue_full _ hat rfl clocked rfl (decide_eq_true hfull)]
    exact ⟨onlyCore_seqWait s c 2 none, core_updCore_same s c _⟩

/-! A slot. -/

/-- A core whose STE has taken the head of its issue queue into a slot (R213). -/
def CoreSt.seats (k : CoreSt) (rest : List StCmd) (i : Nat) (x : Strm) : CoreSt :=
  { k with ste := { k.ste with q := rest, order := k.ste.order + 1, slots := k.ste.slots.set {} i x } }

/-- The stream that the head of the issue queue becomes in a slot, with its descriptor as it has been read, if it was (R217, R220, R235). -/
def State.headStream (s : State) (c : Nat) (q : StCmd) (read : Option (List Byte)) : Strm :=
  let d := wordsLe 16 (read.getD [])
  let p := passOf d q.passes
  let e := (s.scaleAt s.sched.secs s.sched.imgOff (dSidx d)).getD { base := 0, nv := 0, ng := 0 }
  { busy := true, desc := d, descNo := stDesc q.w, pass := p, sig := stSig q.w, gaddr := sqGaddr q.w, add := q.w.w3.toNat, t0 := s.tsc,
    epoch := s.sched.placeEpoch, order := (s.core c).ste.order, secs := if dType d = 4 then panelSecs d e p else [], sbase := e.base,
    snv := e.nv, sng := e.ng, status := if read.isSome then 0 else 3 }

theorem seat_eq (u : State) (c i : Nat) (rest : List StCmd) (x : Strm) :
    (u.updCore c (fun k => { k with ste := { k.ste with q := rest, order := k.ste.order + 1 } })).updStrm c i (fun _ => x) =
      u.updCore c (fun k => k.seats rest i x) :=
  updCore_updCore u c _ _

/-- The landing that a FWDLAND arms in a pass (R218, R223). -/
def State.armedLanding (s : State) (c i : Nat) (d : List Word) (passes : List Nat) : Landing :=
  { no := s.fab.landNo, hint := dDhint d, core := c, slot := i, indir := dIndir d, tag := dTag d, fwd := dFwd d, outdir := dOutdir d,
    dst := gaOff (gaAdd (dDst d) (64 * passOf d passes * dDlstr d)), len := 64 * dRun d }

theorem MemOnly.seats {s u : State} (h : MemOnly s u) (c i : Nat) (rest : List StCmd) (x : Strm) :
    let t := u.updCore c (fun k => k.seats rest i x)
    (t.core c = (s.core c).seats rest i x ∧ (∀ k, k ≠ c → t.core k = s.core k) ∧ t.ports = s.ports ∧ t.sched = s.sched) ∧
      t.landings = s.landings ∧ t.fab = s.fab := by
  refine ⟨⟨?_, fun k hk => ?_, ?_, ?_⟩, ?_, ?_⟩
  · rw [core_updCore_same, h.core]
  · rw [core_updCore, if_neg hk, h.core]
  all_goals rw [h]; rfl

section
variable {c : Fin 136} {i : Fin 16} {q : StCmd} {rest : List StCmd} {off : Nat} {s : State} {r : State × Option (List Byte)}
  (hfree : (s.strm c i).busy = false) (hlow : ∀ j, j < i.val → (s.strm c j).busy = true)
include hfree hlow

theorem find_free_slot : (List.range 16).find? (fun j => !(s.strm c j).busy) = some i.val := by
  rw [List.find?_range_eq_some]
  exact ⟨by simp [hfree], List.mem_range.mpr i.isLt, fun j hj => by simp [hlow j hj]⟩

variable (hq : (s.core c).ste.q = q :: rest) (hst : s.sched.st = 3) (hfault : s.sched.faulting = false) (hclk : s.clkOn c 3 = true)
  (hoff : descOff s.sched.secs s.sched.imgOff c (stDesc q.w) = some off) (hr : s.memRead (streamNo c i) off 64 0 noErr = r)
include hq hst hfault hclk hoff hr

/-- The head of the queue takes the lowest free slot, unless its descriptor is a landing or fails its checks (R213, R217, R235). -/
theorem exec_streamSlotTake_seats (hland : r.2.isSome = true → dType (wordsLe 16 (r.2.getD [])) ≠ 5)
    (hok : r.2.isSome = true → s.descFault c (wordsLe 16 (r.2.getD [])) q.passes = none) :
    exec (.streamSlotTake c) s = .next (r.1.updCore c (fun k => k.seats rest i (s.headStream c q r.2))) := by
  show execStreamSlotTake c s = _
  simp only [execStreamSlotTake, hq, find_free_slot hfree hlow, hst, hfault, hclk, hoff, hr]
  have noLanding : ¬ (dType (wordsLe 16 (r.2.getD [])) = 5 ∧ r.2.isSome = true) := fun h => hland h.2 h.1
  have passes : ¬ (r.2.isSome = true ∧ (s.descFault c (wordsLe 16 (r.2.getD [])) q.passes).isSome = true) := by
    rintro ⟨hread, hbad⟩
    simp [hok hread] at hbad
  rw [if_neg (by simp), if_neg (fun h => noLanding h.1), dif_neg passes, if_neg noLanding, seat_eq]
  rfl

/-- A FWDLAND takes its slot and arms its landing, when its direction has room for it (R223, R253). -/
theorem exec_streamSlotTake_arms (hland : dType (wordsLe 16 (r.2.getD [])) = 5 ∧ r.2.isSome = true)
    (hnew : s.landingFor (dIndir (wordsLe 16 (r.2.getD []))) (dTag (wordsLe 16 (r.2.getD []))) = none)
    (hroom : (s.landings.filter (fun l => l.indir = dIndir (wordsLe 16 (r.2.getD [])))).length < 16)
    (hok : s.descFault c (wordsLe 16 (r.2.getD [])) q.passes = none) :
    exec (.streamSlotTake c) s = .next { r.1.updCore c (fun k => k.seats rest i (s.headStream c q r.2)) with
      landings := s.landings ++ [s.armedLanding c i (wordsLe 16 (r.2.getD [])) q.passes],
      fab := { s.fab with landNo := s.fab.landNo + 1 } } := by
  have read : MemOnly s r.1 := hr ▸ memOnly_memRead s (streamNo c i) off 64 0 noErr
  obtain ⟨-, landings, fab⟩ := read.seats c i rest (s.headStream c q r.2)
  show execStreamSlotTake c s = _
  simp only [execStreamSlotTake, hq, find_free_slot hfree hlow, hst, hfault, hclk, hoff, hr]
  rw [if_neg (by simp), if_neg (by simp [hnew, hroom]), dif_neg (by simp [hok]), if_pos hland, seat_eq, State.armedLanding, ← landings, ← fab]
  rfl

/-- A descriptor that has become illegal since its issue faults the sequencer (log 73). -/
theorem exec_streamSlotTake_faults {f : Nat} (hland : dType (wordsLe 16 (r.2.getD [])) ≠ 5) (hread : r.2.isSome = true)
    (hbad : s.descFault c (wordsLe 16 (r.2.getD [])) q.passes = some f) :
    exec (.streamSlotTake c) s = .next (r.1.seqFault c f q.w) := by
  show execStreamSlotTake c s = _
  simp only [execStreamSlotTake, hq, find_free_slot hfree hlow, hst, hfault, hclk, hoff, hr]
  rw [if_neg (by simp), if_neg (fun h => hland h.1.1), dif_pos ⟨hread, by simp [hbad]⟩]
  simp only [hbad, Option.get_some]

end

/-- Settles O20: the read of the descriptor touches memory only, and the slot is taken, the landing armed, or the sequencer faulted. -/
theorem streamTakesTheLowestSlot : Obligations.StreamTakesTheLowestSlot := by
  unfold Obligations.StreamTakesTheLowestSlot
  intro c i q rest off s hq hfree hlow hst hfault hclk hoff r d p e x takes
  have read : MemOnly s r.1 := memOnly_memRead s (streamNo c i) off 64 0 noErr
  obtain ⟨taken, landings, fab⟩ := read.seats c i rest x
  refine ⟨fun hread hok => ⟨fun hland => ?copy, fun hland hnew hroom => ?landing⟩, fun f hread hbad hland => ?fault, fun hnone => ?poison⟩
  case copy =>
    exact ⟨_, exec_streamSlotTake_seats hfree hlow hq hst hfault hclk hoff rfl (fun _ => hland) (fun _ => hok),
      taken, landings, fab⟩
  case landing =>
    refine ⟨_, exec_streamSlotTake_arms hfree hlow hq hst hfault hclk hoff rfl ⟨hland, hread⟩ hnew hroom hok, taken, rfl, rfl⟩
  case fault =>
    exact ⟨_, exec_streamSlotTake_faults hfree hlow hq hst hfault hclk hoff rfl hland hread hbad, rfl⟩
  case poison =>
    have unread : ¬ r.2.isSome = true := by simp [hnone]
    exact ⟨_, exec_streamSlotTake_seats hfree hlow hq hst hfault hclk hoff rfl (fun h => absurd h unread) (fun h => absurd h unread),
      taken, landings, fab⟩

end Sys2Proof.Machine

/-! SUPPORT. Streams in their slots: reads after an update, the end at an illegal index (R221), and a grant that becomes a request of a
slice (R214, R215, R228 to R230). -/

namespace Sys2Proof.SMap

/-- What holds of every listed entry and of an unlisted one holds at every key. -/
theorem get_of_forall {α : Type} {P : α → Prop} {d : α} {m : SMap α} (hd : P d) (hm : ∀ x ∈ m, P x.2) (a : Nat) : P (m.get d a) := by
  induction m with
  | nil => exact hd
  | cons x m ih =>
    rw [get_cons]
    split
    · exact hm x List.mem_cons_self
    · exact ih (fun y hy => hm y (List.mem_cons_of_mem x hy))

end Sys2Proof.SMap

namespace Sys2Proof.Machine

/-! Slots. -/

@[simp] theorem strm_updStrm (s : State) (c i d j : Nat) (f : Strm → Strm) :
    (s.updStrm c i f).strm d j = if d = c ∧ j = i then f (s.strm c i) else s.strm d j := by
  unfold State.strm State.updStrm
  rw [core_updCore]
  by_cases hd : d = c
  · subst hd
    simp
  · simp [hd]

theorem updStrm_updStrm (s : State) (c i : Nat) (f g : Strm → Strm) : (s.updStrm c i f).updStrm c i g = s.updStrm c i (g ∘ f) := by
  simp [State.updStrm, updCore_updCore, Function.comp_def, SMap.upd]

theorem strm_updCore_of_slots (s : State) (c d j : Nat) {f : CoreSt → CoreSt} (h : (f (s.core c)).ste.slots = (s.core c).ste.slots) :
    (s.updCore c f).strm d j = s.strm d j := by
  unfold State.strm
  rw [core_updCore]
  split
  next hd => rw [h, hd]
  next => rfl

theorem core_updStrm_of_ne (s : State) {c d : Nat} (h : d ≠ c) (i : Nat) (f : Strm → Strm) : (s.updStrm c i f).core d = s.core d := by
  rw [State.updStrm, core_updCore, if_neg h]

/-! The end at an illegal index (R221). -/

/-- A stream whose next index is at or above IMAX ends with status INDEX (R221). -/
def Strm.indexEnded (t : Strm) : Strm := if t.busy = true ∧ t.status = 0 ∧ strmNext t = .badIndex then { t with status := 6 } else t

theorem indexEnded_empty : ({} : Strm).indexEnded = {} := if_neg (fun ⟨busy, _⟩ => Bool.false_ne_true busy)

theorem indexEnded_of_ne {t : Strm} (h : strmNext t ≠ .badIndex) : t.indexEnded = t := if_neg (fun ⟨_, _, bad⟩ => h bad)

theorem slots_indexEnds (s : State) (c : Nat) :
    ((s.indexEnds c).core c).ste.slots = (s.core c).ste.slots.mapV {} (fun _ t => t.indexEnded) :=
  congrArg (fun k => k.ste.slots) (core_updCore_same s c _)

@[simp] theorem strm_indexEnds (s : State) (c j : Nat) : (s.indexEnds c).strm c j = (s.strm c j).indexEnded := by
  unfold State.strm
  rw [slots_indexEnds]
  exact SMap.get_mapV _ _ _ j indexEnded_empty

theorem core_indexEnds_of_ne (s : State) {c d : Nat} (h : d ≠ c) : (s.indexEnds c).core d = s.core d := by
  rw [State.indexEnds, core_updCore, if_neg h]

/-- A stream whose next index is legal in each slot, with the slots in canonical form: no stream ends (R221). -/
theorem core_indexEnds_of_legal {s : State} {c : Nat} (hlegal : (s.core c).ste.slots.all (fun x => decide (strmNext x.2 ≠ .badIndex)) = true)
    (hwf : SMap.wf {} (s.core c).ste.slots = true) : (s.indexEnds c).core c = s.core c := by
  have kept : (s.core c).ste.slots.mapV {} (fun _ t => t.indexEnded) = (s.core c).ste.slots := by
    refine SMap.eq_of_get ({} : Strm) _ _ 0 (SMap.wf_mapV _ _ _) hwf (fun j => ?_)
    rw [SMap.get_mapV _ _ _ _ indexEnded_empty]
    exact indexEnded_of_ne (SMap.get_of_forall (P := fun t => strmNext t ≠ .badIndex) (by decide)
      (fun x hx => of_decide_eq_true (List.all_eq_true.mp hlegal x hx)) j)
  rw [State.indexEnds, core_updCore_same]
  show { s.core c with ste := { (s.core c).ste with slots := (s.core c).ste.slots.mapV {} (fun _ t => t.indexEnded) } } = _
  rw [kept]

/-! A grant. -/

/-- The grants that pass a core's other busy streams over are counted, and slot `i` has no starvation left (R230). -/
def State.passedOver (s : State) (c i : Nat) : State :=
  s.updCore c (fun k => { k with ste := { k.ste with
    slots := k.ste.slots.mapV {} (fun j t => { t with starve := if j = i ∨ t.busy = false then 0 else t.starve + 1 }) } })

/-- A stream with one more request outstanding, in a dedicated entry while one is free and else in a shared one (R215); a request that
moves data moves its count of grants on. -/
def Strm.asks (t : Strm) (k : ReqKind) (data : Bool) : Strm :=
  { t with outst := t.outst ++ [k], shared := if dedicatedFree t then t.shared else t.shared ++ [k], g := if data then t.g + 1 else t.g }

theorem strm_passedOver (s : State) (c i j : Nat) :
    (s.passedOver c i).strm c j =
      { s.strm c j with starve := if j = i ∨ (s.strm c j).busy = false then 0 else (s.strm c j).starve + 1 } := by
  have slots := congrArg (fun k => k.ste.slots) (core_updCore_same s c (fun k => { k with ste := { k.ste with
    slots := k.ste.slots.mapV {} (fun j t => { t with starve := if j = i ∨ t.busy = false then 0 else t.starve + 1 }) } }))
  unfold State.strm State.passedOver
  rw [slots]
  exact SMap.get_mapV _ _ _ j (by simp)

section
variable {s : State} {c i : Nat} {ecc : List (Nat × Ecc)}

theorem grantTo_unit {u src dst : Nat} (h : strmNext (s.strm c i) = .unit u src dst) : s.grantTo c i ecc =
    ((s.passedOver c i).updStrm c i (fun t => t.asks (.unit u dst) true)).sendRead c i (.unit u dst) src (dShint (s.strm c i).desc) ecc
      (fun s d => (s.steWrite c i u dst d).flushHeld 513 c i) := by
  simp only [State.grantTo, h]
  rfl

theorem grantTo_index {sec : Nat} (h : strmNext (s.strm c i) = .index sec) : s.grantTo c i ecc =
    ((s.passedOver c i).updStrm c i (fun t => { t.asks (.index sec) false with idxWait := true })).sendRead
      c i (.index sec) (64 * sec) 0 ecc (fun s d => s.idxArrive c i sec d) := by
  simp only [State.grantTo, h, updStrm_updStrm]
  rfl

/-- A read of local HBM is queued at the slice that homes it (R214). -/
theorem sendRead_hbm {k : ReqKind} {g a hint : Nat} {got : State → List Byte → State} (hlocal : s.gaLocal g = true)
    (hplace : placeOf (gaOff g) = .hbm a) : s.sendRead c i k g hint ecc got = s.toSlice (.stream c i k) a .read hint := by
  simp only [State.sendRead, hlocal, hplace, if_true]

end

theorem CoresOnly.gaLocal {s u : State} (h : CoresOnly s u) (g : Nat) : u.gaLocal g = s.gaLocal g := by
  rw [h]
  rfl

/-- A request that a change of cores alone precedes: it joins the queue of its region's slice, and the module differs in cores and regions
only. -/
theorem CoresOnly.toSlice {s u : State} (h : CoresOnly s u) (w : ReqOwner) (a : Nat) (op : MemOp) (hint : Nat) :
    let t := u.toSlice w a op hint
    let r := s.resolve a
    t = { s with cores := t.cores, mem := { s.mem with regions := t.mem.regions } } ∧ t.cores = u.cores ∧
    t.region r.1 = { s.region r.1 with q := (s.region r.1).q ++ [{ owner := w, band := bandOf a, addr := r.2, op := op, hint := hint }] } ∧
    ∀ d, d ≠ r.1 → t.region d = s.region d := by
  have home : u.resolve a = s.resolve a := by rw [h]; rfl
  have region : ∀ d, u.region d = s.region d := fun d => by rw [h]; rfl
  intro t r
  have queued : t = u.updRegion r.1 (fun g => { g with
      q := g.q ++ [{ owner := w, band := bandOf a, addr := r.2, op := op, hint := hint }] }) := by
    show State.toSlice u w a op hint = _
    simp only [State.toSlice, home]
    rfl
  rw [queued]
  refine ⟨?_, rfl, ?_, fun d hd => ?_⟩
  · rw [h]
    rfl
  · rw [region_updRegion_same, region]
  · rw [region_updRegion_of_ne u hd, region]

/-- The module after a grant to slot `i` of core `c` whose request is queued at the slice of local offset `a`: the slot holds `x`, every
other busy stream of the core has been passed over once more, and nothing else but the slice's queue has changed (R214, R230). -/
def State.Asked (s : State) (c i : Nat) (k : ReqKind) (a hint : Nat) (x : Strm) (t : State) : Prop :=
  t = { s with cores := t.cores, mem := { s.mem with regions := t.mem.regions } } ∧ t.strm c i = x ∧
  (∀ j, j ≠ i → t.strm c j = { s.strm c j with starve := if (s.strm c j).busy then (s.strm c j).starve + 1 else 0 }) ∧
  t.region (s.resolve a).1 = { s.region (s.resolve a).1 with q := (s.region (s.resolve a).1).q ++
    [{ owner := .stream c i k, band := bandOf a, addr := (s.resolve a).2, op := .read, hint := hint }] } ∧
  (∀ d, d ≠ (s.resolve a).1 → t.region d = s.region d) ∧ ∀ d, d ≠ c → t.core d = s.core d

/-- A grant changes the slots of its core, and its read is queued at a slice of local HBM. -/
theorem asked_of_sendRead {s : State} {c i : Nat} {k : ReqKind} {g a hint : Nat} {f : Strm → Strm} (hlocal : s.gaLocal g = true)
    (hplace : placeOf (gaOff g) = .hbm a) (ecc : List (Nat × Ecc)) (got : State → List Byte → State) :
    s.Asked c i k a hint (f { s.strm c i with starve := 0 })
      (((s.passedOver c i).updStrm c i f).sendRead c i k g hint ecc got) := by
  have cores : CoresOnly s ((s.passedOver c i).updStrm c i f) := rfl
  have slots := strm_updStrm (s.passedOver c i) c i c
  have others : ∀ d, d ≠ c → ((s.passedOver c i).updStrm c i f).core d = s.core d := fun d hd => by
    rw [core_updStrm_of_ne _ hd, State.passedOver, core_updCore, if_neg hd]
  rw [sendRead_hbm ((cores.gaLocal g).trans hlocal) hplace]
  obtain ⟨frame, same, queue, regions⟩ := cores.toSlice (.stream c i k) a .read hint
  have core : ∀ d, State.core (State.toSlice ((s.passedOver c i).updStrm c i f) (.stream c i k) a .read hint) d =
      ((s.passedOver c i).updStrm c i f).core d := fun d => by rw [State.core, same]; rfl
  have strm : ∀ j, State.strm (State.toSlice ((s.passedOver c i).updStrm c i f) (.stream c i k) a .read hint) c j =
      ((s.passedOver c i).updStrm c i f).strm c j := fun j => by rw [State.strm, core]; rfl
  refine ⟨frame, ?_, fun j hj => ?_, queue, regions, fun d hd => (core d).trans (others d hd)⟩
  · rw [strm, slots, if_pos ⟨rfl, rfl⟩, strm_passedOver, if_pos (.inl rfl)]
  · rw [strm, slots, if_neg (fun h => hj h.2), strm_passedOver]
    cases (s.strm c j).busy <;> simp [hj]

/-- A unit whose source is in local HBM becomes a read under the descriptor's hint (R214). -/
theorem asked_of_unit {s : State} {c i u src dst a : Nat} (h : strmNext (s.strm c i) = .unit u src dst) (hlocal : s.gaLocal src = true)
    (hplace : placeOf (gaOff src) = .hbm a) (ecc : List (Nat × Ecc)) :
    s.Asked c i (.unit u dst) a (dShint (s.strm c i).desc) (Strm.asks { s.strm c i with starve := 0 } (.unit u dst) true)
      (s.grantTo c i ecc) := by
  rw [grantTo_unit h]
  exact asked_of_sendRead (f := fun t => t.asks (.unit u dst) true) hlocal hplace ecc _

/-- An index sector in local HBM becomes a read with no hint, and the stream waits for it (R214, R221). -/
theorem asked_of_index {s : State} {c i sec a : Nat} (h : strmNext (s.strm c i) = .index sec) (hlocal : s.gaLocal (64 * sec) = true)
    (hplace : placeOf (gaOff (64 * sec)) = .hbm a) (ecc : List (Nat × Ecc)) :
    s.Asked c i (.index sec) a 0 { Strm.asks { s.strm c i with starve := 0 } (.index sec) false with idxWait := true }
      (s.grantTo c i ecc) := by
  rw [grantTo_index h]
  exact asked_of_sendRead (f := fun t => { t.asks (.index sec) false with idxWait := true }) hlocal hplace ecc _

section
variable {c : Fin 136} {ecc : List (Nat × Ecc)} {s : State}
  (hst : s.sched.st = 3) (hfault : s.sched.faulting = false) (hclk : s.clkOn c 3 = true)
include hst hfault hclk

/-- With no eligible stream there is no grant (R229). -/
theorem exec_steGrant_none (h : chooseSlot ((s.indexEnds c).core c) s.tsc = none) :
    exec (.steGrant ⟨c, ecc⟩) s = .next (s.indexEnds c) := by
  show execSteGrant ⟨c, ecc⟩ s = _
  have chosen : chooseSlot ((s.indexEnds c).core c) (s.indexEnds c).tsc = none := h
  simp only [execSteGrant, hst, hfault, hclk, chosen]
  exact if_neg (by simp)

/-- The chosen stream receives the grant (R230). -/
theorem exec_steGrant_some {i : Nat} (h : chooseSlot ((s.indexEnds c).core c) s.tsc = some i) :
    exec (.steGrant ⟨c, ecc⟩) s = .next ((s.indexEnds c).grantTo c i ecc) := by
  show execSteGrant ⟨c, ecc⟩ s = _
  have chosen : chooseSlot ((s.indexEnds c).core c) (s.indexEnds c).tsc = some i := h
  simp only [execSteGrant, hst, hfault, hclk, chosen]
  exact if_neg (by simp)

end

/-- What a grant leaves when no stream has ended for its index is what it leaves of the state before. -/
theorem asked_of_indexEnds {s t : State} {c i : Nat} {k : ReqKind} {a hint : Nat} {x : Strm} (hcore : (s.indexEnds c).core c = s.core c)
    (h : (s.indexEnds c).Asked c i k a hint x t) : s.Asked c i k a hint x t := by
  have slot : ∀ j, (s.indexEnds c).strm c j = s.strm c j := fun j => by rw [State.strm, hcore]; rfl
  obtain ⟨frame, own, others, queue, regions, cores⟩ := h
  exact ⟨frame, own, fun j hj => slot j ▸ others j hj, queue, regions, fun d hd => (cores d hd).trans (core_indexEnds_of_ne s hd)⟩

/-- Settles O21: the grant as the model makes it, and the request that a unit or an index sector in local HBM becomes. -/
theorem steGrantSendsARequest : Obligations.SteGrantSendsARequest := by
  unfold Obligations.SteGrantSendsARequest
  intro c ecc s hst hfault hclk v
  refine ⟨fun h => ⟨_, exec_steGrant_none hst hfault hclk h, rfl⟩, fun i h => ⟨_, exec_steGrant_some hst hfault hclk h, rfl⟩,
    fun i a hlegal hwf hbusy hchosen => ?_⟩
  intro x r pool asks
  have hcore : v.core c = s.core c := core_indexEnds_of_legal hlegal hwf
  have hslot : v.strm c i = x := by rw [State.strm, hcore]; rfl
  have granted := exec_steGrant_some (ecc := ecc) hst hfault hclk (i := i) (by rw [show (s.indexEnds c).core c = s.core c from hcore, hchosen])
  refine ⟨fun u src dst hnext hlocal hplace => ⟨_, granted, ?unit⟩, fun sec hnext hlocal hplace => ⟨_, granted, ?index⟩⟩
  case unit =>
    have asked := asked_of_indexEnds hcore (asked_of_unit (s := v) (i := i) (hslot ▸ hnext) hlocal hplace ecc)
    rw [hslot] at asked
    exact asked
  case index =>
    have asked := asked_of_indexEnds hcore (asked_of_index (s := v) (i := i) (hslot ▸ hnext) hlocal hplace ecc)
    rw [hslot] at asked
    exact asked

end Sys2Proof.Machine

/-! SUPPORT. Responses of a stream engine (R215, R233, R235 to R237), and the ends of streams (R232, R234, R236, R238). -/

namespace Sys2Proof.Machine

/-! Responses. -/

/-- A core whose `k`-th waiting response has been taken. -/
def CoreSt.takesResp (x : CoreSt) (k : Nat) : CoreSt := { x with ste := { x.ste with resp := x.ste.resp.eraseIdx k } }

/-- A stream whose request is complete (R215). -/
def Strm.completes (t : Strm) (k : ReqKind) : Strm := { t with outst := t.outst.erase k, shared := t.shared.erase k }

/-- A stream that has met a status other than OK keeps the first (R236). -/
def Strm.meets (t : Strm) (st : Nat) : Strm := { t with status := if t.status = 0 then st else t.status }

theorem flushHeld_of_none (n : Nat) {s : State} {c i : Nat} (h : (s.strm c i).held = []) : State.flushHeld n s c i = s := by
  cases n with
  | zero => rfl
  | succ n => simp [State.flushHeld, h]

/-- A unit completes in a stream with no write that waits (R215, R233). -/
theorem unitDone_of_none {s : State} {c i : Nat} (h : (s.strm c i).held = []) (u dst : Nat) :
    s.unitDone c i u dst = s.updStrm c i (fun t => t.completes (.unit u dst)) := by
  refine flushHeld_of_none 513 ?_
  rw [State.reqDone, strm_updStrm, if_pos ⟨rfl, rfl⟩]
  exact h

/-- The acknowledgement of a write, or a response with a status, in a stream with no write that waits, completes its request (R215, R233,
R236). -/
theorem steArrive_unit {s : State} {c : Nat} {r : Resp} {n dst : Nat} (hkind : r.kind = .unit n dst) (hdata : r.data = [] ∨ r.status ≠ 0)
    (hheld : (s.strm c r.slot).held = []) :
    s.steArrive c r = s.updStrm c r.slot (fun t => (if r.status = 0 then t else t.meets r.status).completes r.kind) := by
  unfold State.steArrive
  extract_lets i
  split
  next hst =>
    simp only [hkind]
    have failed : ((s.strmFail c i r.status).strm c i).held = [] := by
      rw [State.strmFail, strm_updStrm, if_pos ⟨rfl, rfl⟩]
      exact hheld
    rw [unitDone_of_none failed, State.strmFail, updStrm_updStrm]
    rfl
  next hst =>
    have ok : r.status = 0 := not_not.mp hst
    simp only [hkind, hdata.resolve_right hst, List.isEmpty_nil, if_true, ok]
    exact unitDone_of_none hheld n dst

/-- A strided stream names no index (R221). -/
theorem strmNext_of_strided {t : Strm} (h : dType t.desc = 1) : strmNext t ≠ .badIndex := by
  simp only [strmNext, h]
  split <;> simp

/-- A response arrives at a live request, frees the entry of a cancelled stream, or is discarded (R215, R237). -/
theorem exec_steResponse {c : Fin 136} {k : Nat} {r : Resp} {s : State} (hr : (s.core c).ste.resp[k]? = some r)
    (hlost : s.clock.lost = false) :
    let u := s.updCore c (fun x => x.takesResp k)
    exec (.steResponse c k) s =
      if (s.strm c r.slot).busy = true ∧ (s.strm c r.slot).outst.contains r.kind = true then
        if (s.strm c r.slot).status = 1 then .next (u.reqDone c r.slot r.kind) else .next ((u.steArrive c r).indexEnds c)
      else .next u := by
  show execSteResponse c k s = _
  rw [← strm_updCore_of_slots s c c r.slot (f := fun x => x.takesResp k) rfl]
  simp only [execSteResponse, hlost, hr]
  rfl

/-- The acknowledgement of a write of a strided stream, or its end with a status, changes the stream's slot and nothing else of the
module's cores but the response taken (R215, R233, R236). -/
theorem steArrive_strided_spec {s : State} {c k : Nat} {r : Resp} {n dst : Nat} (hkind : r.kind = .unit n dst)
    (hdata : r.data = [] ∨ r.status ≠ 0) (hheld : (s.strm c r.slot).held = []) (htype : dType (s.strm c r.slot).desc = 1)
    (hst : (s.strm c r.slot).status = 0) :
    let t := ((s.updCore c (fun x => x.takesResp k)).steArrive c r).indexEnds c
    (∀ d, d ≠ c → t.core d = s.core d) ∧ (t.core c).ste.resp = (s.core c).ste.resp.eraseIdx k ∧
      t.strm c r.slot = { Strm.completes (s.strm c r.slot) r.kind with status := r.status } := by
  have slot := strm_updCore_of_slots s c c r.slot (f := fun x => x.takesResp k) rfl
  rw [steArrive_unit hkind hdata (slot ▸ hheld)]
  refine ⟨fun d hd => ?_, ?_, ?_⟩
  · rw [core_indexEnds_of_ne _ hd, core_updStrm_of_ne _ hd, core_updCore, if_neg hd]
  · rw [State.indexEnds, core_updCore_same, State.updStrm, core_updCore_same, core_updCore_same]
    rfl
  · have arrived : (if r.status = 0 then s.strm c r.slot else (s.strm c r.slot).meets r.status).completes r.kind =
        { Strm.completes (s.strm c r.slot) r.kind with status := r.status } := by
      split
      next h => rw [Strm.completes, h, ← hst]
      next h => rw [Strm.meets, if_pos hst]; rfl
    rw [strm_indexEnds, strm_updStrm, if_pos ⟨rfl, rfl⟩, slot, arrived]
    exact indexEnded_of_ne (strmNext_of_strided htype)

/-! What a stop of the image leaves of ended streams. -/

/-- StreamErrors, and in each core STE_ERR and which slots are busy, are the same in two states. -/
structure KeepsEnds (s t : State) : Prop where
  errors : t.mem.streamErrors = s.mem.streamErrors
  err : ∀ d, (t.core d).ste.err = (s.core d).ste.err
  busy : ∀ d j, (t.strm d j).busy = (s.strm d j).busy

namespace KeepsEnds

theorem refl (s : State) : KeepsEnds s s := ⟨rfl, fun _ => rfl, fun _ _ => rfl⟩

theorem trans {s t u : State} (h : KeepsEnds s t) (g : KeepsEnds t u) : KeepsEnds s u :=
  ⟨g.errors.trans h.errors, fun d => (g.err d).trans (h.err d), fun d j => (g.busy d j).trans (h.busy d j)⟩

theorem forEach {α : Type} {f : State → α → State} (hf : ∀ s x, KeepsEnds s (f s x)) (xs : List α) (s : State) :
    KeepsEnds s (s.forEach xs f) :=
  List.foldlRecOn (motive := KeepsEnds s) xs f (.refl s) (fun t kept x _ => kept.trans (hf t x))

theorem of_core {s t : State} (h : t.mem.streamErrors = s.mem.streamErrors) (g : ∀ d, (t.core d).ste = (s.core d).ste) : KeepsEnds s t :=
  ⟨h, fun d => by rw [g], fun d j => by rw [State.strm, g]; rfl⟩

end KeepsEnds

theorem RegionWork.keepsEnds {s t : State} {r : Nat} (h : RegionWork s t r) : KeepsEnds s t :=
  .of_core (by rw [h.frame]) (fun d => by rw [h.core])

theorem keepsEnds_updCore (s : State) (c : Nat) {f : CoreSt → CoreSt} (herr : ∀ k, (f k).ste.err = k.ste.err)
    (hbusy : ∀ k j, ((f k).ste.slots.get {} j).busy = (k.ste.slots.get {} j).busy) : KeepsEnds s (s.updCore c f) := by
  refine ⟨rfl, fun d => ?_, fun d j => ?_⟩
  all_goals simp only [State.strm, core_updCore]
  · split
    next h => rw [herr, h]
    next => rfl
  · split
    next h => rw [hbusy, h]
    next => rfl

theorem keepsEnds_post (s : State) (code sev src : Nat) (args : List Nat) : KeepsEnds s (s.post code sev src args) :=
  .of_core (by rw [mem_post]) (fun d => by rw [core_post])

theorem keepsEnds_devWrite (s : State) (o : Nat) (bs : List Byte) : KeepsEnds s (s.devWrite o bs) :=
  List.foldlRecOn (motive := fun (acc : State × Bool × List Byte) => KeepsEnds s acc.1) _ _ (.refl s)
    (fun acc kept _ _ => kept.trans (regionWork_mscWriteBy acc.1 _ deviceStream _ _ _ _ 0 noErr).keepsEnds)

theorem keepsEnds_endSegment (s : State) (c endk : Nat) : KeepsEnds s (s.endSegment c endk) := by
  unfold State.endSegment
  extract_lets q n o
  split
  · exact .refl s
  · extract_lets s1
    have recorded : KeepsEnds s s1 := by
      unfold s1
      split
      · exact keepsEnds_updCore s c (fun _ => rfl) (fun _ _ => rfl)
      · exact (keepsEnds_devWrite s _ _).trans (keepsEnds_updCore _ c (fun _ => rfl) (fun _ _ => rfl))
    split
    · exact recorded.trans (keepsEnds_post s1 _ _ _ _)
    · exact recorded

theorem keepsEnds_haltSeq (fcode : Nat) (s : State) (c : Nat) : KeepsEnds s (s.haltSeq fcode c) := by
  unfold State.haltSeq
  extract_lets q
  split
  · exact (keepsEnds_endSegment s c 2).trans (keepsEnds_updCore _ c (fun _ => rfl) (fun _ _ => rfl))
  · exact .refl s

theorem keepsEnds_raiseFlags (s : State) (c : Fin 136) (fl : Flags) : KeepsEnds s (s.raiseFlags (.mxe c) fl) := by
  obtain ⟨r, -, cores⟩ := core_raiseFlags s (.mxe c) fl
  have frame := (onlyCore_raiseFlags s (.mxe c) c fl ⟨c, rfl, .inl rfl⟩).1
  refine .of_core (by rw [frame]) (fun d => ?_)
  rw [cores, core_setFlagReg]
  show (if d = c.val then _ else _ : CoreSt).ste = _
  split <;> rfl

/-- The requests that a stop withdraws from the slices leave the memory's counts (R237). -/
theorem streamErrors_forEach_updRegion (g : RegionSt → RegionSt) (rs : List Nat) (s : State) :
    (s.forEach rs (fun s r => s.updRegion r g)).mem.streamErrors = s.mem.streamErrors :=
  List.foldlRecOn (motive := fun t : State => t.mem.streamErrors = s.mem.streamErrors) rs _ rfl (fun _ kept _ _ => kept)

/-- A core whose STE has cancelled its streams: those with requests inside a slice wait for them alone (R237). -/
def CoreSt.cancels (k : CoreSt) (admitted : List (Nat × ReqKind)) : CoreSt :=
  { k with ste := { k.ste with
    q := [], resp := [], sigWait := [],
    slots := k.ste.slots.mapV {} (fun i t =>
      if t.busy then
        let o := (admitted.filter (fun q => q.1 = i)).map Prod.snd
        { t with status := 1, idxWait := false, held := [], outst := o, shared := t.shared.filter (fun k => o.contains k) }
      else t) } }

theorem busy_cancels (k : CoreSt) (admitted : List (Nat × ReqKind)) (j : Nat) :
    ((k.cancels admitted).ste.slots.get {} j).busy = (k.ste.slots.get {} j).busy := by
  unfold CoreSt.cancels
  simp only
  rw [SMap.get_mapV _ _ _ _ rfl]
  split
  · rfl
  · rfl

/-- A change of landings and fabric, and then the cancellation of a core's streams. -/
theorem KeepsEnds.cancels {s t : State} (h : KeepsEnds s t) (l : List Landing) (x : FabSt) (c : Nat) (admitted : List (Nat × ReqKind)) :
    KeepsEnds s (State.updCore { t with landings := l, fab := x } c (fun k => k.cancels admitted)) := by
  have forgotten : KeepsEnds t { t with landings := l, fab := x } := .of_core rfl (fun _ => rfl)
  exact (h.trans forgotten).trans (keepsEnds_updCore _ c (fun _ => rfl) (fun k j => busy_cancels k admitted j))

/-- A stop cancels the streams of a core, whose slots stay busy until their last response (R235, R237). -/
theorem keepsEnds_steCancel (s : State) (c : Nat) : KeepsEnds s (s.steCancel c) := by
  have withdrawn : ∀ g, KeepsEnds s (s.forEach allRegions (fun s r => s.updRegion r g)) := fun g =>
    .of_core (streamErrors_forEach_updRegion g allRegions s)
      (fun d => by rw [(leavesCores_forEach_updRegion g allRegions s).core d List.not_mem_nil])
  exact (withdrawn _).cancels _ _ c _

theorem keepsEnds_abandonCore (s : State) (c : Nat) : KeepsEnds s (s.abandonCore c) := by
  unfold State.abandonCore
  extract_lets xs s1 s2 s3
  have drained : KeepsEnds s s1 := keepsEnds_updCore s c (fun _ => rfl) (fun _ _ => rfl)
  have raised : KeepsEnds s1 s2 := by
    unfold s2
    split
    · exact keepsEnds_raiseFlags s1 _ _
    · exact .refl s1
  have stopped : KeepsEnds s2 s3 := keepsEnds_updCore s2 c (fun _ => rfl) (fun _ _ => rfl)
  have counted : KeepsEnds s3 { s3 with freeCtr := s.freeCtr + 1 + 16 * 12288 } := .of_core rfl (fun _ => rfl)
  exact (((drained.trans raised).trans stopped).trans counted).trans (keepsEnds_steCancel _ c)

theorem LinksOnly.keepsEnds {s t : State} (h : LinksOnly s t) : KeepsEnds s t := .of_core (by rw [h]) (fun d => by rw [h.core])

theorem keepsEnds_setSched (s : State) (st : Nat) : KeepsEnds s (s.setSched st) := by
  obtain ⟨n, t, g, h⟩ := setSched_eq s st
  exact h ▸ .of_core rfl (fun _ => rfl)

/-- A stop of the image frees no slot and ends no stream (R137, R237). -/
theorem keepsEnds_stopImage (s : State) (fcode : Nat) : KeepsEnds s (s.stopImage fcode) := by
  unfold State.stopImage
  split
  · unfold State.haltImage
    extract_lets cs s1 s2 halting s3
    have halted : KeepsEnds s s1 := .forEach (keepsEnds_haltSeq fcode) cs s
    have abandoned : KeepsEnds s1 s2 := .forEach keepsEnds_abandonCore cs s1
    have marked : KeepsEnds s2 s3 := .of_core rfl (fun _ => rfl)
    exact (((halted.trans abandoned).trans marked).trans (linksOnly_collStop s3).keepsEnds).trans (keepsEnds_setSched _ 5)
  · exact .refl s

/-! Ends. -/

/-- A core with slot `i` free. -/
def CoreSt.freesSlot (k : CoreSt) (i : Nat) : CoreSt := { k with ste := { k.ste with slots := k.ste.slots.set {} i {} } }

theorem get_freesSlot (k : CoreSt) (i : Nat) : (k.freesSlot i).ste.slots.get {} i = {} := by
  rw [CoreSt.freesSlot, SMap.get_set, if_pos rfl]

/-- A core whose STE has met an end with the word `w` for STE_ERR, which keeps the first (R238). -/
def CoreSt.notesEnd (k : CoreSt) (w : Word) : CoreSt := { k with ste := { k.ste with err := if k.ste.err = 0 then w else k.ste.err } }

theorem core_slotFree (s : State) (c i d : Nat) : (s.slotFree c i).core d = if d = c then (s.core c).freesSlot i else s.core d :=
  core_updCore s c d (fun k => k.freesSlot i)

theorem strm_slotFree (s : State) (c i : Nat) : (s.slotFree c i).strm c i = {} := by
  rw [State.strm, core_slotFree, if_pos rfl, get_freesSlot]

/-- The module after a stream has ended with a status, before the image stops: the slot is free, STE_ERR holds the first such end of the
core, StreamErrors counts it, and its event is raised (R236, R238). -/
def State.endsStream (s : State) (c i : Nat) : State :=
  let t := s.strm c i
  let u := (s.slotFree c i).updCore c (fun k => k.notesEnd (steErrWord t.status i t.descNo))
  ({ u with mem := { u.mem with streamErrors := u.mem.streamErrors + 1 } }).post 0x0510 2 (srcCore c 0)
    [dieOf c, logOf c, i, t.descNo, t.status]

theorem endsStream_spec (s : State) (c i : Nat) :
    ((s.endsStream c i).strm c i).busy = false ∧
    ((s.endsStream c i).core c).ste.err =
      (if (s.core c).ste.err = 0 then steErrWord (s.strm c i).status i (s.strm c i).descNo else (s.core c).ste.err) ∧
    (s.endsStream c i).mem.streamErrors = s.mem.streamErrors + 1 ∧ (s.endsStream c i).sched = s.sched := by
  have posted : KeepsEnds _ (s.endsStream c i) := keepsEnds_post _ _ _ _ _
  have noted := core_updCore_same (s.slotFree c i) c (fun k => k.notesEnd (steErrWord (s.strm c i).status i (s.strm c i).descNo))
  rw [core_slotFree, if_pos rfl] at noted
  refine ⟨(posted.busy c i).trans ?_, (posted.err c).trans (congrArg (fun k => k.ste.err) noted), posted.errors,
    (memOnly_post _ _ _ _ _).sched⟩
  exact (congrArg (fun k => (k.ste.slots.get {} i).busy) noted).trans (congrArg Strm.busy (get_freesSlot (s.core c) i))

section
variable {c : Fin 136} {i : Fin 16} {s : State} (hover : s.strmOver c i = true) (hlost : s.clock.lost = false)
include hover hlost

/-- A stream that has moved everything frees its slot (R232). -/
theorem exec_streamRetire_silent (hst : (s.strm c i).status = 0) (hsig : (s.strm c i).sig = false) :
    exec (.streamRetire c i) s = .next (s.slotFree c i) := by
  show execStreamRetire c i s = _
  simp [execStreamRetire, hover, hlost, hst, hsig]

/-- A stream with a signal frees its slot and signals (R232, R234). -/
theorem exec_streamRetire_signal (hst : (s.strm c i).status = 0) (hsig : (s.strm c i).sig = true) :
    exec (.streamRetire c i) s = .next ((s.slotFree c i).signalGate c
      { gaddr := (s.strm c i).gaddr, add := (s.strm c i).add, epoch := s.sched.placeEpoch }) := by
  show execStreamRetire c i s = _
  simp [execStreamRetire, hover, hlost, hst, hsig]

/-- A stream with a status ends, and the image stops (R236). -/
theorem exec_streamRetire_status (hst : (s.strm c i).status ≠ 0) :
    exec (.streamRetire c i) s = .next ((s.endsStream c i).stopImage 4) := by
  show execStreamRetire c i s = _
  simp only [execStreamRetire, hover, hlost]
  exact if_neg hst

end

/-- Settles O22: each response reaches its stream or goes by, and each end frees its slot; the stop that follows a status frees no other. -/
theorem responsesAndRetirement : Obligations.ResponsesAndRetirement := by
  unfold Obligations.ResponsesAndRetirement
  refine ⟨fun c k r s hr hlost => ?responses, fun c i s hover hlost => ?ends⟩
  case responses =>
    intro x left u live
    have answered := exec_steResponse hr hlost
    refine ⟨fun hlive hst => ⟨_, answered.trans ((if_pos hlive).trans (if_neg hst)), rfl⟩,
      fun hlive hheld htype hst n dst hkind hdata => ?_,
      fun hlive hst => ⟨_, answered.trans ((if_pos hlive).trans (if_pos hst)), rfl⟩,
      fun hdead => ⟨_, answered.trans (if_neg hdead), rfl⟩⟩
    have running : (s.strm c r.slot).status ≠ 1 := by rw [show (s.strm c r.slot).status = 0 from hst]; decide
    exact ⟨_, answered.trans ((if_pos hlive).trans (if_neg running)), steArrive_strided_spec hkind hdata hheld htype hst⟩
  case ends =>
    intro x free
    have freed : free (s.slotFree c i) := ⟨strm_slotFree s c i, rfl⟩
    refine ⟨fun hst hsig => ⟨_, exec_streamRetire_silent hover hlost hst hsig, freed, rfl, fun d hd => ?_⟩,
      fun hst hsig => ⟨_, exec_streamRetire_signal hover hlost hst hsig, rfl, freed⟩, fun hst => ⟨_, exec_streamRetire_status hover hlost hst, ?_⟩⟩
    · rw [core_slotFree, if_neg hd]
    · obtain ⟨busy, err, errors, sched⟩ := endsStream_spec s c i
      have kept := keepsEnds_stopImage (s.endsStream c i) 4
      refine ⟨(kept.busy c i).trans busy, (kept.err c).trans err, kept.errors.trans errors, ?_⟩
      rw [st_stopImage, sched]

end Sys2Proof.Machine

/-! SUPPORT. Reel packets that a hub holds (R223, R254 to R256). -/

namespace Sys2Proof.Machine

/-! Epochs (R174). -/

/-- A packet of the placement epoch in force is accepted (R174). -/
theorem epochCheck_same {s : State} {e : Nat} (h : e % 65536 = s.sched.placeEpoch % 65536) : s.epochCheck e = (s, true) := by
  have same : (e + 65536 - s.sched.placeEpoch) % 65536 = 0 := by omega
  simp [State.epochCheck, same]

/-- A packet of another epoch is discarded, and is counted in the schedule's part of the module and posted only (R174, R254). -/
theorem epochCheck_other {s : State} {e : Nat} (h : e % 65536 ≠ s.sched.placeEpoch % 65536) (hlt : s.sched.placeEpoch < 65536) :
    (s.epochCheck e).2 = false ∧ ∃ x l, (s.epochCheck e).1 = { s with sched := x, log := l } := by
  have differs : (e + 65536 - s.sched.placeEpoch) % 65536 ≠ 0 := by omega
  simp only [State.epochCheck, differs, if_false]
  split
  · exact ⟨rfl, _, s.log, rfl⟩
  · refine ⟨rfl, ?_⟩
    split
    · exact ⟨_, s.log, rfl⟩
    · obtain ⟨l, posted⟩ := post_eq _ 0x0605 1 (srcHub s.logHub 0xFF) [e]
      exact ⟨_, l, posted⟩

/-! The hold. -/

/-- The module once a held packet of a port, the only one, has left the hold and its ingress buffer. -/
def State.unheld (s : State) (p : Nat) (pk : Packet) : State :=
  State.freePackets { s with fab := { s.fab with reelHeld := [] } } 4 [(p, pk)]

section
variable {p : Fin 40} {pk : Packet} {t0 : Nat} {s : State} (hheld : s.fab.reelHeld = [(p.val, pk, t0)]) (hlost : s.clock.lost = false)
include hheld hlost

/-- A held packet whose landing is armed leaves the hold for the test of its epoch and of its landing's length (R223, R254). -/
theorem exec_reelPacketLand {l : Landing} (hland : s.landingFor (p.val / 6) pk.tag = some l) :
    exec (.reelPacketLand p) s = .next (
      if ((s.unheld p pk).epochCheck pk.epoch).2 = true ∧ pk.addr + pk.payload.length ≤ l.len
      then ((s.unheld p pk).epochCheck pk.epoch).1.reelLand p l pk else ((s.unheld p pk).epochCheck pk.epoch).1) := by
  show execReelPacketLand p s = _
  have found : (if s.clock.lost then [] else s.fab.reelHeld).find?
      (fun h => decide (h.1 = p.val) && (s.landingFor (p.val / 6) h.2.1.tag).isSome) = some (p.val, pk, t0) := by
    simp [hlost, hheld, hland]
  have left : s.fab.reelHeld.erase (p.val, pk, t0) = [] := by simp [hheld]
  have armed : (s.unheld p pk).landingFor (p.val / 6) pk.tag = some l := hland
  unfold State.unheld at armed ⊢
  simp only [execReelPacketLand, found, left, armed]
  split <;> rfl

/-- A packet that has waited ReelHoldLimit raises its event unless one of its direction and tag has (R256). -/
theorem exec_reelHold (hnew : (p.val / 6, pk.tag) ∉ s.fab.reelPosted) (hwait : s.fab.reelHoldLimit * 400 ≤ s.tsc - t0) :
    exec (.reelHold p) s = .next (State.post { s with fab := { s.fab with reelPosted := (p.val / 6, pk.tag) :: s.fab.reelPosted } }
      0x0902 1 (srcHub (portHub p) p) [p.val / 6, pk.tag]) := by
  show execReelHold p s = _
  have found : (if s.clock.lost then [] else s.fab.reelHeld).find? (fun h => decide (h.1 = p.val) &&
      !s.fab.reelPosted.contains (p.val / 6, h.2.1.tag) && decide (s.fab.reelHoldLimit * 400 ≤ s.tsc - h.2.2)) = some (p.val, pk, t0) := by
    simp [hlost, hheld, hnew, hwait]
  simp only [execReelHold, found]

end

/-- Settles O23: the hold is left for the landing or for the count of its epoch, and the limit raises its event. -/
theorem heldReelPackets : Obligations.HeldReelPackets := by
  unfold Obligations.HeldReelPackets
  refine ⟨fun p pk t0 l s hheld hlost hland => ?land, fun p pk t0 s hheld hnew hwait hlost => ?hold⟩
  case land =>
    intro u
    have unheld : s.unheld p pk = u := rfl
    have landed := exec_reelPacketLand hheld hlost hland
    rw [unheld] at landed
    refine ⟨fun hepoch hfits => ⟨_, landed, ?_⟩, fun hepoch hlt => ⟨_, landed, ?_⟩⟩
    · rw [epochCheck_same (s := u) hepoch]
      exact if_pos ⟨rfl, hfits⟩
    · obtain ⟨stale, x, log, counted⟩ := epochCheck_other (s := u) hepoch hlt
      rw [if_neg (by simp [stale]), counted]
      exact ⟨rfl, rfl, rfl, rfl⟩
  case hold =>
    refine ⟨_, exec_reelHold hheld hlost hnew hwait, ?_⟩
    simp only [State.post, hlost]
    exact ⟨rfl, _, rfl, rfl, rfl, rfl⟩

end Sys2Proof.Machine

/-! SUPPORT. One link port changed; the frames that a port sends and takes (R264 to R277). -/

namespace Sys2Proof.Machine

/-! One port. -/

/-- The module differs in one port only, which is now `q`. -/
def SetsPort (s t : State) (p : Nat) (q : PortSt) : Prop :=
  t = { s with ports := t.ports } ∧ t.port p = q ∧ ∀ d, d ≠ p → t.port d = s.port d

theorem setsPort_updPort (s : State) (p : Nat) (f : PortSt → PortSt) : SetsPort s (s.updPort p f) p (f (s.port p)) :=
  ⟨rfl, by simp, fun d hd => by simp [hd]⟩

theorem port_updPort_of_ne (s : State) {p d : Nat} (h : d ≠ p) (f : PortSt → PortSt) : (s.updPort p f).port d = s.port d := by
  rw [port_updPort, if_neg h]

theorem port_updPort_same (s : State) (p : Nat) (f : PortSt → PortSt) : (s.updPort p f).port p = f (s.port p) := by
  rw [port_updPort, if_pos rfl]

/-- Two changes of one port are one. -/
theorem updPort_updPort (s : State) (p : Nat) (f g : PortSt → PortSt) : (s.updPort p f).updPort p g = s.updPort p (fun q => g (f q)) := by
  simp [State.updPort, SMap.upd]

/-! The slots of a frame that leaves (R271, R273). -/

/-- What filling a frame changes in a port: its transmit queues, its credits, and whose turn is next. -/
def PortSt.Sends (q r : PortSt) : Prop :=
  r = { q with
    txFlood := r.txFlood, txLink := r.txLink, txObj := r.txObj, txReq := r.txReq, txRsp := r.txRsp, txBulk := r.txBulk, rrTx := r.rrTx,
    objTick := r.objTick, objSent := r.objSent, credit := r.credit }

theorem PortSt.Sends.refl (q : PortSt) : q.Sends q := rfl

theorem PortSt.Sends.trans {q r x : PortSt} (h : q.Sends r) (g : r.Sends x) : q.Sends x := by
  unfold PortSt.Sends at h g ⊢
  rw [g, h]

theorem nextSlot_sends (q : PortSt) (ctrlOnly : Bool) (us : Nat) : q.Sends (q.nextSlot ctrlOnly us).1 := by
  unfold PortSt.nextSlot PortSt.spend
  extract_lets x flood obj r1 r2 r3 qs
  have turned : q.Sends x := by
    unfold x
    split
    · rfl
    · rfl
  clear_value x
  refine turned.trans ?_
  split
  · rfl
  split
  · rfl
  split
  · rfl
  split
  · rfl
  split
  · rfl
  · extract_lets r q1
    show x.Sends _
    unfold q1
    (repeat' split) <;> rfl

theorem fill_sends (q : PortSt) (ctrlOnly : Bool) (us n : Nat) : q.Sends (q.fill ctrlOnly us n).1 := by
  induction n generalizing q with
  | zero => exact .refl q
  | succ n ih =>
    have first := nextSlot_sends q ctrlOnly us
    unfold PortSt.fill
    extract_lets r
    split
    · exact first
    · exact first.trans (ih r.1)

/-- The slots of the next frame of a port: none in the first one after lane training (R268). -/
def PortSt.load (q : PortSt) (ctrlOnly : Bool) (us : Nat) : PortSt × List (Nat × List Byte) :=
  if q.begun then q.fill ctrlOnly us 20 else (q, [])

theorem load_sends (q : PortSt) (ctrlOnly : Bool) (us : Nat) : q.Sends (q.load ctrlOnly us).1 := by
  unfold PortSt.load
  split
  · exact fill_sends q ctrlOnly us 20
  · exact .refl q

section
variable (q : PortSt) (ctrlOnly : Bool) (us : Nat)

/-- The new frame that a port builds (R268, R277). -/
def PortSt.builds (q : PortSt) (ctrlOnly : Bool) (us : Nat) : Frame :=
  let r := q.load ctrlOnly us
  let cr := if q.begun then r.1.pickCredit ctrlOnly else (0, 0)
  { word := {
      slotc := (List.range 20).map (fun j => (r.2.getD j (0, [])).1), fseq := r.1.fseq, ackseq := if q.begun then r.1.ack else 0,
      nak := q.begun && r.1.nak, crkind := cr.1, crcnt := cr.2, keyph := if r.1.enc then r.1.txCtr / 2 ^ 30 % 2 else 0,
      tagpart := tagPart r.1.txTag (r.1.fseq % 4) }
    slots := (List.range 20).map (fun j => slice (r.2.getD j (0, [])).2 0 256) }

theorem newFrame_frame : (q.newFrame ctrlOnly us).2 = q.builds ctrlOnly us := by
  unfold PortSt.newFrame
  extract_lets r q1 i cr w f group q2
  split
  · split <;> rfl
  · rfl

/-- A port after a new frame: it has begun, the frame is counted and kept, and no other transmit queue than those of the slots has changed
(R268, R273, R276). -/
theorem newFrame_port : (q.newFrame ctrlOnly us).1.begun = true ∧ (q.newFrame ctrlOnly us).1.fseq = ((q.load ctrlOnly us).1.fseq + 1) % 4096 ∧
    (q.newFrame ctrlOnly us).1.txBulk = (q.load ctrlOnly us).1.txBulk ∧
    (q.newFrame ctrlOnly us).1.buf = ((q.load ctrlOnly us).1.buf ++ [q.builds ctrlOnly us]).drop ((q.load ctrlOnly us).1.buf.length + 1 - 64) := by
  unfold PortSt.newFrame
  extract_lets r q1 i cr w f group q2 key
  split
  · split
    · exact ⟨rfl, rfl, rfl, rfl⟩
    · exact ⟨rfl, rfl, rfl, rfl⟩
  · exact ⟨rfl, rfl, rfl, rfl⟩

end

/-! FRAME_TRANSMIT (R273, R275, R276). -/

/-- The beginning of a resend leaves what a new frame is made of (R275). -/
theorem startResend_keeps (q : PortSt) : q.startResend.fseq = q.fseq ∧ q.startResend.begun = q.begun ∧ q.startResend.ack = q.ack ∧
    q.startResend.nak = q.nak ∧ q.startResend.txBulk = q.txBulk := by
  unfold PortSt.startResend
  split
  · split
    · exact ⟨rfl, rfl, rfl, rfl, rfl⟩
    · exact ⟨rfl, rfl, rfl, rfl, rfl⟩
  · exact ⟨rfl, rfl, rfl, rfl, rfl⟩

section
variable {p : Fin 40} {s : State} (hframing : (s.port p).framing = true) (hlost : s.clock.lost = false)
include hframing hlost

theorem exec_frameTransmit_resend {f : Frame} {rest : List Frame} (h : (s.port p).startResend.resend = f :: rest) :
    exec (.frameTransmit p) s =
      (let q1 := { (s.port p).startResend.countResent f with resend := rest }
       let s1 := s.updPort p (fun _ => q1)
       if f.word.fseq % 4 = 0 ∧ 8 ≤ q1.resentOf f.word.fseq then .next (s1.portDown p 3) else .next (s1.emit (.frame p f))) := by
  show execFrameTransmit p s = _
  simp only [execFrameTransmit, hframing, hlost, h]
  rfl

theorem exec_frameTransmit_new (h : (s.port p).startResend.resend = []) :
    exec (.frameTransmit p) s = .next ((s.updPort p (fun _ => (s.port p).startResend)).sendNew p) := by
  show execFrameTransmit p s = _
  simp only [execFrameTransmit, hframing, hlost, h]
  rfl

end

/-- A new frame from a port none of whose packets is of a landing (R223, R273). -/
theorem sendNew_of_no_landing {s : State} {p : Nat} (h : ∀ x ∈ (s.port p).txBulk, x.land = none) : s.sendNew p =
    (s.updPort p (fun _ => ((s.port p).newFrame (s.controlOnly p) (s.tsc / 400)).1)).emit
      (.frame p ((s.port p).builds (s.controlOnly p) (s.tsc / 400))) := by
  unfold State.sendNew
  extract_lets q r
  have none_left : (txGone q.txBulk r.1.txBulk).filterMap TxPk.land = [] :=
    List.filterMap_eq_nil_iff.mpr (fun x hx => h x (List.mem_of_mem_take hx))
  rw [none_left, newFrame_frame]
  rfl

/-- The frame that a port of no resend sends, and what the port keeps of it (R268, R273). -/
theorem newFrame_spec {q : PortSt} (ctrlOnly : Bool) (us : Nat) :
    let f := q.builds ctrlOnly us
    let r := (q.newFrame ctrlOnly us).1
    f.word.fseq = q.fseq ∧ f ∈ r.buf ∧ (q.begun = true → f.word.ackseq = q.ack ∧ f.word.nak = q.nak) ∧
    (q.begun = false → f.word.ackseq = 0 ∧ f.word.nak = false ∧ f.word.slotc = List.replicate 20 0) ∧
    r.begun = true ∧ r.fseq = (q.fseq + 1) % 4096 := by
  intro f r
  have sends := load_sends q ctrlOnly us
  obtain ⟨begun, fseq, -, buf⟩ := newFrame_port q ctrlOnly us
  have same : (q.load ctrlOnly us).1.fseq = q.fseq := by rw [sends]
  have kept : f ∈ r.buf := by
    show f ∈ (q.newFrame ctrlOnly us).1.buf
    rw [buf, List.drop_append_of_le_length (by omega)]
    exact List.mem_append_right _ (List.mem_singleton_self _)
  refine ⟨same, kept, fun h => ?_, fun h => ?_, begun, fseq.trans (by rw [same])⟩
  · have ack : (q.load ctrlOnly us).1.ack = q.ack := by rw [sends]
    have nak : (q.load ctrlOnly us).1.nak = q.nak := by rw [sends]
    simp [f, PortSt.builds, h, ack, nak]
  · have empty : (q.load ctrlOnly us).2 = [] := by simp [PortSt.load, h]
    simp only [f, PortSt.builds, h, empty]
    exact ⟨rfl, rfl, rfl⟩

/-- A port with no frame to resend and no landing's packet sends a new frame (R223, R273). -/
theorem exec_frameTransmit_sends {p : Fin 40} {s : State} {q0 : PortSt} (hframing : (s.port p).framing = true) (hlost : s.clock.lost = false)
    (hq : (s.port p).startResend = q0) (hnone : q0.resend = []) (hland : ∀ x ∈ q0.txBulk, x.land = none) :
    ∃ c us, exec (.frameTransmit p) s =
      .next ((s.updPort p (fun _ => (q0.newFrame c us).1)).emit (.frame p (q0.builds c us))) := by
  have port : (s.updPort p (fun _ => q0)).port p = q0 := port_updPort_same s p _
  have sent := exec_frameTransmit_new hframing hlost (hq ▸ hnone)
  rw [hq, sendNew_of_no_landing (by rw [port]; exact hland), updPort_updPort, port] at sent
  exact ⟨_, _, sent⟩

/-! FRAME_RECEIVE (R267, R275, R277). -/

/-- What the slots of an accepted frame change in a port: the ingress buffer and the credits (R269, R272). -/
def PortSt.Stores (q r : PortSt) : Prop :=
  r = { q with ingress := r.ingress, heldDisc := r.heldDisc, peerCred := r.peerCred, credPend := r.credPend }

theorem takeSlot_stores (q : PortSt) (code : Nat) (bs : List Byte) : q.Stores (q.takeSlot code bs) := by
  unfold PortSt.takeSlot
  extract_lets pool q1 taken
  (repeat' split) <;> rfl

theorem foldl_takeSlot_stores (xs : List (Nat × List Byte)) (q : PortSt) : q.Stores (xs.foldl (fun q x => q.takeSlot x.1 x.2) q) := by
  induction xs generalizing q with
  | nil => rfl
  | cons x xs ih =>
    have first := takeSlot_stores q x.1 x.2
    have rest := ih (q.takeSlot x.1 x.2)
    unfold PortSt.Stores at first rest ⊢
    rw [List.foldl_cons, rest, first]

/-- What an accepted frame leaves of its port, and the ACKSEQ that the port now returns (R275). -/
theorem takeFrame_spec (q : PortSt) (f : Frame) : (q.takeFrame f).ack = f.word.fseq ∧ (q.takeFrame f).st = q.st ∧
    (q.takeFrame f).nak = q.nak ∧ (q.takeFrame f).rxNext = q.rxNext := by
  unfold PortSt.takeFrame
  extract_lets w busy acked q1
  have stores := foldl_takeSlot_stores (w.slotc.zip f.slots) q1
  unfold PortSt.Stores at stores
  rw [stores]
  exact ⟨rfl, rfl, rfl, rfl⟩

/-- A group that is accepted: its last frame is the one acknowledged (R275). -/
theorem foldl_takeFrame_spec (fs : List Frame) (f : Frame) (q : PortSt) :
    ((fs ++ [f]).foldl PortSt.takeFrame q).ack = f.word.fseq ∧ ((fs ++ [f]).foldl PortSt.takeFrame q).st = q.st ∧
    ((fs ++ [f]).foldl PortSt.takeFrame q).nak = q.nak ∧ ((fs ++ [f]).foldl PortSt.takeFrame q).rxNext = q.rxNext := by
  induction fs generalizing q with
  | nil => exact takeFrame_spec q f
  | cons g fs ih =>
    obtain ⟨-, st, nak, next⟩ := takeFrame_spec q g
    obtain ⟨ack, st', nak', next'⟩ := ih (q.takeFrame g)
    exact ⟨ack, st'.trans st, nak'.trans nak, next'.trans next⟩

/-- A port that counts the codewords of a frame (R267). -/
def PortSt.decodes (q : PortSt) (o : FrameObs) : PortSt := { q with fecC := q.fecC + correctedLanes o, fecU := q.fecU + badLanes o }

/-- A port with a good frame in its group (R275). -/
def PortSt.joins (q : PortSt) (f : Frame) : PortSt :=
  { q with rxBad := false, nak := false, rxNext := (q.rxNext + 1) % 4096, rxGroup := q.rxGroup ++ [f] }

theorem goodFrame_joins {q : PortSt} {f : Frame} (h : q.rxGroup.length < 3) : q.goodFrame f = (q.joins f, false) := by
  have short : (q.joins f).rxGroup.length < 4 := by
    show (q.rxGroup ++ [f]).length < 4
    simp only [List.length_append, List.length_singleton]
    omega
  exact if_pos short

theorem goodFrame_full {q : PortSt} {f : Frame} (h : q.rxGroup.length = 3) : ¬ (q.joins f).rxGroup.length < 4 := by
  show ¬ (q.rxGroup ++ [f]).length < 4
  simp [h]

/-- The fourth good frame of an unencrypted port passes the group on (R277). -/
theorem goodFrame_accepts {q : PortSt} {f : Frame} (h : q.rxGroup.length = 3) (henc : q.enc = false) :
    ∃ r, q.goodFrame f = (r, false) ∧ r.rxGroup = [] ∧ r.ack = f.word.fseq ∧ r.nak = false ∧ r.rxNext = (q.rxNext + 1) % 4096 ∧
      r.st = q.st := by
  have plain : (!(q.joins f).enc) = true := by simp [PortSt.joins, henc]
  obtain ⟨ack, st, nak, next⟩ := foldl_takeFrame_spec q.rxGroup f (q.joins f)
  exact ⟨_, (if_neg (goodFrame_full h)).trans (if_pos plain), rfl, ack, nak, next, st⟩

theorem goodFrame_waits {q : PortSt} {f : Frame} (h : q.rxGroup.length = 3) (henc : q.enc = true) (hheld : q.rxHeld = []) :
    q.goodFrame f = ({ q.joins f with rxHeld := q.rxGroup ++ [f], rxGroup := [] }, false) := by
  have coded : ¬ (!(q.joins f).enc) = true := by simp [PortSt.joins, henc]
  have first : (q.joins f).rxHeld.isEmpty = true := by simp [PortSt.joins, hheld]
  exact (if_neg (goodFrame_full h)).trans ((if_neg coded).trans (if_pos first))

section
variable {p : Fin 40} {s : State} (hframing : (s.port p).framing = true) (hlost : s.clock.lost = false)
include hframing hlost

theorem exec_frameReceive_good {f : Frame} {o : FrameObs} (hn : badLanes o = 0) (hseq : f.word.fseq = (s.port p).rxNext) :
    exec (.frameReceive p f o) s =
      (let r := ((s.port p).decodes o).goodFrame f
       let s1 := s.updPort p (fun _ => r.1)
       .next (if r.2 = true ∧ ((s.port p).st = 5 ∨ (s.port p).st = 6) then s1.portHold p 3 else s1)) := by
  show execFrameReceive p f o s = _
  unfold execFrameReceive
  extract_lets q nb q1 r s1
  rw [if_neg (by simp [q, hframing, hlost]), if_pos ⟨hn, hseq⟩]
  rfl

theorem exec_frameReceive_taken {f : Frame} {o : FrameObs} {r : PortSt} (hn : badLanes o = 0) (hseq : f.word.fseq = (s.port p).rxNext)
    (hr : ((s.port p).decodes o).goodFrame f = (r, false)) : exec (.frameReceive p f o) s = .next (s.updPort p (fun _ => r)) := by
  rw [exec_frameReceive_good hframing hlost hn hseq, hr]
  exact congrArg Host.Outcome.next (if_neg (fun h => Bool.false_ne_true h.1))

theorem exec_frameReceive_bad {f : Frame} {o : FrameObs} (h : badLanes o ≠ 0 ∨ f.word.fseq ≠ (s.port p).rxNext) :
    exec (.frameReceive p f o) s = .next (s.updPort p (fun _ =>
      if (s.port p).rxBad = true ∨ (badLanes o = 0 ∧ (s.port p).seenFrame f = true) then (s.port p).decodes o
      else ((s.port p).decodes o).failGroup)) := by
  show execFrameReceive p f o s = _
  unfold execFrameReceive
  extract_lets q nb q1 r s1
  rw [if_neg (by simp [q, hframing, hlost]), if_neg (fun good => h.elim (fun hn => hn good.1) (fun hs => hs good.2))]
  have seen : q1.seenFrame f = q.seenFrame f := rfl
  have bad : q1.rxBad = q.rxBad := rfl
  simp only [bad, seen, Bool.or_eq_true, Bool.and_eq_true, decide_eq_true_eq]
  rfl

end

/-- Settles O32: each command has its equation; a new frame and an accepted group by what they leave of the port. -/
theorem framesAreSentAndTaken : Obligations.FramesAreSentAndTaken := by
  unfold Obligations.FramesAreSentAndTaken
  intro p s hframing hlost q q0 others
  refine ⟨fun f rest hresend => ?resend, fun hnone => ⟨_, exec_frameTransmit_new hframing hlost hnone, rfl⟩, fun hnone hland => ?new,
    fun f o => ⟨fun hn hseq hlen => ?joins, fun hn hseq hlen henc => ?accepts, fun hn hseq hlen henc hheld => ?waits,
      fun hn hseq => ⟨_, exec_frameReceive_good hframing hlost hn hseq, rfl⟩, fun hbad => ?bad⟩⟩
  case resend =>
    intro q1
    have sent := exec_frameTransmit_resend hframing hlost hresend
    refine ⟨fun hfail => ⟨_, sent.trans (if_pos hfail), rfl⟩, fun hgoes => ⟨_, sent.trans (if_neg hgoes), ?_⟩⟩
    obtain ⟨-, port, rest_same⟩ := setsPort_updPort s p (fun _ => q1)
    exact ⟨rfl, port, rest_same⟩
  case new =>
    obtain ⟨sameSeq, sameBegun, sameAck, sameNak, sameBulk⟩ : q0.fseq = q.fseq ∧ q0.begun = q.begun ∧ q0.ack = q.ack ∧ q0.nak = q.nak ∧
      q0.txBulk = q.txBulk := startResend_keeps q
    obtain ⟨c, us, sent⟩ := exec_frameTransmit_sends hframing hlost rfl hnone (fun x hx => hland x (sameBulk ▸ hx))
    obtain ⟨number, kept, later, first, begun, next⟩ := newFrame_spec (q := q0) c us
    rw [sameBegun, sameAck, sameNak] at later
    rw [sameBegun] at first
    rw [sameSeq] at number next
    obtain ⟨-, port, rest_same⟩ := setsPort_updPort s p (fun _ => (q0.newFrame c us).1)
    refine ⟨_, sent, q0.builds c us, rfl, number, ?_, later, first, ?_, ?_, rest_same⟩
    · exact port.symm ▸ kept
    · exact port.symm ▸ begun
    · exact port.symm ▸ next
  case joins =>
    exact ⟨_, exec_frameReceive_taken hframing hlost hn hseq (goodFrame_joins hlen), setsPort_updPort s p _⟩
  case waits =>
    exact ⟨_, exec_frameReceive_taken hframing hlost hn hseq (goodFrame_waits hlen henc hheld), setsPort_updPort s p _⟩
  case accepts =>
    obtain ⟨r, good, group, ack, nak, next, st⟩ := goodFrame_accepts (q := q.decodes o) (f := f) hlen henc
    refine ⟨_, exec_frameReceive_taken hframing hlost hn hseq good, ?_⟩
    obtain ⟨frame, port, rest_same⟩ := setsPort_updPort s p (fun _ => r)
    rw [port]
    exact ⟨frame, group, ack, nak, next, st, rest_same⟩
  case bad => exact ⟨_, exec_frameReceive_bad hframing hlost hbad, setsPort_updPort s p _⟩

end Sys2Proof.Machine

/-! SUPPORT. A port held and a port UP; the messages of the Waltz (R280 to R288). -/

namespace Sys2Proof.Machine

/-! What the lifecycle, an event and the fabric's ingress leave of the ports. -/

theorem ports_post (s : State) (code sev src : Nat) (args : List Nat) : (s.post code sev src args).ports = s.ports := by
  rw [memOnly_post s code sev src args]

theorem ports_lifeRefresh (s : State) : s.lifeRefresh.ports = s.ports := by
  unfold State.lifeRefresh
  split
  · obtain ⟨n, t, g, h⟩ := setLife_eq s (if s.sched.st = 3 ∨ s.sched.st = 5 then 4 else if s.joinedCond then 3 else 2)
    rw [h]
  · rfl

theorem freeSlots_frame (q : PortSt) (code n : Nat) :
    q.freeSlots code n = { q with ingress := (q.freeSlots code n).ingress, credPend := (q.freeSlots code n).credPend } := by
  induction n generalizing q with
  | zero => rfl
  | succ n ih =>
    unfold PortSt.freeSlots
    split
    · rfl
    · rw [ih]

/-! One port through the operations of the link layer. -/

/-- Of the ports, `p` alone has changed: it is now `q`. -/
def PutsPort (s t : State) (p : Nat) (q : PortSt) : Prop := t.port p = q ∧ ∀ d, d ≠ p → t.port d = s.port d

namespace PutsPort

variable {s t : State} {p : Nat} {q : PortSt}

theorem refl (s : State) (p : Nat) : PutsPort s s p (s.port p) := ⟨rfl, fun _ _ => rfl⟩

theorem ofPorts {u : State} (h : PutsPort s t p q) (g : u.ports = t.ports) : PutsPort s u p q := by
  have same : ∀ d, u.port d = t.port d := fun d => by rw [State.port, g]; rfl
  exact ⟨(same p).trans h.1, fun d hd => (same d).trans (h.2 d hd)⟩

theorem updPort (h : PutsPort s t p q) (f : PortSt → PortSt) : PutsPort s (t.updPort p f) p (f q) := by
  obtain ⟨own, others⟩ := h
  exact ⟨by rw [port_updPort_same, own], fun d hd => by rw [port_updPort_of_ne t hd, others d hd]⟩

theorem lifeRefresh (h : PutsPort s t p q) : PutsPort s t.lifeRefresh p q := h.ofPorts (ports_lifeRefresh t)

/-- A port that was not UP is held (R286). -/
theorem portHold (h : PutsPort s t p q) (hst : q.st ≠ 8) (reason : Nat) :
    PutsPort s (t.portHold p reason) p { q with st := 7, hold := reason } := by
  unfold State.portHold
  extract_lets old s1 s2
  have stays : s1 = t := if_neg (by rw [← h.1] at hst; exact hst)
  have held : PutsPort s s2 p { q with st := 7, hold := reason } := by
    unfold s2
    rw [stays]
    exact h.updPort _
  exact (held.ofPorts (ports_post s2 _ _ _ _)).lifeRefresh

theorem portUp (h : PutsPort s t p q) : PutsPort s (t.portUp p) p { q with
    st := 8, hold := 0, ver := min 3 q.peerMax, credPend := [q.credPend.getD 0 0, 64, 64, 64, 800] } := (h.updPort _).lifeRefresh

end PutsPort

namespace SetsPort

variable {s t : State} {p : Nat} {q : PortSt}

theorem puts (h : SetsPort s t p q) : PutsPort s t p q := h.2

theorem updPort (h : SetsPort s t p q) (f : PortSt → PortSt) : SetsPort s (t.updPort p f) p (f q) := by
  refine ⟨?_, h.puts.updPort f⟩
  obtain ⟨frame, -⟩ := h
  rw [frame]
  rfl

/-- The next step of the Waltz (R280). -/
theorem portStep (h : SetsPort s t p q) (st : Nat) : SetsPort s (t.portStep p st) p { q with st := st, stepStart := s.tsc } := by
  have tick : t.tsc = s.tsc := by rw [h.1]
  have stepped := h.updPort (fun q => { q with st := st, stepStart := t.tsc })
  rw [tick] at stepped
  rw [State.portStep, tick]
  exact stepped

end SetsPort

/-- A port that has said its verdict in step 6, and whose messages carry the chosen version from now on (R281, R282). -/
def PortSt.judges (q : PortSt) : PortSt :=
  { ({ q with ownVerdict := some q.neighbourCheck }).say 7 [BitVec.ofNat 8 q.neighbourCheck] with ver := min 3 q.peerMax }

/-- Where step 6 leads: a hold with the verdict, UP, a hold with PEERHELD, or CHECK (R283, R287). -/
structure PortSt.StepSix (q r : PortSt) : Prop where
  ver : r.ver = min 3 q.peerMax
  sent : r.sent = q.sent ++ [(7, [BitVec.ofNat 8 q.neighbourCheck])]
  rcvd : r.rcvd = q.rcvd
  seenPeer : r.seenPeer = q.seenPeer
  peerFlags : r.peerFlags = q.peerFlags
  refused : q.neighbourCheck ≠ 0 → r.st = 7 ∧ r.hold = q.neighbourCheck
  waits : q.neighbourCheck = 0 → q.peerVerdict = none → r.st = 6
  up : q.neighbourCheck = 0 → q.peerVerdict = some 0 → r.st = 8
  peerHeld : ∀ v, q.neighbourCheck = 0 → q.peerVerdict = some v → v ≠ 0 → r.st = 7 ∧ r.hold = 8

theorem PutsPort.stepSix {s t : State} {p : Nat} {q : PortSt} (h : PutsPort s t p q) (hst : q.st ≠ 8) :
    ∃ r, PutsPort s (t.stepSix p) p r ∧ q.StepSix r := by
  unfold State.stepSix
  extract_lets v s1
  have own : v = q.neighbourCheck := by
    unfold v
    rw [h.1]
  have judged : PutsPort s s1 p q.judges := by
    unfold s1
    rw [own]
    exact h.updPort _
  clear_value v s1
  have verdict : (s1.port p).peerVerdict = q.peerVerdict := by rw [judged.1]; rfl
  by_cases hv : v = 0
  · rw [if_neg (not_not.mpr hv), verdict]
    rw [hv] at own
    have accepts : q.neighbourCheck ≠ 0 → False := fun hne => hne own.symm
    split
    next hp =>
      exact ⟨_, judged.portUp, rfl, rfl, rfl, rfl, rfl, fun hne => (accepts hne).elim, fun _ h0 => by simp [hp] at h0, fun _ _ => rfl,
        fun _ _ hsome hne => absurd (Option.some.inj (hsome.symm.trans hp)) hne⟩
    next n hne hp =>
      exact ⟨_, judged.portHold hst 8, rfl, rfl, rfl, rfl, rfl, fun h0 => (accepts h0).elim, fun _ h0 => by simp [hp] at h0,
        fun _ h0 => absurd (Option.some.inj (hp.symm.trans h0)) hne, fun _ _ _ _ => ⟨rfl, rfl⟩⟩
    next hp =>
      have noVerdict : ∀ v, q.peerVerdict ≠ some v := fun v h0 => by simp [hp] at h0
      split
      next stays =>
        rw [judged.1] at stays
        exact ⟨_, judged, rfl, rfl, rfl, rfl, rfl, fun hne => (accepts hne).elim, fun _ _ => stays, fun _ h0 => absurd h0 (noVerdict 0),
          fun v _ h0 => absurd h0 (noVerdict v)⟩
      next =>
        exact ⟨_, (judged.updPort _).updPort _, rfl, rfl, rfl, rfl, rfl, fun hne => (accepts hne).elim, fun _ _ => rfl,
          fun _ h0 => absurd h0 (noVerdict 0), fun v _ h0 => absurd h0 (noVerdict v)⟩
  · rw [if_pos hv, own]
    exact ⟨_, judged.portHold hst _, rfl, rfl, rfl, rfl, rfl, fun _ => ⟨rfl, rfl⟩, fun h0 => absurd (own.trans h0) hv,
      fun h0 => absurd (own.trans h0) hv, fun _ h0 => absurd (own.trans h0) hv⟩

/-! Messages (R281, R286). -/

/-- A message of its own TYPE that the Waltz expects in this step (R281). -/
def PortSt.awaits (q : PortSt) (m : LinkMsg) (typ step len : Nat) : Prop :=
  q.st = step ∧ linkShape m = true ∧ m.body.length = len ∧ bodyOf q.rcvd typ = none

/-- A port that has kept a message, which has left the ingress buffer (R272). -/
def PortSt.keeps (q : PortSt) (m : LinkMsg) (typ : Nat) : PortSt :=
  { q.freeSlots 5 (cdiv (16 + m.body.length) 256) with rcvd := q.rcvd ++ [(typ, m.body)] }

theorem keeps_frame (q : PortSt) (m : LinkMsg) (typ : Nat) : q.keeps m typ =
    { q with ingress := (q.keeps m typ).ingress, credPend := (q.keeps m typ).credPend, rcvd := q.rcvd ++ [(typ, m.body)] } := by
  unfold PortSt.keeps
  rw [freeSlots_frame]

/-- The module once a port has kept a message. -/
def State.keepsMsg (s : State) (p : Nat) (m : LinkMsg) (typ : Nat) : State :=
  (s.linkTaken p m).updPort p (fun q => { q with rcvd := q.rcvd ++ [(typ, m.body)] })

theorem keepsMsg_sets (s : State) (p : Nat) (m : LinkMsg) (typ : Nat) : SetsPort s (s.keepsMsg p m typ) p ((s.port p).keeps m typ) := by
  have kept := (setsPort_updPort s p (fun q => q.freeSlots 5 (cdiv (16 + m.body.length) 256))).updPort
    (fun q => { q with rcvd := q.rcvd ++ [(typ, m.body)] })
  have before : ((s.port p).freeSlots 5 (cdiv (16 + m.body.length) 256)).rcvd = (s.port p).rcvd := by rw [freeSlots_frame]
  rw [before] at kept
  exact kept

theorem nonce_keepsMsg (s : State) (p : Nat) (m : LinkMsg) (typ : Nat) : ((s.keepsMsg p m typ).port p).nonce = (s.port p).nonce := by
  rw [(keepsMsg_sets s p m typ).puts.1, keeps_frame]

theorem linkTaken_puts (s : State) (p : Nat) (m : LinkMsg) :
    PutsPort s (s.linkTaken p m) p ((s.port p).freeSlots 5 (cdiv (16 + m.body.length) 256)) := (PutsPort.refl s p).updPort _

theorem st_freeSlots (q : PortSt) (code n : Nat) : (q.freeSlots code n).st = q.st := by
  rw [freeSlots_frame]

/-- A port held after a message that the Waltz does not take (R281, R286). -/
theorem linkTaken_held {s : State} {p : Nat} (h : (s.port p).st ≠ 8) (m : LinkMsg) (reason : Nat) :
    (∀ d, d ≠ p → ((s.linkTaken p m).portHold p reason).port d = s.port d) ∧
    (((s.linkTaken p m).portHold p reason).port p).st = 7 ∧ (((s.linkTaken p m).portHold p reason).port p).hold = reason := by
  obtain ⟨own, others⟩ := (linkTaken_puts s p m).portHold (by rwa [st_freeSlots]) reason
  rw [own]
  exact ⟨others, rfl, rfl⟩

theorem framing_of_waltz {q : PortSt} (h : 3 ≤ q.st ∧ q.st ≤ 6) : q.framing = true := by
  simp [PortSt.framing]
  omega

section
variable {s : State} {p : Nat} {m : LinkMsg} {typ step len : Nat} (hlost : s.clock.lost = false) (htyp : m.typ = typ)
  (hst : 3 ≤ (s.port p).st ∧ (s.port p).st ≤ 6)
include hlost htyp hst

theorem waltzMsg_awaited (h : (s.port p).awaits m typ step len) (eff : State → State) :
    s.waltzMsg p typ step len m eff = eff (s.keepsMsg p m typ) := by
  obtain ⟨hstep, hshape, hlen, hnew⟩ := h
  have going : ¬ ((s.port p).st < 3 ∨ 6 < (s.port p).st) := by omega
  unfold State.waltzMsg
  extract_lets q s1
  rw [if_neg (by simp [q, framing_of_waltz hst, hlost, htyp]), if_neg going, if_neg (by simp [q, hstep, hshape, hlen, hnew])]
  rfl

theorem waltzMsg_refused (h : ¬ (s.port p).awaits m typ step len) (eff : State → State) :
    s.waltzMsg p typ step len m eff = (s.linkTaken p m).portHold p 4 := by
  have bad : (!linkShape m || decide ((s.port p).st ≠ step) || decide (m.body.length ≠ len) || (bodyOf (s.port p).rcvd typ).isSome) = true := by
    by_contra good
    simp only [Bool.not_eq_true, Bool.or_eq_false_iff, Bool.not_eq_false', decide_eq_false_iff_not, not_not, Option.isSome_eq_false_iff,
      Option.isNone_iff_eq_none] at good
    obtain ⟨⟨⟨shape, inStep⟩, length⟩, new⟩ := good
    exact h ⟨inStep, shape, length, new⟩
  have going : ¬ ((s.port p).st < 3 ∨ 6 < (s.port p).st) := by omega
  unfold State.waltzMsg
  extract_lets q s1
  rw [if_neg (by simp [q, framing_of_waltz hst, hlost, htyp]), if_neg going, if_pos bad]

end

/-- What a port does with 32 random bytes; without them it is held with KEYS (R286, R441). -/
def State.withRandom (s : State) (p : Nat) (f : List Byte → PortSt → PortSt) : State :=
  let r := s.draw (portHub p)
  match r.2 with
  | none => r.1.portHold p 3
  | some x => r.1.updPort p (f x)

theorem withRandom_ok {s : State} {p : Nat} (h : portHub p ∉ s.sec.entropyBad) (f : List Byte → PortSt → PortSt) :
    s.withRandom p f = State.updPort { s with rndCtr := s.rndCtr + 1 } p (f (Config.random32 s.rndCtr)) := by
  have drawn : s.draw (portHub p) = ({ s with rndCtr := s.rndCtr + 1 }, some (Config.random32 s.rndCtr)) := if_neg (by simpa using h)
  unfold State.withRandom
  rw [drawn]

theorem withRandom_bad {s : State} {p : Nat} (h : portHub p ∈ s.sec.entropyBad) (f : List Byte → PortSt → PortSt) :
    s.withRandom p f = s.portHold p 3 := by
  have drawn : s.draw (portHub p) = (s, none) := if_pos (by simpa using h)
  unfold State.withRandom
  rw [drawn]

/-- Random bytes drawn for a port change it and the entropy's count only (R441). -/
theorem SetsPort.withRandom {s t : State} {p : Nat} {q : PortSt} (h : SetsPort s t p q) (hok : portHub p ∉ s.sec.entropyBad)
    (f : List Byte → PortSt → PortSt) :
    t.withRandom p f = { s with ports := (t.withRandom p f).ports, rndCtr := s.rndCtr + 1 } ∧
    PutsPort s (t.withRandom p f) p (f (Config.random32 s.rndCtr) q) := by
  obtain ⟨frame, puts⟩ := h
  have sec : t.sec = s.sec := by rw [frame]
  have ctr : t.rndCtr = s.rndCtr := by rw [frame]
  rw [withRandom_ok (sec ▸ hok), ctr]
  refine ⟨?_, (PutsPort.ofPorts (u := { t with rndCtr := s.rndCtr + 1 }) puts rfl).updPort _⟩
  rw [frame]
  rfl

/-! The messages in their steps (R282, R455). -/

/-- The module once a port has kept a report and seen it (R287). -/
def State.seesReport (s : State) (p : Nat) (m : LinkMsg) : State := (s.keepsMsg p m 3).updPort p (fun q => q.seeReport m.body)

/-- The module once a port has the peer's verdict (R283). -/
def State.hearsVerdict (s : State) (p : Nat) (m : LinkMsg) : State :=
  (s.linkTaken p m).updPort p (fun q => { q with peerVerdict := some (leAt m.body 0 1) })

/-- The module once a port has kept a capability block that holds and seen it (R285, R287). -/
def State.seesBlock (s : State) (p : Nat) (m : LinkMsg) : State :=
  ((s.keepsMsg p m 6).portStep p 6).updPort p (fun q => { q with seenPeer := seenOf m.body, peerFlags := cbFlags m.body })

section
variable {s : State} {p : Fin 40} {m : LinkMsg} (hlost : s.clock.lost = false)
include hlost

theorem exec_hello (htyp : m.typ = 2) (h : (s.port p).awaits m 2 3 34) : exec (.hello p m) s =
    .next ((s.keepsMsg p m 2).updPort p (fun q =>
      ({ q with peerMin := leAt m.body 32 1, peerMax := leAt m.body 33 1 }).say 3 (s.reportOver (m.body.take 32)))) := by
  obtain ⟨hstep, -⟩ := id h
  exact congrArg Host.Outcome.next (waltzMsg_awaited hlost htyp (by omega) h _)

theorem exec_attest (htyp : m.typ = 3) (h : (s.port p).awaits m 3 3 9216) : exec (.attest p m) s = .next (
    if s.reportOk (s.port p).nonce m.body = false then (s.seesReport p m).portHold p 1
    else if s.fab.fwAccept ≠ [] ∧ rpFw m.body ∉ s.fab.fwAccept then (s.seesReport p m).portHold p 2
    else ((s.seesReport p m).portStep p 4).withRandom p (fun seed q => ({ q with ekSeed := seed }).say 4 (Config.kemPublic seed))) := by
  obtain ⟨hstep, -⟩ := id h
  refine congrArg Host.Outcome.next ((waltzMsg_awaited hlost htyp (by omega) h _).trans (if_congr ?_ rfl (if_congr ?_ rfl rfl)))
  · show (!s.reportOk ((s.keepsMsg p m 3).port p).nonce m.body) = true ↔ _
    rw [nonce_keepsMsg, Bool.not_eq_true']
  · show (!s.fab.fwAccept.isEmpty && !s.fab.fwAccept.contains (rpFw m.body)) = true ↔ _
    simp

theorem exec_kemek (htyp : m.typ = 4) (h : (s.port p).awaits m 4 4 1184) : exec (.kemek p m) s =
    .next ((s.keepsMsg p m 4).withRandom p (fun x q =>
      ({ q with secretOut := Config.kemShared m.body x }).say 5 (Config.kemCipher m.body x))) := by
  obtain ⟨hstep, -⟩ := id h
  exact congrArg Host.Outcome.next (waltzMsg_awaited hlost htyp (by omega) h _)

theorem exec_kemct (htyp : m.typ = 5) (h : (s.port p).awaits m 5 4 1088) (hsecret : (s.port p).secretOut ≠ []) :
    ∃ keyTx keyRx fixTx fixRx b, exec (.kemct p m) s =
      .next ((((s.keepsMsg p m 5).portStep p 5).updPort p (fun q => { q with
        enc := true, keyTx := keyTx, keyRx := keyRx, fixTx := fixTx, fixRx := fixRx, txCtr := 0, rxCtr := 0, ekSeed := [],
        secretOut := [] })).updPort p (fun q => q.say 6 b)) := by
  obtain ⟨hstep, -⟩ := id h
  have secret : ((s.keepsMsg p m 5).port p).secretOut = (s.port p).secretOut := by
    rw [(keepsMsg_sets s p m 5).puts.1, keeps_frame]
  have some : ¬ ((s.keepsMsg p m 5).port p).secretOut.isEmpty = true := by
    rw [secret, List.isEmpty_iff]
    exact hsecret
  exact ⟨_, _, _, _, _, congrArg Host.Outcome.next ((waltzMsg_awaited hlost htyp (by omega) h _).trans (if_neg some))⟩

theorem exec_caps (htyp : m.typ = 6) (h : (s.port p).awaits m 6 5 3584) : exec (.caps p m) s = .next (
    if ({ s.port p with rcvd := (s.port p).rcvd ++ [(6, m.body)] } : PortSt).capsOk m.body = false then (s.keepsMsg p m 6).portHold p 4
    else if min 3 (s.port p).peerMax < max 1 (s.port p).peerMin ∨ (s.port p).rate ≠ min 3 (s.port p).peerMax then (s.seesBlock p m).portHold p 5
    else (s.seesBlock p m).stepSix p) := by
  obtain ⟨hstep, -⟩ := id h
  have port : (s.keepsMsg p m 6).port p = (s.port p).keeps m 6 := (keepsMsg_sets s p m 6).puts.1
  refine congrArg Host.Outcome.next ((waltzMsg_awaited hlost htyp (by omega) h _).trans (if_congr ?_ rfl (if_congr ?_ rfl rfl)))
  · show (!((s.keepsMsg p m 6).port p).capsOk m.body) = true ↔ _
    rw [port, keeps_frame, Bool.not_eq_true']
    rfl
  · show min 3 ((s.keepsMsg p m 6).port p).peerMax < max 1 ((s.keepsMsg p m 6).port p).peerMin ∨
      ((s.keepsMsg p m 6).port p).rate ≠ min 3 ((s.keepsMsg p m 6).port p).peerMax ↔ _
    rw [port, keeps_frame]

/-- A verdict before step 6, or a malformed one in it (R281). -/
theorem exec_verdict_refused (htyp : m.typ = 7) (h : (3 ≤ (s.port p).st ∧ (s.port p).st ≤ 5) ∨
    ((s.port p).st = 6 ∧ (linkShape m = false ∨ m.body.length ≠ 1 ∨ 10 ≤ leAt m.body 0 1))) :
    exec (.verdict p m) s = .next ((s.linkTaken p m).portHold p 4) := by
  show execVerdict p m s = _
  have waltz : (s.port p).framing = true := framing_of_waltz (by omega)
  unfold execVerdict
  extract_lets q s1 v s2
  rw [if_neg (by simp [q, waltz, hlost, htyp])]
  rcases h with early | ⟨hst, hbad⟩
  · rw [if_pos early]
  · have six : q.st = 6 := hst
    rw [if_neg (by omega), if_neg (by omega), if_pos (by simpa [v] using hbad), if_pos six]

theorem exec_verdict_heard (htyp : m.typ = 7) (hst : (s.port p).st = 6 ∨ (s.port p).st = 7) (hshape : linkShape m = true)
    (hlen : m.body.length = 1) (hcode : leAt m.body 0 1 < 10) : exec (.verdict p m) s = .next (
      if (s.port p).st = 6 then (if leAt m.body 0 1 = 0 then (s.hearsVerdict p m).portUp p else (s.hearsVerdict p m).portHold p 8)
      else if (s.port p).hold = 8 ∧ leAt m.body 0 1 = 0 then (s.hearsVerdict p m).stepSix p else s.hearsVerdict p m) := by
  show execVerdict p m s = _
  have framing : (s.port p).framing = true := by
    simp [PortSt.framing]
    omega
  unfold execVerdict
  extract_lets q s1 v s2
  have step : q.st = 6 ∨ q.st = 7 := hst
  rw [if_neg (by simp [q, framing, hlost, htyp]), if_neg (by omega), if_neg (by omega), if_neg (by simp [v, hshape, hlen, hcode])]
  split
  · rfl
  · split <;> rfl

theorem exec_linkmsgReserved (htyp : m.typ = 0 ∨ 7 < m.typ) (hframing : (s.port p).framing = true) : exec (.linkmsgReserved p m) s =
    .next (if 3 ≤ (s.port p).st ∧ (s.port p).st ≤ 6 then (s.linkTaken p m).portHold p 4 else s.linkTaken p m) := by
  have reserved : ¬ (!(s.port p).framing || s.clock.lost || (decide (1 ≤ m.typ) && decide (m.typ ≤ 7))) = true := by
    simp [hframing, hlost]
    omega
  exact if_neg reserved

end

/-- The Waltz messages of steps 2 to 5: command, TYPE, step, length (R281, R282). -/
def waltzMessages (p : Fin 40) (m : LinkMsg) : List (Instr × Nat × Nat × Nat) :=
  [(.hello p m, 2, 3, 34), (.attest p m, 3, 3, 9216), (.kemek p m, 4, 4, 1184), (.kemct p m, 5, 4, 1088), (.caps p m, 6, 5, 3584)]

/-- Each of them is held with CAPS when the Waltz does not await it (R281, R286). -/
theorem exec_waltzMessage_refused {p : Fin 40} {m : LinkMsg} {s : State} {i : Instr} {typ step len : Nat}
    (hi : (i, typ, step, len) ∈ waltzMessages p m) (hlost : s.clock.lost = false) (htyp : m.typ = typ)
    (hst : 3 ≤ (s.port p).st ∧ (s.port p).st ≤ 6) (h : ¬ (s.port p).awaits m typ step len) :
    exec i s = .next ((s.linkTaken p m).portHold p 4) := by
  simp only [waltzMessages, List.mem_cons, List.not_mem_nil, or_false, Prod.mk.injEq] at hi
  rcases hi with ⟨rfl, rfl, rfl, rfl⟩ | ⟨rfl, rfl, rfl, rfl⟩ | ⟨rfl, rfl, rfl, rfl⟩ | ⟨rfl, rfl, rfl, rfl⟩ | ⟨rfl, rfl, rfl, rfl⟩
  all_goals exact congrArg Host.Outcome.next (waltzMsg_refused hlost htyp hst h _)

/-- Settles O34: each message by its equation, and each outcome by what it leaves of the port. -/
theorem theWaltzSteps : Obligations.TheWaltzSteps := by
  unfold Obligations.TheWaltzSteps
  intro p m s hlost q others held takes kept
  refine ⟨fun i typ step len hi htyp h3 h6 hnot => ?refused, fun htyp h => ?hello, fun htyp h hdraw => ?attest, fun htyp h hdraw => ?kemek,
    fun htyp h hsecret => ?kemct, fun htyp h => ?caps, fun htyp => ?verdict, fun htyp hframing => ?reserved⟩
  case refused =>
    exact ⟨_, exec_waltzMessage_refused hi hlost htyp ⟨h3, h6⟩ hnot, linkTaken_held (show q.st ≠ 8 by omega) m 4⟩
  case hello =>
    obtain ⟨frame, own, rest⟩ := (keepsMsg_sets s p m 2).updPort (fun q =>
      ({ q with peerMin := leAt m.body 32 1, peerMax := leAt m.body 33 1 }).say 3 (s.reportOver (m.body.take 32)))
    rw [keeps_frame] at own
    refine ⟨_, exec_hello hlost htyp h, frame, ⟨rest, ?_⟩, ?_, ?_, ?_, ?_⟩
    all_goals rw [own]
    case refine_2 => exact h.1
    all_goals rfl
  case attest =>
    have seen : SetsPort s (s.seesReport p m) p ((q.keeps m 3).seeReport m.body) := (keepsMsg_sets s p m 3).updPort _
    rw [keeps_frame] at seen
    obtain ⟨hstep, -⟩ := id h
    have waltz : q.st ≠ 8 := by omega
    have sent := exec_attest hlost htyp h
    by_cases hok : s.reportOk q.nonce m.body = false
    · obtain ⟨own, rest⟩ := seen.puts.portHold waltz 1
      refine ⟨_, sent.trans (congrArg _ (if_pos hok)), ⟨rest, ?_⟩, ?_, fun _ => ⟨rest, ?_, ?_⟩, fun hyes => ?_, fun hyes => ?_⟩
      case refine_5 => exact absurd (hok.symm.trans hyes) Bool.false_ne_true
      case refine_6 => exact absurd (hok.symm.trans hyes) Bool.false_ne_true
      all_goals rw [own]
      all_goals rfl
    by_cases hfw : s.fab.fwAccept ≠ [] ∧ rpFw m.body ∉ s.fab.fwAccept
    · obtain ⟨own, rest⟩ := seen.puts.portHold waltz 2
      refine ⟨_, sent.trans (congrArg _ ((if_neg hok).trans (if_pos hfw))), ⟨rest, ?_⟩, ?_, fun hno => absurd hno hok,
        fun _ _ _ => ⟨rest, ?_, ?_⟩, fun _ hyes => ?_⟩
      case refine_5 => exact (hyes.elim hfw.1 hfw.2).elim
      all_goals rw [own]
      all_goals rfl
    · obtain ⟨-, own, rest⟩ := (seen.portStep 4).withRandom hdraw
        (fun seed k => ({ k with ekSeed := seed }).say 4 (Config.kemPublic seed))
      refine ⟨_, sent.trans (congrArg _ ((if_neg hok).trans (if_neg hfw))), ⟨rest, ?_⟩, ?_, fun hno => absurd hno hok,
        fun _ hne hout => absurd ⟨hne, hout⟩ hfw, fun _ _ => ⟨?_, ?_, ?_⟩⟩
      all_goals rw [own]
      all_goals rfl
  case kemek =>
    have sets := keepsMsg_sets s p m 4
    obtain ⟨frame, own, rest⟩ := sets.withRandom hdraw
      (fun x k => ({ k with secretOut := Config.kemShared m.body x }).say 5 (Config.kemCipher m.body x))
    rw [keeps_frame] at own
    refine ⟨_, exec_kemek hlost htyp h, frame, ⟨rest, ?_⟩, ?_, ?_, ?_⟩
    all_goals rw [own]
    case refine_2 => exact h.1
    all_goals rfl
  case kemct =>
    obtain ⟨keyTx, keyRx, fixTx, fixRx, b, sent⟩ := exec_kemct hlost htyp h hsecret
    obtain ⟨frame, own, rest⟩ := (((keepsMsg_sets s p m 5).portStep 5).updPort (fun k => { k with
      enc := true, keyTx := keyTx, keyRx := keyRx, fixTx := fixTx, fixRx := fixRx, txCtr := 0, rxCtr := 0, ekSeed := [],
      secretOut := [] })).updPort (fun k => k.say 6 b)
    rw [keeps_frame] at own
    refine ⟨_, sent, frame, ⟨rest, ?_⟩, ?_, ?_, ?_, ?_, ?_, ?_, b, ?_⟩
    all_goals exact (congrArg _ own).trans rfl
  case caps =>
    have sent := exec_caps hlost htyp h
    have kept6 := (keepsMsg_sets s p m 6).puts
    have seen : PutsPort s (s.seesBlock p m) p { q.keeps m 6 with
      st := 6, stepStart := s.tsc, seenPeer := seenOf m.body, peerFlags := cbFlags m.body } := (((keepsMsg_sets s p m 6).portStep 6).updPort _).puts
    rw [keeps_frame] at kept6 seen
    obtain ⟨hstep, -⟩ := id h
    have waltz : q.st ≠ 8 := by omega
    by_cases hok : ({ q with rcvd := q.rcvd ++ [(6, m.body)] } : PortSt).capsOk m.body = false
    · obtain ⟨own, rest⟩ := kept6.portHold waltz 4
      refine ⟨_, sent.trans (congrArg _ (if_pos hok)), ⟨rest, ?_⟩, fun _ => ⟨rest, ?_, ?_⟩, fun hyes => ?_, fun hyes => ?_,
        fun hyes => ?_⟩
      case refine_4 => exact absurd (hok.symm.trans hyes) Bool.false_ne_true
      case refine_5 => exact absurd (hok.symm.trans hyes) Bool.false_ne_true
      case refine_6 => exact absurd (hok.symm.trans hyes) Bool.false_ne_true
      all_goals rw [own]
    by_cases hbad : min 3 q.peerMax < max 1 q.peerMin ∨ q.rate ≠ min 3 q.peerMax
    · obtain ⟨own, rest⟩ := seen.portHold (show 6 ≠ 8 by decide) 5
      refine ⟨_, sent.trans (congrArg _ ((if_neg hok).trans (if_pos hbad))), ⟨rest, ?_⟩, fun hno => absurd hno hok, fun _ => ⟨?_, ?_⟩,
        fun _ _ => ⟨rest, ?_, ?_⟩, fun _ hgood => absurd hbad hgood⟩
      all_goals rw [own]
    · obtain ⟨r, ⟨own, rest⟩, six⟩ := seen.stepSix (show 6 ≠ 8 by decide)
      refine ⟨_, sent.trans (congrArg _ ((if_neg hok).trans (if_neg hbad))), ⟨rest, ?_⟩, fun hno => absurd hno hok, fun _ => ⟨?_, ?_⟩,
        fun _ hyes => absurd hyes hbad, fun _ _ => ⟨?_, ?_, fun hv => ⟨rest, ?_⟩, ?_, ?_, fun n hv hn hne => ⟨rest, ?_⟩⟩⟩
      all_goals rw [own]
      · exact six.rcvd
      · exact six.peerFlags
      · exact six.seenPeer
      · exact six.ver
      · exact six.sent
      · exact six.refused hv
      · exact six.waits
      · exact six.up
      · exact six.peerHeld n hv hn hne
  case verdict =>
    intro c
    have heard : PutsPort s (s.hearsVerdict p m) p { q.freeSlots 5 (cdiv (16 + m.body.length) 256) with peerVerdict := some c } :=
      (linkTaken_puts s p m).updPort _
    rw [freeSlots_frame] at heard
    refine ⟨fun hst => ?_, fun hst hbad => ?_, fun hst hshape hlen hc => ?_, fun hst hhold hshape hlen hc => ?_⟩
    · exact ⟨_, exec_verdict_refused hlost htyp (.inl hst), linkTaken_held (show q.st ≠ 8 by omega) m 4⟩
    · exact ⟨_, exec_verdict_refused hlost htyp (.inr ⟨hst, hbad⟩), linkTaken_held (show q.st ≠ 8 by omega) m 4⟩
    · have sent := (exec_verdict_heard hlost htyp (.inl hst) hshape hlen hc).trans (congrArg _ (if_pos hst))
      by_cases hzero : c = 0
      · obtain ⟨own, rest⟩ := heard.portUp
        refine ⟨_, sent.trans (congrArg _ (if_pos hzero)), rest, ?_, fun _ => ⟨?_, ?_⟩, fun hne => absurd hzero hne⟩
        all_goals rw [own]
      · obtain ⟨own, rest⟩ := heard.portHold (show q.st ≠ 8 by omega) 8
        refine ⟨_, sent.trans (congrArg _ (if_neg hzero)), rest, ?_, fun h0 => absurd h0 hzero, fun _ => ⟨rest, ?_, ?_⟩⟩
        all_goals rw [own]
    · have notSix : ¬ q.st = 6 := by omega
      have code : leAt m.body 0 1 = 0 := hc
      have sent := exec_verdict_heard hlost htyp (.inr hst) hshape hlen (by omega)
      refine ⟨_, sent.trans (congrArg _ ((if_neg notSix).trans (if_pos ⟨hhold, code⟩))), ?_⟩
      rw [State.hearsVerdict, code]
  case reserved =>
    have sent := exec_linkmsgReserved hlost htyp hframing
    by_cases hst : 3 ≤ q.st ∧ q.st ≤ 6
    · exact ⟨_, sent.trans (congrArg _ (if_pos hst)), fun _ => linkTaken_held (show q.st ≠ 8 by omega) m 4, fun h7 => by omega⟩
    · exact ⟨_, sent.trans (congrArg _ (if_neg hst)), fun h36 => absurd h36 hst, fun _ => rfl⟩

end Sys2Proof.Machine

/-! SUPPORT. What a stop of the image, the end of an outstanding request and the moves of the parity engines leave of the module (R137, R237,
R279, R361, R372): one lemma for each operation, each from those of the operations that it calls. -/

namespace Sys2Proof.Machine

/-- A port differs in its ingress buffer, the credits pending for it, and the queues of the packets only. -/
def PortSt.QueuesOnly (q r : PortSt) : Prop :=
  r = { q with
    ingress := r.ingress, credPend := r.credPend, txFlood := r.txFlood, txObj := r.txObj, txReq := r.txReq, txRsp := r.txRsp, txBulk := r.txBulk }

namespace PortSt.QueuesOnly

theorem refl (q : PortSt) : q.QueuesOnly q := rfl

theorem trans {q r x : PortSt} (h : q.QueuesOnly r) (g : r.QueuesOnly x) : q.QueuesOnly x := by
  unfold PortSt.QueuesOnly at h g ⊢
  rw [g, h]

end PortSt.QueuesOnly

theorem freeSlots_queuesOnly (q : PortSt) (code n : Nat) : q.QueuesOnly (q.freeSlots code n) := by
  unfold PortSt.QueuesOnly
  rw [freeSlots_frame]

theorem put_queuesOnly (q : PortSt) (ptype : Nat) (t : TxPk) : q.QueuesOnly (q.put ptype t) := by
  unfold PortSt.put
  (repeat' split) <;> rfl

/-- The module differs in its cores, barriers, memories, hubs, landings and log, in the queues of its ports, in the requests outstanding in
the fabric, in two counts of the Husk, and in a running image that has been stopped, with the lifecycle that follows it. -/
structure WorkOnly (s t : State) : Prop where
  frame : t = { s with
    life := t.life, lifeSince := t.lifeSince, cores := t.cores, bars := t.bars, sched := t.sched, mem := t.mem, ports := t.ports, hubs := t.hubs,
    landings := t.landings, fab := t.fab, log := t.log, husk := t.husk, freeCtr := t.freeCtr }
  port : ∀ p, (s.port p).QueuesOnly (t.port p)
  fab : t.fab = { s.fab with
    opens := t.fab.opens, txns := t.fab.txns, nextTxn := t.fab.nextTxn, tseq := t.fab.tseq, reelHeld := t.fab.reelHeld,
    reelOff := t.fab.reelOff, collErrors := t.fab.collErrors }
  husk : t.husk = { s.husk with rebuilt := t.husk.rebuilt, tagFail := t.husk.tagFail }
  image : t.sched.st = s.sched.st ∨ (s.sched.st = 3 ∧ t.sched.st = 5)

namespace WorkOnly

theorem refl (s : State) : WorkOnly s s := ⟨rfl, fun _ => rfl, rfl, rfl, .inl rfl⟩

theorem trans {s t u : State} (h : WorkOnly s t) (g : WorkOnly t u) : WorkOnly s u := by
  refine ⟨?_, fun p => (h.port p).trans (g.port p), ?_, ?_, ?_⟩
  · rw [g.frame, h.frame]
  · rw [g.fab, h.fab]
  · rw [g.husk, h.husk]
  · obtain ⟨-, -, -, -, h⟩ := h
    obtain ⟨-, -, -, -, g⟩ := g
    omega

theorem ite {s t u : State} {c : Prop} [Decidable c] (h : WorkOnly s t) (g : WorkOnly s u) : WorkOnly s (if c then t else u) := by
  split
  · exact h
  · exact g

/-- Units that hold no port, fabric, Husk or schedule. -/
theorem setUnits (s : State) (life since : Nat) (cores : SMap CoreSt) (bars : SMap BarSt) (mem : MemSt) (hubs : SMap HubSt)
    (landings : List Landing) (log : LogSt) (freeCtr : Nat) :
    WorkOnly s { s with
      life := life, lifeSince := since, cores := cores, bars := bars, mem := mem, hubs := hubs, landings := landings, log := log,
      freeCtr := freeCtr } := ⟨rfl, fun _ => rfl, rfl, rfl, .inl rfl⟩

end WorkOnly

theorem MemOnly.workOnly {s t : State} (h : MemOnly s t) : WorkOnly s t := by
  unfold MemOnly at h
  rw [h]
  exact ⟨rfl, fun _ => rfl, rfl, rfl, .inl rfl⟩

namespace WorkOnly

variable {s t : State} (h : WorkOnly s t)
include h

theorem forEach {α : Type} (xs : List α) {f : State → α → State} (hf : ∀ u x, WorkOnly u (f u x)) : WorkOnly s (t.forEach xs f) :=
  List.foldlRecOn (motive := WorkOnly s) xs f h (fun u kept x _ => kept.trans (hf u x))

/-! Units of the module. -/

theorem updCore (c : Nat) (f : CoreSt → CoreSt) : WorkOnly s (t.updCore c f) :=
  h.trans ⟨rfl, fun _ => rfl, rfl, rfl, .inl rfl⟩

theorem updHub (n : Nat) (f : HubSt → HubSt) : WorkOnly s (t.updHub n f) :=
  h.trans ⟨rfl, fun _ => rfl, rfl, rfl, .inl rfl⟩

theorem updPar (n : Nat) (f : ParSt → ParSt) : WorkOnly s (t.updPar n f) := h.updHub n _

theorem updColl (n : Nat) (f : CollSt → CollSt) : WorkOnly s (t.updColl n f) := h.updHub n _

theorem updRegion (r : Nat) (f : RegionSt → RegionSt) : WorkOnly s (t.updRegion r f) :=
  h.trans ⟨rfl, fun _ => rfl, rfl, rfl, .inl rfl⟩

theorem updPort (p : Nat) {f : PortSt → PortSt} (hf : ∀ q : PortSt, q.QueuesOnly (f q)) : WorkOnly s (t.updPort p f) := by
  refine h.trans ⟨rfl, fun d => ?_, rfl, rfl, .inl rfl⟩
  rw [port_updPort]
  split
  next same => exact same ▸ hf _
  next => exact .refl _

theorem queueAt (p : Nat) (x : Packet) (entry : Bool) : WorkOnly s (t.queueAt p x entry) :=
  h.updPort p (fun q => put_queuesOnly q _ _)

theorem freePackets (code : Nat) (ps : List (Nat × Packet)) : WorkOnly s (t.freePackets code ps) :=
  h.forEach ps (fun u x => (refl u).updPort x.1 (fun q => freeSlots_queuesOnly q code _))

theorem setFab (x : FabSt) (hx : x = { t.fab with
      opens := x.opens, txns := x.txns, nextTxn := x.nextTxn, tseq := x.tseq, reelHeld := x.reelHeld, reelOff := x.reelOff,
      collErrors := x.collErrors }) : WorkOnly s { t with fab := x } :=
  h.trans ⟨rfl, fun _ => rfl, hx, rfl, .inl rfl⟩

theorem setHusk (x : HuskSt) (hx : x = { t.husk with rebuilt := x.rebuilt, tagFail := x.tagFail }) : WorkOnly s { t with husk := x } :=
  h.trans ⟨rfl, fun _ => rfl, rfl, hx, .inl rfl⟩

theorem post (code sev src : Nat) (args : List Nat) : WorkOnly s (t.post code sev src args) :=
  h.trans (memOnly_post t code sev src args).workOnly

/-! Device memory and scratchpads. -/

theorem devRead (o n : Nat) : WorkOnly s (t.devRead o n).1 := h.trans (memOnly_devRead t o n).workOnly

theorem devWrite (o : Nat) (bs : List Byte) : WorkOnly s (t.devWrite o bs) := h.trans (memOnly_devWrite t o bs).workOnly

theorem localWrite (w o : Nat) (bs : List Byte) (hint : Nat) : WorkOnly s (t.localWrite w o bs hint).1 := by
  unfold State.localWrite
  split
  · split
    · exact h
    · exact h.trans (memOnly_memWrite t w _ bs hint noErr).workOnly
  · split
    · exact h
    · split
      · exact h.updCore _ _
      · exact h
  · exact h

theorem chunkWrite (o : Nat) (bs : List Byte) : WorkOnly s (t.chunkWrite o bs) := h.localWrite deviceStream o bs 1

/-- A read that meets no error in a scratchpad. -/
theorem localRead (w o n hint : Nat) : WorkOnly s (t.localRead w o n hint []).1 := by
  unfold State.localRead
  split
  · split
    · exact h
    · extract_lets r
      have read : WorkOnly s r.1 := h.trans (memOnly_memRead t w _ n hint noErr).workOnly
      split <;> exact read
  · split
    · exact h
    · split <;> exact h
  · exact h

/-! The stop of the image (R137, R171, R237, R427). -/

theorem lifeRefresh : WorkOnly s t.lifeRefresh := by
  unfold State.lifeRefresh
  split
  · obtain ⟨n, since, g, moved⟩ := setLife_eq t (if t.sched.st = 3 ∨ t.sched.st = 5 then 4 else if t.joinedCond then 3 else 2)
    rw [moved]
    exact h.trans (setUnits t n since t.cores t.bars t.mem t.hubs t.landings g t.freeCtr)
  · exact h

theorem endSegment (c endk : Nat) : WorkOnly s (t.endSegment c endk) := by
  unfold State.endSegment
  extract_lets q n o
  split
  · exact h
  · extract_lets s1
    have recorded : WorkOnly s s1 := .ite (h.updCore c _) ((h.devWrite _ _).updCore c _)
    exact .ite (recorded.post _ _ _ _) recorded

theorem haltSeq (fcode c : Nat) : WorkOnly s (t.haltSeq fcode c) := .ite ((h.endSegment c 2).updCore c _) h

theorem raiseFlags (u : FlagUnit) (set : BitVec 4) : WorkOnly s (t.raiseFlags u set) := by
  have setReg : ∀ r, WorkOnly s (t.setFlagReg u r) := by
    intro r
    cases u with
    | hub n => exact h.updHub n _
    | mxe c => exact h.updCore c _
    | vxe c => exact h.updCore c _
    | sfu c => exact h.updCore c _
  exact .ite h (.ite ((setReg _).post _ _ _ _) (setReg _))

theorem steCancel (c : Nat) : WorkOnly s (t.steCancel c) := by
  unfold State.steCancel
  extract_lets s1 gone _ s2 adm
  have withdrawn : WorkOnly s s1 := h.forEach allRegions (fun u r => (refl u).updRegion r _)
  clear_value s1
  have forgotten : WorkOnly s1 s2 := ⟨rfl, fun _ => rfl, rfl, rfl, .inl rfl⟩
  exact (withdrawn.trans forgotten).updCore c _

theorem abandonCore (c : Nat) : WorkOnly s (t.abandonCore c) := by
  unfold State.abandonCore
  extract_lets xs s1 s2 s3
  have drained : WorkOnly s s2 := by
    show WorkOnly s (dite _ _ _)
    split
    · exact (h.updCore c _).raiseFlags _ _
    · exact h.updCore c _
  have stopped : WorkOnly s s3 := drained.updCore c _
  exact (stopped.trans (setUnits s3 _ _ _ _ _ _ _ _ (t.freeCtr + 1 + 16 * 12288))).steCancel c

theorem collDo (n : Nat) (f : CollSt → CollSt) : WorkOnly s (t.collDo n f) := (h.updColl n _).freePackets 4 _

theorem collForget (n : Nat) : WorkOnly s (t.collForget n) := h.setFab _ rfl

theorem collStop : WorkOnly s t.collStop := (((h.collDo 0 collHalt).collForget 0).collDo 1 collHalt).collForget 1

theorem haltImage (fcode : Nat) : WorkOnly s (t.haltImage fcode) := by
  unfold State.haltImage
  extract_lets cs s1 s2 _ s3
  have halted : WorkOnly s s1 := h.forEach cs (fun u c => (refl u).haltSeq fcode c)
  have abandoned : WorkOnly s s2 := halted.forEach cs (fun u c => (refl u).abandonCore c)
  clear_value s2
  have marked : WorkOnly s2 s3 := ⟨rfl, fun _ => rfl, rfl, rfl, .inl rfl⟩
  exact (abandoned.trans marked).collStop

end WorkOnly

theorem workOnly_stopImage (s : State) (fcode : Nat) : WorkOnly s (s.stopImage fcode) := by
  have stopped := st_stopImage s fcode
  unfold State.stopImage at stopped ⊢
  split
  next running =>
    have halted := (WorkOnly.refl s).haltImage fcode
    generalize s.haltImage fcode = u at halted stopped ⊢
    obtain ⟨n, since, g, moved⟩ := setSched_eq u 5
    rw [moved] at stopped ⊢
    refine ⟨?_, halted.port, halted.fab, halted.husk, .inr ⟨running, rfl⟩⟩
    rw [halted.frame]
  next => exact .refl s

namespace WorkOnly

variable {s t : State} (h : WorkOnly s t)
include h

theorem stopImage (fcode : Nat) : WorkOnly s (t.stopImage fcode) := h.trans (workOnly_stopImage t fcode)

/-! Packets that leave by the link ports, and gate signals (R153, R234, R292). -/

theorem sendPkt (p : Packet) : WorkOnly s (t.sendPkt p).1 := by
  unfold State.sendPkt
  extract_lets code
  split
  · split
    · exact h
    · split
      · exact h
      · split
        · exact h
        · exact h.queueAt _ _ _
  · split
    · exact h
    · split
      · exact h
      · split
        · exact h
        · exact (h.setFab _ rfl).queueAt _ _ _

theorem newTxn (o : TxnOwner) (port txn : Nat) : WorkOnly s (t.newTxn o port txn) := h.setFab _ rfl

theorem gateAdd (o n : Nat) : WorkOnly s (t.gateAdd o n) := by
  refine .ite (h.updRegion _ _) ?_
  unfold State.gateDo
  extract_lets r
  have read : WorkOnly s r.1 := h.devRead o 8
  split
  · exact read.stopImage 4
  · exact read.devWrite o _

theorem sendAdd (c : Nat) (g : GateAdd) : WorkOnly s (t.sendAdd c g) := by
  unfold State.sendAdd
  extract_lets txn _ s1 _ p r
  have sent : WorkOnly s r.1 := (h.setFab _ rfl).sendPkt p
  split
  · exact (sent.newTxn _ _ _).updCore c _
  · exact sent

theorem signalFree (c : Nat) : WorkOnly s (t.signalFree c) := by
  unfold State.signalFree
  extract_lets s1
  have freed : WorkOnly s s1 := h.updCore c _
  split
  · exact freed
  · unfold State.signalNow
    exact .ite ((freed.updCore c _).gateAdd _ _) ((freed.updCore c _).sendAdd c _)

/-! The parity engine of a hub (R359 to R364, R371, R372). -/

theorem parError (n status entry : Nat) : WorkOnly s (t.parError n status entry) := (h.updPar n _).post _ _ _ _

theorem pullFailed (n m status : Nat) : WorkOnly s (t.pullFailed n m status) := .ite (h.updPar n _) (h.parError n _ _)

theorem pullPacket (n m dev off pos len : Nat) : WorkOnly s (t.pullPacket n m dev off pos len) := by
  unfold State.pullPacket
  extract_lets txn _ s1 _ p r
  have sent : WorkOnly s r.1 := (h.setFab _ rfl).sendPkt p
  split
  · exact (sent.newTxn _ _ _).updPar n _
  · exact sent.pullFailed n m 7

theorem pull (n m dev off pos len : Nat) : WorkOnly s (t.pull n m dev off pos len) := by
  unfold State.pull
  split
  · extract_lets r
    have read : WorkOnly s r.1 := h.localRead deviceStream off len 1
    exact .ite (read.updPar n _) (read.pullFailed n m _)
  · exact h.forEach _ (fun u _ => (refl u).pullPacket n m dev _ _ _)

theorem entryDone (n : Nat) : WorkOnly s (t.entryDone n) := h.updPar n _

theorem nextEntry (n : Nat) : WorkOnly s (t.nextEntry n).1 := by
  unfold State.nextEntry
  split
  · exact h
  · split
    · dsimp only
      exact h.updPar n _
    · extract_lets s1
      have begun : WorkOnly s s1 := h.updPar n _
      split
      · dsimp only
        exact (begun.forEach _ (fun u m => (refl u).pull n m _ _ _ 64)).updPar n _
      · exact begun

theorem initMove (n i : Nat) : WorkOnly s (t.initMove n i).1 := by
  unfold State.initMove
  extract_lets p w len c
  split
  · dsimp only
    exact (h.forEach _ (fun u m => (refl u).pull n m _ _ 0 _)).updPar n _
  · exact (h.chunkWrite _ _).entryDone n

theorem foldMove (n : Nat) : WorkOnly s (t.foldMove n).1 := by
  unfold State.foldMove
  extract_lets p w len ok
  split
  · dsimp only
    exact (h.forEach _ (fun u m => (refl u).pull n m _ _ 0 _)).updPar n _
  · split
    · exact h
    · exact (h.chunkWrite _ _).entryDone n

theorem rebuildWrite (n len : Nat) (need er : List Nat) : WorkOnly s (t.rebuildWrite n len need er).1 := by
  unfold State.rebuildWrite
  extract_lets w opened
  split
  · dsimp only
    exact (h.setHusk { t.husk with tagFail := t.husk.tagFail + 1 } rfl).updPar n _
  · exact ((h.chunkWrite _ _).setHusk _ rfl).entryDone n

theorem rebuildMove (n i : Nat) : WorkOnly s (t.rebuildMove n i).1 := by
  unfold State.rebuildMove
  extract_lets p w len
  split
  · dsimp only
    exact (h.parError n 5 i).updPar n _
  · extract_lets more late
    split
    · exact h
    · split
      · dsimp only
        exact (h.forEach _ (fun u m => (refl u).pull n m _ _ 0 _)).updPar n _
      · split
        · dsimp only
          exact h.updPar n _
        · exact h.rebuildWrite n len _ _

theorem parMove (n : Nat) : WorkOnly s (t.parMove n).1 := by
  unfold State.parMove
  extract_lets p
  split
  · exact h
  · split
    · exact h.nextEntry n
    · split
      · exact h.initMove n _
      · split
        · exact h.foldMove n
        · split
          · exact h.rebuildMove n _
          · exact h

theorem parRun (n k : Nat) : WorkOnly s (t.parRun n k) := by
  induction k generalizing t with
  | zero => exact h
  | succ k ih =>
    have move := h.parMove n
    exact .ite (ih move) move

theorem parGo (n : Nat) : WorkOnly s (t.parGo n) := h.parRun n _

theorem dropLostPulls (n : Nat) : WorkOnly s (t.dropLostPulls n) := by
  unfold State.dropLostPulls
  exact .ite h (((h.setFab _ rfl).updPar n _).parGo n)

theorem parIdle (w : Nat) : WorkOnly s (t.parIdle w) := by
  unfold State.parIdle
  exact (h.forEach [0, 1] (fun u n => (refl u).updPar n _)).setFab _ rfl

/-! Outstanding requests that end (R235, R279, R327). -/

theorem collFail (n status : Nat) : WorkOnly s (t.collFail n status) := by
  unfold State.collFail
  exact .ite h ((((((h.updColl n _).setFab _ rfl).post _ _ _ _).stopImage 4).collDo n collHalt).collForget n)

theorem endTxn (x : Txn) (status : Nat) : WorkOnly s (t.endTxn x status) := by
  unfold State.endTxn
  split
  · exact h.updCore _ _
  · exact h.signalFree _
  · exact h.collFail _ status
  · exact ((h.updPar _ _).pullFailed _ _ status).parGo _

theorem failTxns (p : Nat) : WorkOnly s (t.failTxns p) := by
  unfold State.failTxns
  exact (h.setFab _ rfl).forEach _ (fun u x => (refl u).endTxn x 7)

end WorkOnly

end Sys2Proof.Machine

/-! SUPPORT. A device declared lost, and a port that leaves UP or goes DOWN (R279, R280, R306, R367). -/

namespace Sys2Proof.Machine

/-- The tick stands, and the ports differ in the queues of their packets only. -/
structure PortQueues (s t : State) : Prop where
  tsc : t.tsc = s.tsc
  port : ∀ p, (s.port p).QueuesOnly (t.port p)

theorem WorkOnly.queues {s t : State} (h : WorkOnly s t) : PortQueues s t := ⟨by rw [h.frame], h.port⟩

/-- A copy of a flooded packet for direction `d` (R306). -/
def State.floodCopy (x : Packet) (except : Option Nat) (s : State) (d : Nat) : State :=
  if except = some d then s
  else
    match s.floodPort d with
    | some port => s.queueAt port x false
    | none => s

namespace PortQueues

theorem refl (s : State) : PortQueues s s := ⟨rfl, fun _ => rfl⟩

theorem trans {s t u : State} (h : PortQueues s t) (g : PortQueues t u) : PortQueues s u :=
  ⟨g.tsc.trans h.tsc, fun p => (h.port p).trans (g.port p)⟩

variable {s t : State} (h : PortQueues s t)
include h

theorem ofPorts {u : State} (htsc : u.tsc = t.tsc) (hports : u.ports = t.ports) : PortQueues s u :=
  ⟨htsc.trans h.tsc, fun p => by unfold State.port; rw [hports]; exact h.port p⟩

theorem floodCopies (x : Packet) (except : Option Nat) : PortQueues s (t.floodCopies x except) := by
  refine List.foldlRecOn (motive := PortQueues s) (List.range 6) (State.floodCopy x except) h (fun u kept d _ => ?_)
  unfold State.floodCopy
  split
  · exact kept
  · split
    · exact kept.trans ((WorkOnly.refl u).queueAt _ _ _).queues
    · exact kept

theorem floodNew (ptype : Nat) (payload : List Byte) : PortQueues s (t.floodNew ptype payload) :=
  PortQueues.floodCopies (t := State.floodNote { t with fab := { t.fab with cseq := (t.fab.cseq + 1) % 2 ^ 32 } } t.devNum t.fab.cseq)
    (h.ofPorts rfl rfl) _ _

theorem unalign (cause : Nat) : PortQueues s (t.unalign cause) := by
  unfold State.unalign
  extract_lets _ s1
  split
  · exact (h.ofPorts (u := s1) rfl rfl).trans ((WorkOnly.refl s1).post _ _ _ _).queues
  · exact h.ofPorts rfl rfl

end PortQueues

/-! The copies of a packet that floods leave the schedule, the Husk and the packets known to a module (R306). -/

theorem floodCopies_fab (s : State) (x : Packet) (except : Option Nat) : (s.floodCopies x except).fab = s.fab ∧
    (s.floodCopies x except).sched = s.sched ∧ (s.floodCopies x except).husk = s.husk := by
  refine List.foldlRecOn (motive := fun (u : State) => u.fab = s.fab ∧ u.sched = s.sched ∧ u.husk = s.husk) (List.range 6)
    (State.floodCopy x except) ⟨rfl, rfl, rfl⟩ (fun u kept d _ => ?_)
  unfold State.floodCopy
  split
  · exact kept
  · split <;> exact kept

theorem floodNew_spec (s : State) (ptype : Nat) (payload : List Byte) : (s.floodNew ptype payload).fab = { s.fab with
      cseq := (s.fab.cseq + 1) % 2 ^ 32, flood := ((s.devNum, s.fab.cseq) :: s.fab.flood).take 256 } ∧
    (s.floodNew ptype payload).sched = s.sched := by
  obtain ⟨fab, sched, -⟩ := floodCopies_fab (State.floodNote { s with fab := { s.fab with cseq := (s.fab.cseq + 1) % 2 ^ 32 } } s.devNum
    s.fab.cseq) { s.ownPkt ptype s.devNum 0 with arg := s.fab.cseq, payload := payload } none
  exact ⟨fab, sched⟩

/-! FENCE LOSS (R367). -/

/-- A module that has counted a device among the lost ones. -/
def HuskSt.loses (k : HuskSt) (d : Nat) : HuskSt := { k with lost := if k.lost.contains d ∨ 64 ≤ k.lost.length then k.lost else k.lost ++ [d] }

/-- The module once its image has stopped for a lost device, which it has counted. -/
def State.stopsForLoss (s : State) (d : Nat) : State :=
  let s1 := (s.stopImage 4).collStop
  ({ s1 with husk := s1.husk.loses d }).post 0x0A01 3 (srcHub s1.logHub 0xFF) [d]

/-- A module that holds a generation when a device is lost: FENCED, with the decision pending (R367). -/
def HuskSt.Fences (k r : HuskSt) (tsc : Nat) : Prop :=
  r.st = 9 ∧ r.fencedFrom = k.st ∧ r.decision = 3 ∧ r.settleAt = some tsc ∧ r.fenced = true

theorem stopsForLoss_spec (s : State) (d : Nat) : PortQueues s (s.stopsForLoss d) ∧ (s.stopsForLoss d).fab.flood = s.fab.flood ∧
    (s.stopsForLoss d).sched.st = (if s.sched.st = 3 then 5 else s.sched.st) ∧ (s.stopsForLoss d).husk.lost = (s.husk.loses d).lost ∧
    (s.stopsForLoss d).husk.st = s.husk.st ∧ (s.stopsForLoss d).husk.fenced = s.husk.fenced := by
  have stopped : WorkOnly s (s.stopImage 4).collStop := ((WorkOnly.refl s).stopImage 4).collStop
  have sched : (s.stopImage 4).collStop.sched.st = if s.sched.st = 3 then 5 else s.sched.st := by
    rw [linksOnly_collStop]
    exact st_stopImage s 4
  unfold State.stopsForLoss
  generalize (s.stopImage 4).collStop = t at stopped sched
  extract_lets s1
  rw [memOnly_post]
  refine ⟨stopped.queues.ofPorts rfl rfl, ?_, sched, ?_, ?_, ?_⟩
  · exact (congrArg FabSt.flood stopped.fab).trans rfl
  · show (t.husk.loses d).lost = _
    rw [stopped.husk]
    rfl
  · exact (congrArg HuskSt.st stopped.husk).trans rfl
  · exact (congrArg HuskSt.fenced stopped.husk).trans rfl

/-- What FENCE LOSS of the tick `now` does after the stop (R367, R375). -/
def State.fences (s : State) (now : Nat) : State :=
  if s.husk.st = 11 then
    let dropped := ((s.forEach [0, 1] (fun u h => u.updPar h (fun p => { p with halt := true }))).dropLostPulls 0).dropLostPulls 1
    if s.husk.fenced then dropped
    else { dropped with husk := { dropped.husk with
      st := 9, fenced := true, fencedFrom := 11, decision := 3, settleAt := some now, sealSeen := false } }
  else if s.husk.st = 0 ∨ s.husk.st = 1 ∨ s.husk.st = 12 ∨ s.husk.fenced = true then s
  else if s.husk.st = 2 then (s.parIdle 0).setHusk 12
  else
    let idle := if s.husk.st = 6 then s.parIdle 0 else s
    { idle with husk := { idle.husk with
      st := 9, fenced := true, fencedFrom := s.husk.st, decision := 3, settleAt := some now, sealSeen := false } }

theorem fenceLoss_eq (s : State) (d : Nat) : s.fenceLoss d = (s.stopsForLoss d).fences s.tsc := by
  simp only [State.fenceLoss, State.stopsForLoss, HuskSt.loses]
  generalize State.post _ _ _ _ _ = stopped
  rfl

theorem fences_work (s : State) (now : Nat) : ∃ u r, s.fences now = { u with husk := r } ∧ WorkOnly s u ∧ r.lost = u.husk.lost ∧
    (3 ≤ s.husk.st → s.husk.st ≤ 8 → s.husk.fenced = false → s.husk.Fences r now) := by
  have same := WorkOnly.refl s
  unfold State.fences
  split
  next h11 =>
    extract_lets dropped
    have work : WorkOnly s dropped := ((same.forEach _ (fun u h => (WorkOnly.refl u).updPar h _)).dropLostPulls 0).dropLostPulls 1
    clear_value dropped
    split
    · exact ⟨dropped, dropped.husk, rfl, work, rfl, fun _ h => absurd h11 (by omega)⟩
    · exact ⟨dropped, _, rfl, work, rfl, fun _ h => absurd h11 (by omega)⟩
  next =>
    split
    next hout => exact ⟨s, s.husk, rfl, same, rfl, fun h3 h8 hf => absurd hout (by simp [hf]; omega)⟩
    next =>
      split
      next h2 => exact ⟨s.parIdle 0, _, rfl, same.parIdle 0, rfl, fun h3 => absurd h2 (by omega)⟩
      next =>
        extract_lets idle
        exact ⟨idle, _, rfl, .ite (same.parIdle 0) same, rfl, fun _ _ _ => ⟨rfl, rfl, rfl, rfl, rfl⟩⟩

theorem fenceLoss_spec (s : State) (d : Nat) : PortQueues s (s.fenceLoss d) ∧ (s.fenceLoss d).fab.flood = s.fab.flood ∧
    (s.fenceLoss d).sched.st = (if s.sched.st = 3 then 5 else s.sched.st) ∧ (s.fenceLoss d).husk.lost = (s.husk.loses d).lost ∧
    (3 ≤ s.husk.st → s.husk.st ≤ 8 → s.husk.fenced = false → s.husk.Fences (s.fenceLoss d).husk s.tsc) := by
  obtain ⟨queues, flood, sched, lost, st, fenced⟩ := stopsForLoss_spec s d
  obtain ⟨u, r, eq, work, same, fences⟩ := fences_work (s.stopsForLoss d) s.tsc
  rw [fenceLoss_eq, eq]
  refine ⟨(queues.trans work.queues).ofPorts rfl rfl, ?_, ?_, ?_, ?_⟩
  · exact ((congrArg FabSt.flood work.fab).trans rfl).trans flood
  · have image := work.image
    show u.sched.st = _
    split at sched <;> split <;> omega
  · exact same.trans (((congrArg HuskSt.lost work.husk).trans rfl).trans lost)
  · rw [st, fenced] at fences
    unfold HuskSt.Fences at fences ⊢
    rwa [st] at fences

/-! A port that goes DOWN (R279, R280). -/

namespace PortQueues

variable {s t : State} (h : PortQueues s t)
include h

theorem lossCheck (p : Nat) : PortQueues s (t.lossCheck p) := by
  unfold State.lossCheck
  extract_lets dir up w _ s1
  split
  · exact ((h.ofPorts (u := s1) rfl rfl).floodNew _ _).trans (fenceLoss_spec _ _).1
  · exact h.ofPorts rfl rfl

theorem lifeRefresh : PortQueues s t.lifeRefresh := h.trans (WorkOnly.refl t).lifeRefresh.queues

end PortQueues

/-- A port that leaves UP keeps no frame, and of its credits and its ingress buffer those for control at most (R280). -/
def PortSt.leaves (q : PortSt) (keepControl : Bool) : PortSt :=
  { q.dropTx with
    credit := ctrlCredit q.credit, credPend := ctrlCredit q.credPend, peerCred := ctrlCredit q.peerCred,
    credSent := q.credSent.filter (fun x => decide (x.2.1 = 1)),
    ingress := if keepControl then q.ingress.filter (fun x => decide (x.code = 1 ∨ x.code = 5)) else [] }

theorem leaveUp_work (s : State) (p cause : Nat) (keepControl : Bool) :
    WorkOnly (s.updPort p (fun q => q.leaves keepControl)) (s.leaveUp p cause keepControl) := by
  unfold State.leaveUp
  extract_lets s1 _ s2 drop
  have held : WorkOnly s1 s2 := (WorkOnly.refl s1).setFab _ rfl
  exact (((held.updColl 0 drop).updColl 1 drop).failTxns p).post _ _ _ _

theorem ports_unalign (s : State) (cause : Nat) : (s.unalign cause).ports = s.ports := by
  unfold State.unalign
  extract_lets _ s1
  split
  · exact ports_post s1 _ _ _ _
  · rfl

/-- A port that goes DOWN waits from this tick (R279). -/
theorem portDown_spec (s : State) (p cause : Nat) : ((s.portDown p cause).port p).st = 1 ∧ ((s.portDown p cause).port p).downTick = s.tsc ∧
    (s.portDown p cause).tsc = s.tsc := by
  unfold State.portDown
  extract_lets old s1 s2 s3 s4
  have tick : s1.tsc = s.tsc := by
    unfold s1
    split
    · exact (leaveUp_work s p cause false).queues.tsc
    · rfl
  have down : (s2.port p).st = 1 ∧ (s2.port p).downTick = s.tsc := by
    unfold s2
    rw [port_updPort_same]
    exact ⟨rfl, rfl⟩
  have unaligned : PortQueues s2 s3 := by
    unfold s3
    split
    · exact (PortQueues.refl s2).unalign 2
    · exact .refl s2
  have checked : PortQueues s2 s4 := by
    unfold s4
    split
    · exact unaligned.lossCheck p
    · exact unaligned
  obtain ⟨htsc, hport⟩ := checked.lifeRefresh
  rw [hport p]
  exact ⟨down.1, down.2, htsc.trans tick⟩

/-- The port that was not UP takes no other with it. -/
theorem portDown_others {s : State} {p : Nat} (h : (s.port p).st ≠ 8) (cause : Nat) :
    ∀ d, d ≠ p → (s.portDown p cause).port d = s.port d := by
  unfold State.portDown
  extract_lets old s1 s2 s3 s4
  have stays : s1 = s := if_neg h
  have unchecked : s4 = s3 := if_neg (fun hc => h hc.1)
  have down : PutsPort s s2 p { (s.port p).fresh with st := 1, downTick := s.tsc } := by
    unfold s2
    rw [stays]
    exact (PutsPort.refl s p).updPort _
  have unaligned : s3.ports = s2.ports := by
    unfold s3
    split
    · exact ports_unalign s2 2
    · rfl
  rw [unchecked]
  exact (down.ofPorts unaligned).lifeRefresh.2

/-- A port held keeps what the peer is expected to be (R286, R289). -/
theorem portHold_spec (s : State) (p reason : Nat) : ((s.portHold p reason).port p).st = 7 ∧ ((s.portHold p reason).port p).hold = reason ∧
    ((s.portHold p reason).port p).expPeer = (s.port p).expPeer := by
  unfold State.portHold
  extract_lets old s1 s2
  have left : (s1.port p).expPeer = (s.port p).expPeer := by
    unfold s1
    split
    · rw [(leaveUp_work s p 4 true).port p, port_updPort_same]
      rfl
    · rfl
  have held := ((PortQueues.refl s2).trans ((WorkOnly.refl s2).post 0x0802 2 (srcPort p) [p, reason, (s2.port p).seenPeer.toNat]).queues).lifeRefresh
  rw [held.port p]
  unfold s2
  rw [port_updPort_same]
  exact ⟨rfl, rfl, left⟩

end Sys2Proof.Machine

/-! SUPPORT. KEEPALIVE, loss, training, and the objects of a port and of the slice (R278 to R289, R300, R309). -/

namespace Sys2Proof.Machine

/-- Port `p` of the module went DOWN in this tick, and took no other with it if it was not UP (R279). -/
def State.WentDown (s : State) (p : Nat) (t : State) : Prop :=
  (t.port p).st = 1 ∧ (t.port p).downTick = s.tsc ∧ ((s.port p).st ≠ 8 → ∀ d, d ≠ p → t.port d = s.port d)

theorem wentDown_portDown (s : State) (p cause : Nat) : s.WentDown p (s.portDown p cause) := by
  obtain ⟨st, tick, -⟩ := portDown_spec s p cause
  exact ⟨st, tick, fun h => portDown_others h cause⟩

theorem State.WentDown.ofPorts {s t u : State} {p : Nat} (h : s.WentDown p t) (hu : u.ports = t.ports) : s.WentDown p u := by
  have same : ∀ d, u.port d = t.port d := fun d => by
    unfold State.port
    rw [hu]
  unfold State.WentDown
  simp only [same]
  exact h

/-- Lane training begins: the port's frames and Waltz start anew (R282). -/
theorem startTrain_sets (s : State) (p : Nat) : PutsPort s (s.startTrain p) p { (s.port p).fresh with st := 2, stepStart := s.tsc } :=
  ((PutsPort.refl s p).updPort (fun q => { q.fresh with st := 2, stepStart := s.tsc })).ofPorts rfl

section
variable {p : Fin 40} {s : State}

theorem exec_keepaliveSend (hframing : (s.port p).framing = true) (hlost : s.clock.lost = false) :
    exec (.keepaliveSend p) s = .next (s.updPort p (fun q => q.say 1 (leBytes 8 s.tsc))) :=
  if_pos (by simp [hframing, hlost])

theorem exec_keepaliveTimeout (hframing : (s.port p).framing = true) (hlost : s.clock.lost = false) (hlate : (s.port p).lastKa + 800 ≤ s.tsc) :
    exec (.keepaliveTimeout p) s = .next (s.portDown p 2) := if_pos ⟨hframing, hlate, hlost⟩

theorem exec_laneSignalLoss {l : BitVec 9} (hframing : (s.port p).framing = true) (hlost : s.clock.lost = false)
    (h : 2 ≤ ((List.range 9).filter (fun i => l.getLsbD i && (s.port p).laneUsed i)).length) :
    exec (.laneSignalLoss p l) s = .next (s.portDown p 1) := if_pos ⟨hframing, h, hlost⟩

theorem exec_waltzRetry (hst : (s.port p).st = 1) (h : (s.port p).downTick + s.fab.waltzRetry * 400 ≤ s.tsc) :
    exec (.waltzRetry p) s = .next (if s.mayTrain p then s.startTrain p else s.updPort p (fun q => { q with downTick := s.tsc })) :=
  if_pos ⟨hst, h⟩

section
variable {m : LinkMsg} (hframing : (s.port p).framing = true) (hlost : s.clock.lost = false) (htyp : m.typ = 1)
include hframing hlost htyp

theorem exec_keepalive_malformed (h : linkShape m = false ∨ m.body.length ≠ 8) : exec (.keepalive p m) s = .next (s.linkTaken p m) :=
  (if_neg (by simp [hframing, hlost, htyp])).trans (if_pos (by simpa using h))

theorem exec_keepalive (hshape : linkShape m = true) (hlen : m.body.length = 8) : exec (.keepalive p m) s =
    .next (
      let u := (s.linkTaken p m).updPort p (fun q => { q with lastKa := s.tsc, kaRemote := ofLe m.body, kaLocal := s.tsc })
      if s.align.mode = 2 ∧ s.align.parent = p.val then u.alignBy (tscErr (ofLe m.body) (s.port p).linkDelay s.tsc) else u) :=
  (if_neg (by simp [hframing, hlost, htyp])).trans (if_neg (by simp [hshape, hlen]))

end

/-- A port whose lanes have trained: HELLO goes out with a fresh nonce, or the port is held with KEYS (R282, R286). -/
def State.helloes (s : State) (p : Nat) (r : BitVec 3) (f : BitVec 9) (n : Nat) : State :=
  ((s.portStep p 3).updPort p (fun q => { q with
    laneMap := (((List.range 8).find? (fun l => f.getLsbD l)).map (fun l => 16 + l)).getD 0, rate := topRate r, linkDelay := n,
    lastKa := s.tsc })).withRandom p (fun x q => ({ q with nonce := x }).say 2 (x ++ [1, 3]))

theorem exec_laneTrainingDone (r : BitVec 3) (f : BitVec 9) (n : Nat) (hst : (s.port p).st = 2) : exec (.laneTrainingDone p r f n) s = .next (
    if 2 ≤ popcount f.toNat 9 then (s.portDown p 1).post 0x0803 2 (srcPort p) [p, f.toNat]
    else if topRate r = 0 then s.portDown p 1
    else s.helloes p r f n) := by
  show execLaneTrainingDone p r f n s = _
  unfold execLaneTrainingDone State.helloes State.withRandom
  dsimp only
  rw [if_neg (not_not.mpr hst)]
  split
  · rfl
  · split
    · rfl
    · generalize State.draw _ _ = x
      obtain ⟨t, _ | nonce⟩ := x
      · rfl
      · rfl

/-- A step of the Waltz that has exceeded its bound (R280). -/
theorem exec_waltzStepTimeout (hst : 2 ≤ (s.port p).st ∧ (s.port p).st ≤ 6)
    (h : (s.port p).stepStart +
      (if (s.port p).st = 2 then 40 else if (s.port p).st = 3 then 5 else if (s.port p).st = 6 then 1 else 2) * 400000 ≤ s.tsc) :
    exec (.waltzStepTimeout p) s = .next (if (s.port p).st = 2 then s.portDown p 1 else s.portHold p 9) := by
  refine (if_neg (by omega)).trans ?_
  split <;> rfl

end

/-! The objects of a port and of the slice (R289, R300, R309, R412). -/

theorem objectsAt_ports : objectsAt 0x0812 = [⟨0x0812, 1, 40, .u8, .act⟩] ∧ objectsAt 0x0813 = [⟨0x0813, 1, 40, .u32, .rw⟩] ∧
    objectsAt 0x0814 = [⟨0x0814, 1, 40, .blob 32, .rw⟩] := by decide

/-- An index with one object has it at each of its subindexes. -/
theorem objOf_of_single {idx sub : Nat} {o : Obj} (h : objectsAt idx = [o]) (hlo : o.lo ≤ sub) (hhi : sub ≤ o.hi) : objOf idx sub = some o := by
  simp [objOf, h, hlo, hhi]

theorem port_taken (s : State) (idx sub : Nat) (b : List Byte) (d : Nat) : (s.taken idx sub b).port d = s.port d := by
  rw [taken_frame]
  rfl

theorem out_taken (s : State) (idx sub : Nat) (b : List Byte) : (s.taken idx sub b).out = s.out := by
  rw [taken_frame]

theorem tsc_taken (s : State) (idx sub : Nat) (b : List Byte) : (s.taken idx sub b).tsc = s.tsc := by
  rw [taken_frame]

section
variable {q : OdReq} {p : Fin 40} {s : State}

/-- PortControl of a value that the port admits (R289). -/
theorem put_portControl {v : Byte} (h : s.admits q 0x0812 [v])
    (hinv : (actPortControl (s.noteAct .act 0x0812 (p.val + 1) 0) p v.toNat).inv = false)
    (hbad : (actPortControl (s.noteAct .act 0x0812 (p.val + 1) 0) p v.toNat).bad = false) : s.put q 0x0812 (p.val + 1) [v] =
      (actPortControl (s.taken 0x0812 (p.val + 1) [v]) p v.toNat).eff.answer q 0 := by
  have value : ofLe [v] = v.toNat := by simp [ofLe]
  have act : ∀ t : State, t.objAct q.cpu 0x0812 (p.val + 1) [v] = actPortControl t p v.toNat := by
    intro t
    rw [← value]
    rfl
  unfold State.put
  rw [request_taken _ h (by rw [objectsAt_ports.1]; simp) rfl (objOf_of_single objectsAt_ports.1 (by simp) p.isLt) rfl rfl, act]
  · rw [act]
    exact hinv
  · rw [act]
    exact hbad

theorem exec_portDisable (h : s.admits q 0x0812 [2]) :
    exec (.portDisable q p) s = .next (((s.taken 0x0812 (p.val + 1) [2]).portDisable p).answer q 0) :=
  congrArg Host.Outcome.next (put_portControl (p := p) h rfl rfl)

section
variable (hmay : s.mayTrain p = true)
include hmay

theorem exec_portEnable (h : s.admits q 0x0812 [1]) (hst : (s.port p).st = 0) :
    exec (.portEnable q p) s = .next (((s.taken 0x0812 (p.val + 1) [1]).startTrain p).answer q 0) := by
  have admitted : (!s.mayTrain p || decide ((s.port p).st ≠ 0)) = false := by simp [hmay, hst]
  exact congrArg Host.Outcome.next (put_portControl (p := p) h rfl admitted)

theorem exec_portRetrain (h : s.admits q 0x0812 [3]) (hst : (s.port p).st = 1 ∨ (s.port p).st = 7 ∨ (s.port p).st = 8) :
    exec (.portRetrain q p) s = .next ((
      if (s.port p).st = 1 then (s.taken 0x0812 (p.val + 1) [3]).startTrain p
      else ((s.taken 0x0812 (p.val + 1) [3]).portDown p 4).startTrain p).answer q 0) := by
  have admitted : (!s.mayTrain p || !decide ((s.port p).st = 1 ∨ (s.port p).st = 7 ∨ (s.port p).st = 8)) = false := by simp [hmay, hst]
  refine congrArg Host.Outcome.next ((put_portControl (p := p) h rfl admitted).trans (congrArg (State.answer · q 0) ?_))
  exact apply_ite (fun t => State.startTrain t p) _ _ _

end

/-- A write of a new ExpectedPeer, in place at once (R287). -/
theorem put_expectedPeer {idx : Nat} {b : List Byte} {o : Obj} {w : PeerWrite} (h : s.admits q idx b) (ho : objectsAt idx = [o])
    (hlo : o.lo = 1) (hhi : o.hi = 40) (hacc : o.acc = .rw) (hfit : o.ty.fits b.length = true) (hbank : banked idx = false)
    (hlog : loggedObj idx false = false) (hw : ∀ t : State, t.objAct q.cpu idx (p.val + 1) b = actExpectedPeer t p w)
    (hinv : (actExpectedPeer s p w).inv = false) : s.put q idx (p.val + 1) b = (actExpectedPeer s p w).eff.answer q 0 := by
  unfold State.put
  rw [request_cases _ h (by rw [ho]; simp) hbank (objOf_of_single ho (by omega) (by omega)) (by rw [hacc]; simp) hfit]
  have unlogged : s.noteAct .rw idx (p.val + 1) 0 = s := rfl
  have good : (actExpectedPeer s p w).bad = false := rfl
  simp only [hacc, unlogged, hw, hinv, good, Bool.false_eq_true, if_false, reduceCtorEq, decide_false, hlog]

/-- A port whose ExpectedPeer has just become that of `n`: it runs step 6 again, leaves UP, or stays (R287). -/
def State.checksPeer (s : State) (p : Nat) (n : PortSt) : State :=
  if (n.st = 7 ∧ (n.hold = 6 ∨ n.hold = 7)) ∨ n.st = 6 then s.stepSix p
  else if n.st = 8 ∧ n.neighbourCheck ≠ 0 then s.portHold p 6
  else s.lifeRefresh

theorem exec_expectedPeer {v : Word} (h : s.admits q 0x0813 (leBytes 4 v.toNat)) (hgood : expPeerBad v = false) :
    exec (.expectedPeerWrite q p (.peer v)) s =
      .next (((s.updPort p (fun k => { k with expPeer := v })).checksPeer p { s.port p with expPeer := v }).answer q 0) := by
  have value : BitVec.ofNat 32 (ofLe (leBytes 4 v.toNat)) = v := by
    apply BitVec.eq_of_toNat_eq
    rw [ofLe_leBytes, BitVec.toNat_ofNat]
    omega
  have act : ∀ t : State, t.objAct q.cpu 0x0813 (p.val + 1) (leBytes 4 v.toNat) = actExpectedPeer t p (.peer v) :=
    fun t => congrArg (fun w => actExpectedPeer t p (.peer w)) value
  obtain ⟨-, object, -⟩ := objectsAt_ports
  refine congrArg Host.Outcome.next
    ((put_expectedPeer h object rfl rfl rfl rfl rfl rfl act hgood).trans (congrArg (State.answer · q 0) ?_))
  rw [← port_updPort_same s p (fun k => { k with expPeer := v })]
  rfl

theorem exec_expectedKey {b : List Byte} (h : s.admits q 0x0814 b) (hlen : b.length = 32) :
    exec (.expectedPeerWrite q p (.key b)) s =
      .next (((s.updPort p (fun k => { k with expKey := b })).checksPeer p { s.port p with expKey := b }).answer q 0) := by
  obtain ⟨-, -, object⟩ := objectsAt_ports
  have fits : OTy.fits (.blob 32) b.length = true := by simp [OTy.fits, hlen]
  refine congrArg Host.Outcome.next
    ((put_expectedPeer (w := .key b) h object rfl rfl rfl fits rfl rfl (fun _ => rfl) rfl).trans (congrArg (State.answer · q 0) ?_))
  rw [← port_updPort_same s p (fun k => { k with expKey := b })]
  rfl

/-- SliceSet of a block that holds the module, while no image is loaded or runs (R300). -/
theorem put_sliceSet {v : BitVec 64} (h : s.admits q 0x0902 (leBytes 8 v.toNat)) (hbusy : s.schedBusy = false)
    (hinv : (actSliceSet s v).inv = false) : s.put q 0x0902 0 (leBytes 8 v.toNat) =
      (actSliceSet (s.taken 0x0902 0 (leBytes 8 v.toNat)) v).eff.answer q 0 := by
  have value : BitVec.ofNat 64 (ofLe (leBytes 8 v.toNat)) = v := by
    apply BitVec.eq_of_toNat_eq
    rw [ofLe_leBytes, BitVec.toNat_ofNat]
    omega
  have act : ∀ t : State, t.objAct q.cpu 0x0902 0 (leBytes 8 v.toNat) = actSliceSet t v :=
    fun t => congrArg (actSliceSet t) value
  have object : objectsAt 0x0902 = [⟨0x0902, 0, 0, .u64, .act⟩] := by decide
  unfold State.put
  rw [request_taken _ h (by rw [object]; simp) rfl (objOf_of_single object (by simp) (by simp)) rfl rfl, act]
  · rw [act]
    exact hinv
  · rw [act]
    exact hbusy

/-- SliceStop stops the image and floods STOP (R309). -/
theorem put_sliceStop {v : BitVec 8} (h : s.admits q 0x0906 (leBytes 1 v.toNat)) : s.put q 0x0906 0 (leBytes 1 v.toNat) =
      (((s.taken 0x0906 0 (leBytes 1 v.toNat)).floodNew 1 []).stopImage 4).answer q 0 := by
  have object : objectsAt 0x0906 = [⟨0x0906, 0, 0, .u8, .act⟩] := by decide
  have act : ∀ t : State, t.objAct q.cpu 0x0906 0 (leBytes 1 v.toNat) = actSliceStop t := fun _ => rfl
  unfold State.put
  rw [request_taken _ h (by rw [object]; simp) rfl (objOf_of_single object (by simp) (by simp)) rfl rfl, act, actSliceStop]
  · rw [act, actSliceStop]
  · rw [act, actSliceStop]

end

/-- Settles O33: the ports' own events by their equations, the objects by the rule of a request that is admitted, and each outcome by what the
operation leaves of the ports. -/
theorem portsAndSlices : Obligations.PortsAndSlices := by
  unfold Obligations.PortsAndSlices
  refine ⟨fun p s hlost => ?_, fun q p s => ?_⟩
  · extract_lets q others down
    have wentDown : ∀ {t : State}, s.WentDown p t → down t := fun h => h
    refine ⟨fun hf => ?send, fun m hf htyp => ⟨fun hbad => ?malformed, fun hshape hlen => ?kept⟩,
      fun hf hlate => ?timeout, fun l hf hl => ?loss, fun hst hdue => ?retry, fun r f n hst => ?trained, fun hst hlate => ?trainLate, fun hst hlate => ?stepLate⟩
    case send =>
      obtain ⟨frame, own, rest⟩ := setsPort_updPort s p (fun q => q.say 1 (leBytes 8 s.tsc))
      exact ⟨_, exec_keepaliveSend hf hlost, frame, rest, own⟩
    case malformed => exact ⟨_, exec_keepalive_malformed hf hlost htyp hbad, rfl⟩
    case kept =>
      extract_lets u
      have sent := exec_keepalive hf hlost htyp hshape hlen
      refine ⟨fun hfollows => ⟨_, sent, if_pos hfollows⟩, fun hnot => ?_⟩
      obtain ⟨frame, own, rest⟩ := (setsPort_updPort s p (fun q => q.freeSlots 5 (cdiv (16 + m.body.length) 256))).updPort
        (fun q => { q with lastKa := s.tsc, kaRemote := ofLe m.body, kaLocal := s.tsc })
      rw [freeSlots_frame] at own
      refine ⟨_, sent.trans (congrArg _ (if_neg hnot)), rfl, frame, rest, ?_⟩
      exact ⟨(congrArg _ own).trans rfl, (congrArg _ own).trans rfl, (congrArg _ own).trans rfl, (congrArg _ own).trans rfl⟩
    case timeout => exact ⟨_, exec_keepaliveTimeout hf hlost hlate, rfl, wentDown (wentDown_portDown s p 2)⟩
    case loss => exact ⟨_, exec_laneSignalLoss hf hlost hl, rfl, wentDown (wentDown_portDown s p 1)⟩
    case retry =>
      refine ⟨_, exec_waltzRetry hst hdue, ?_⟩
      cases hmay : s.mayTrain p with
      | true =>
        obtain ⟨own, rest⟩ := startTrain_sets s p
        exact ⟨rest, rfl, (congrArg _ own).trans rfl, (congrArg _ own).trans rfl, rfl⟩
      | false =>
        obtain ⟨frame, own, rest⟩ := setsPort_updPort s p (fun q => { q with downTick := s.tsc })
        exact ⟨rest, frame, own⟩
    case trained =>
      have sent := exec_laneTrainingDone r f n hst
      have stepped : SetsPort s (s.portStep p 3) p { q with st := 3, stepStart := s.tsc } := setsPort_updPort s p _
      have trained := stepped.updPort (fun q => { q with
        laneMap := (((List.range 8).find? (fun l => f.getLsbD l)).map (fun l => 16 + l)).getD 0, rate := topRate r, linkDelay := n,
        lastKa := s.tsc })
      refine ⟨fun htwo => ?two, fun hone hnone => ?none, fun hone hrate hdraw => ?keys, fun hone hrate hdraw => ?hello⟩
      case two =>
        exact ⟨_, sent.trans (congrArg _ (if_pos htwo)), rfl, wentDown ((wentDown_portDown s p 1).ofPorts (ports_post _ _ _ _ _))⟩
      case none =>
        exact ⟨_, sent.trans (congrArg _ ((if_neg (by omega)).trans (if_pos hnone))), rfl, wentDown (wentDown_portDown s p 1)⟩
      case keys =>
        obtain ⟨own, rest⟩ := trained.puts.portHold (show 3 ≠ 8 by decide) 3
        have held : s.helloes p r f n = _ := withRandom_bad (s := (s.portStep p 3).updPort p _) hdraw _
        refine ⟨_, sent.trans (congrArg _ (((if_neg (by omega)).trans (if_neg hrate)).trans held)), rest, ?_, ?_⟩
        all_goals exact (congrArg _ own).trans rfl
      case hello =>
        obtain ⟨frame, own, rest⟩ := trained.withRandom hdraw (fun x q => ({ q with nonce := x }).say 2 (x ++ [1, 3]))
        refine ⟨_, sent.trans (congrArg _ ((if_neg (by omega)).trans (if_neg hrate))), frame, rest, ?_, ?_, ?_, ?_, ?_, ?_⟩
        all_goals refine (congrArg _ own).trans ?_
        case refine_6 =>
          show Option.getD (Option.map _ _) 0 = _
          cases (List.range 8).find? (fun l => f.getLsbD l)
          · rfl
          · rfl
        all_goals rfl
    case trainLate =>
      have sent := exec_waltzStepTimeout (p := p) (s := s) (show 2 ≤ q.st ∧ q.st ≤ 6 by omega) (by rw [if_pos hst]; omega)
      exact ⟨_, sent.trans (congrArg _ (if_pos hst)), rfl, wentDown (wentDown_portDown s p 1)⟩
    case stepLate =>
      have later : ¬ q.st = 2 := by omega
      obtain ⟨own, rest⟩ := (PutsPort.refl s p).portHold (show q.st ≠ 8 by omega) 9
      have sent := exec_waltzStepTimeout (p := p) (s := s) (show 2 ≤ q.st ∧ q.st ≤ 6 by omega) (by rw [if_neg later]; exact hlate)
      exact ⟨_, sent.trans (congrArg _ (if_neg later)), rfl, rest, (congrArg _ own).trans rfl, (congrArg _ own).trans rfl⟩
  · extract_lets others begun
    have begins : ∀ idx sub b, others ((s.taken idx sub b).startTrain p) ∧ begun ((s.taken idx sub b).startTrain p) ∧
        ((s.taken idx sub b).startTrain p).out = .train p :: s.out := by
      intro idx sub b
      obtain ⟨own, rest⟩ := startTrain_sets (s.taken idx sub b) p
      refine ⟨fun d hd => (rest d hd).trans (port_taken s _ _ _ d), ⟨?_, ?_⟩, ?_⟩
      · exact (congrArg PortSt.st own).trans rfl
      · exact (congrArg PortSt.stepStart own).trans (tsc_taken s _ _ _)
      · exact congrArg (Out.train p.val :: ·) (out_taken s idx sub b)
    refine ⟨fun h => ?disable, fun h hmay hst => ?enable, fun h hmay hst => ?train, fun h hmay hst => ?retrain, fun v h hgood => ?peer,
      fun b h hlen => ?key, fun v h hbusy hinv => ?sliceSet, fun v h => ?sliceStop⟩
    case disable =>
      refine ⟨_, exec_portDisable h, _, rfl, rfl, ?_, fun hne d hd => ?_⟩
      · exact (congrArg PortSt.st (port_updPort_same _ p _)).trans rfl
      · exact (port_updPort_of_ne _ hd _).trans ((portDown_others (by rw [port_taken]; exact hne) 4 d hd).trans (port_taken s _ _ _ d))
    case enable =>
      exact ⟨_, exec_portEnable hmay h hst, _, rfl, begins _ _ _⟩
    case train =>
      refine ⟨_, exec_portRetrain hmay h (.inl hst), _, rfl, ?_⟩
      rw [if_pos hst]
      exact begins _ _ _
    case retrain =>
      have later : ¬ (s.port p).st = 1 := by omega
      refine ⟨_, exec_portRetrain hmay h (.inr hst), _, rfl, ?_⟩
      rw [if_neg later]
      obtain ⟨-, -, tick⟩ := portDown_spec (s.taken 0x0812 (p.val + 1) [3]) p 4
      obtain ⟨own, rest⟩ := startTrain_sets ((s.taken 0x0812 (p.val + 1) [3]).portDown p 4) p
      have start := (congrArg PortSt.stepStart own).trans (tick.trans (tsc_taken s _ _ _))
      refine ⟨rfl, ⟨(congrArg PortSt.st own).trans rfl, start⟩, fun h7 d hd => ?_⟩
      exact (rest d hd).trans ((portDown_others (by rw [port_taken]; omega) 4 d hd).trans (port_taken s _ _ _ d))
    case peer =>
      extract_lets s1 n again
      have sent := exec_expectedPeer (p := p) h hgood
      have changed : PutsPort s s1 p n := (PutsPort.refl s p).updPort _
      have gives : ∀ {t : State}, s1.checksPeer p n = t → exec (.expectedPeerWrite q p (.peer v)) s = .next (t.answer q 0) :=
        fun same => sent.trans (congrArg (fun t => Host.Outcome.next (State.answer t q 0)) same)
      refine ⟨fun hagain => ⟨_, gives (if_pos hagain.symm), _, rfl, rfl⟩, fun hnot hgood8 => ?_, fun h8 hne => ?_⟩
      · have stays : s1.checksPeer p n = s1.lifeRefresh := (if_neg (fun ha => hnot ha.symm)).trans (if_neg (fun hc => hc.2 (hgood8 hc.1)))
        obtain ⟨own, rest⟩ := changed.lifeRefresh
        exact ⟨_, gives stays, _, rfl, rfl, rest, own⟩
      · have leaves : s1.checksPeer p n = s1.portHold p 6 := (if_neg (by omega)).trans (if_pos ⟨h8, hne⟩)
        obtain ⟨st, hold, peer⟩ := portHold_spec s1 p 6
        exact ⟨_, gives leaves, _, rfl, rfl, peer.trans (congrArg PortSt.expPeer changed.1), st, hold⟩
    case key =>
      exact ⟨_, exec_expectedKey (p := p) h hlen, _, rfl, rfl⟩
    case sliceSet =>
      refine ⟨_, congrArg Host.Outcome.next (put_sliceSet h hbusy hinv), _, rfl, ?_⟩
      unfold actSliceSet
      dsimp only
      rw [memOnly_post, taken_frame]
      exact ⟨rfl, rfl, rfl⟩
    case sliceStop =>
      refine ⟨_, congrArg Host.Outcome.next (put_sliceStop h), _, rfl, ?_⟩
      obtain ⟨fab, sched⟩ := floodNew_spec (s.taken 0x0906 0 (leBytes 1 v.toNat)) 1 []
      have stopped := (workOnly_stopImage ((s.taken 0x0906 0 (leBytes 1 v.toNat)).floodNew 1 []) 4).fab
      rw [fab] at stopped
      rw [st_stopImage, sched, sched_taken, stopped, taken_frame]
      exact ⟨rfl, rfl, rfl⟩

end Sys2Proof.Machine

/-! SUPPORT. Packets that arrive, and what the module does with each (R223, R254, R272, R294 to R297, R302, R321, R322). -/

namespace Sys2Proof.Machine

/-! What the checks of a port leave, and the packet that passes them (R302, R305). -/

section
variable {s v : State} {p : Fin 40} {pk q : Packet} (h : s.arrives p pk q v)
include h

/-- A packet that passes the checks changes the replay window of its source at most (R305). -/
theorem arrives_frame : v = { s with fab := { s.fab with wins := v.fab.wins } } := by
  rcases h.2 with ⟨-, -, -, rfl⟩ | ⟨-, -, -, -, -, rfl⟩
  · rfl
  · rfl

theorem arrives_ptype : q.ptype = pk.ptype := by
  rcases h.2 with ⟨-, -, rfl, -⟩ | ⟨-, -, -, rfl, -⟩
  · rfl
  · rfl

theorem arrives_shape : pktShape pk = true := by
  rcases h.2 with ⟨-, checked, -, -⟩ | ⟨-, -, shape, -⟩
  · by_contra bad
    rw [State.torusCheck, if_pos (by simpa using bad)] at checked
    exact Option.some_ne_none _ checked
  · exact shape

theorem arrives_code : pk.code = pktCode pk.ptype := by
  have shape := arrives_shape h
  simp only [pktShape, Bool.and_eq_true, decide_eq_true_eq] at shape
  obtain ⟨⟨⟨⟨⟨-, code⟩, -⟩, -⟩, -⟩, -⟩ := shape
  exact code

/-- What the port hands on (R302, R305, R306). -/
theorem pktArrive_arrives {types : List Nat} (hty : types.contains pk.ptype = true) (serve : Packet → State → State) :
    s.pktArrive p pk types serve = serve q v := by
  obtain ⟨takes, checks⟩ := h
  unfold State.pktArrive
  rw [if_neg (by rw [takes, hty]; simp)]
  rcases checks with ⟨torus, checked, rfl, rfl⟩ | ⟨tree, checked, shape, rfl, signed, rfl⟩
  · rw [if_pos torus, checked]
  · rw [if_neg (by omega), if_neg (by simp [checked])]
    dsimp only
    rw [if_neg (by simp [shape]), if_neg (by simpa using signed)]

end

/-! A packet for another module of the block (R296, R297, R322). -/

theorem forwardPkt_single {s : State} {port d out : Nat} {p : Packet} (hblock : s.inBlock p.dstdev = true) (hdir : s.nextDir p.dstdev = some d)
    (hout : s.pickPort d (pktCode p.ptype) (some (port % 6)) = some out) (hepoch : p.epchk = false)
    (hform : p.ptype ≠ 0x31 ∨ 3 ≤ (s.port out).ver) :
    s.forwardPkt port p = s.queueAt out p (decide (d ≠ if port / 6 % 2 = 0 then port / 6 + 1 else port / 6 - 1)) := by
  have whole : s.collForms (s.port out).ver p = [p] := by
    refine if_pos (hform.imp id fun hver => ?_)
    exact if_pos hver
  unfold State.forwardPkt
  simp only [hblock, hdir, hout, hepoch, if_true, Bool.false_and, Bool.false_eq_true, if_false, whole]
  rfl

/-! The placement epoch of a packet (R174, R295). -/

theorem epochCheck_old {s : State} {e : Nat} (h : 32768 ≤ (e + 65536 - s.sched.placeEpoch) % 65536) : s.epochCheck e = (s.staleSeen, false) := by
  unfold State.epochCheck
  extract_lets k seen s1
  rw [if_neg (by omega), if_pos h]
  rfl

theorem epochThen_now {s : State} {p : Packet} (h : p.epchk = false ∨ p.epoch = s.sched.placeEpoch) (act : State → State) :
    s.epochThen p act = act s := by
  unfold State.epochThen
  rcases h with unchecked | same
  · rw [unchecked]
    rfl
  · rw [epochCheck_same (by rw [same])]
    split <;> rfl

theorem epochThen_old {s : State} {p : Packet} (hchecked : p.epchk = true) (h : 32768 ≤ (p.epoch + 65536 - s.sched.placeEpoch) % 65536)
    (act : State → State) : s.epochThen p act = if p.ptype / 16 = 1 then s.staleSeen.reply p 0x22 5 [] else s.staleSeen := by
  unfold State.epochThen
  rw [if_pos hchecked, epochCheck_old h]
  rfl

/-! What serves each packet (R294, R295). -/

section
variable {s v : State} {p : Fin 40} {pk q : Packet} (h : s.arrives p pk q v)
include h

theorem arrives_devNum : v.devNum = s.devNum := by
  rw [arrives_frame h]

/-- The schedule once the packet has left the ingress buffer. -/
theorem sched_freed : (v.freePackets pk.code [(p.val, pk)]).sched = s.sched := by
  rw [arrives_frame h]
  rfl

theorem pktServe_here {ty : Nat} (hty : pk.ptype = ty) (hd : q.dstdev = s.devNum) (serve : Packet → State → State) :
    s.pktServe p pk [ty] serve = (v.freePackets pk.code [(p.val, pk)]).epochThen q (serve q) := by
  unfold State.pktServe
  rw [pktArrive_arrives h (by simp [hty])]
  exact if_pos (hd.trans (arrives_devNum h).symm)

theorem pktServe_forwards {ty : Nat} (hty : pk.ptype = ty) (hd : q.dstdev ≠ s.devNum) (serve : Packet → State → State) :
    s.pktServe p pk [ty] serve = (v.freePackets pk.code [(p.val, pk)]).forwardPkt p q := by
  unfold State.pktServe
  rw [pktArrive_arrives h (by simp [hty])]
  exact if_neg (by rwa [arrives_devNum h])

/-- A packet of this epoch, or of none, is served. -/
theorem pktServe_now {ty : Nat} (hty : pk.ptype = ty) (hd : q.dstdev = s.devNum) (hnow : q.epchk = false ∨ q.epoch = s.sched.placeEpoch)
    (serve : Packet → State → State) : s.pktServe p pk [ty] serve = serve q (v.freePackets pk.code [(p.val, pk)]) := by
  rw [pktServe_here h hty hd, epochThen_now (by rwa [sched_freed h])]

/-- One of an earlier epoch is counted, and a request is answered with STALE (R174, R295). -/
theorem pktServe_old {ty : Nat} (hty : pk.ptype = ty) (hd : q.dstdev = s.devNum) (hchecked : q.epchk = true)
    (hold : 32768 ≤ (q.epoch + 65536 - s.sched.placeEpoch) % 65536) (serve : Packet → State → State) :
    s.pktServe p pk [ty] serve = if ty / 16 = 1 then (v.freePackets pk.code [(p.val, pk)]).staleSeen.reply q 0x22 5 []
      else (v.freePackets pk.code [(p.val, pk)]).staleSeen := by
  rw [pktServe_here h hty hd, epochThen_old hchecked (by rwa [sched_freed h]), arrives_ptype h, hty]

end

/-- The commands of the packets that their port serves, with the type of each (R294). -/
def servedPackets (p : Fin 40) (pk : Packet) (ecc : List (Nat × Ecc)) : List (Instr × Nat) :=
  [(.pktRead p ⟨pk, ecc⟩, 0x10), (.pktWrite p pk, 0x11), (.pktAdd p pk, 0x12), (.pktData p pk, 0x20), (.pktAck p pk, 0x21), (.pktErr p pk, 0x22),
    (.pktObjreq p pk, 4), (.pktObjrsp p pk, 5)]

/-- Those and the collective packets, which all go on when they are for another module (R296, R322). -/
def routedPackets (p : Fin 40) (pk : Packet) (ecc : List (Nat × Ecc)) : List (Instr × Nat) :=
  [(.pktRead p ⟨pk, ecc⟩, 0x10), (.pktWrite p pk, 0x11), (.pktAdd p pk, 0x12), (.pktData p pk, 0x20), (.pktAck p pk, 0x21), (.pktErr p pk, 0x22),
    (.pktColl p pk, 0x31), (.pktObjreq p pk, 4), (.pktObjrsp p pk, 5)]

theorem exec_served {i : Instr} {ty : Nat} {p : Fin 40} {pk : Packet} {ecc : List (Nat × Ecc)} (hi : (i, ty) ∈ servedPackets p pk ecc) :
    ∃ serve : Packet → State → State, ∀ s, exec i s = .next (s.pktServe p pk [ty] serve) := by
  simp only [servedPackets, List.mem_cons, List.not_mem_nil, or_false, Prod.mk.injEq] at hi
  rcases hi with ⟨rfl, rfl⟩ | ⟨rfl, rfl⟩ | ⟨rfl, rfl⟩ | ⟨rfl, rfl⟩ | ⟨rfl, rfl⟩ | ⟨rfl, rfl⟩ | ⟨rfl, rfl⟩ | ⟨rfl, rfl⟩
  all_goals exact ⟨_, fun _ => rfl⟩

section
variable {s v : State} {p : Fin 40} {pk q : Packet} (h : s.arrives p pk q v)
include h

theorem exec_pktColl_here (hty : pk.ptype = 0x31) (hd : q.dstdev = s.devNum) : exec (.pktColl p pk) s = .next (v.collArrive p q) := by
  refine congrArg Host.Outcome.next ((pktArrive_arrives h (by simp [hty]) _).trans ?_)
  exact if_pos (hd.trans (arrives_devNum h).symm)

theorem exec_forwards {i : Instr} {ty : Nat} {ecc : List (Nat × Ecc)} (hi : (i, ty) ∈ routedPackets p pk ecc) (hty : pk.ptype = ty)
    (hd : q.dstdev ≠ s.devNum) : exec i s = .next ((v.freePackets pk.code [(p.val, pk)]).forwardPkt p q) := by
  simp only [routedPackets, List.mem_cons, List.not_mem_nil, or_false, Prod.mk.injEq] at hi
  rcases hi with ⟨rfl, rfl⟩ | ⟨rfl, rfl⟩ | ⟨rfl, rfl⟩ | ⟨rfl, rfl⟩ | ⟨rfl, rfl⟩ | ⟨rfl, rfl⟩ | coll | ⟨rfl, rfl⟩ | ⟨rfl, rfl⟩
  case inr.inr.inr.inr.inr.inr.inl =>
    obtain ⟨rfl, rfl⟩ := coll
    refine congrArg Host.Outcome.next ((pktArrive_arrives h (by simp [hty]) _).trans ?_)
    rw [arrives_code h, hty]
    exact if_neg (by rwa [arrives_devNum h])
  all_goals exact congrArg Host.Outcome.next (pktServe_forwards h hty hd _)

/-- The version of a port, once the packet has left the ingress buffer. -/
theorem ver_freed (d : Nat) : ((v.freePackets pk.code [(p.val, pk)]).port d).ver = (s.port d).ver := by
  have freed := (WorkOnly.refl v).freePackets pk.code [(p.val, pk)]
  rw [freed.port d, arrives_frame h]
  rfl

end

/-! Responses to the requests of a stream (R215, R235, R294). -/

section
variable {s v : State} {p : Fin 40} {pk q : Packet} {x : Txn} {c slot : Nat} {kinds : List ReqKind}
  (hx : s.fab.txns.get none q.txn = some x) (hown : x.owner = .stream c slot kinds)
include hx hown

theorem serveData_stream (hlen : q.payload.length = 64 * kinds.length) :
    s.serveData q = (s.closeTxn q.txn).respond c slot kinds (chunks 64 64 q.payload) 0 := by
  unfold State.serveData
  simp only [hx, hown, hlen, if_true]

theorem serveAck_stream : s.serveAck q = (s.closeTxn q.txn).respond c slot kinds [] 0 := by
  unfold State.serveAck
  simp only [hx, hown]

theorem serveErr_stream : s.serveErr q = (s.closeTxn q.txn).respond c slot kinds [] q.arg := by
  unfold State.serveErr State.endTxn
  simp only [hx, hown]

end

section
variable {s : State} {q : Packet} (hx : s.fab.txns.get none q.txn = none)
include hx

theorem serveData_none : s.serveData q = s := by
  unfold State.serveData
  simp only [hx]

theorem serveAck_none : s.serveAck q = s := by
  unfold State.serveAck
  simp only [hx]

theorem serveErr_none : s.serveErr q = s := by
  unfold State.serveErr
  simp only [hx]

end

/-- A stream's request that ends leaves the table, and its responses go to the core alone (R215). -/
theorem respond_closed (s : State) (txn c slot : Nat) (kinds : List ReqKind) (data : List (List Byte)) (st : Nat) :
    let t := (s.closeTxn txn).respond c slot kinds data st
    t.fab.txns.get none txn = none ∧ t.mem = s.mem ∧ (∀ d, d ≠ c → t.core d = s.core d) ∧
    t.core c = { s.core c with ste := { (s.core c).ste with resp := (s.core c).ste.resp ++
      (kinds.zip ((List.range kinds.length).map (fun i => data.getD i []))).map (fun k => ⟨slot, k.1, k.2, st⟩) } } := by
  intro t
  refine ⟨?_, rfl, fun d hd => ?_, ?_⟩
  · show (s.fab.txns.set none txn none).get none txn = none
    simp
  · exact (core_updCore (s.closeTxn txn) c d _).trans (if_neg hd)
  · exact (core_updCore (s.closeTxn txn) c c _).trans (if_pos rfl)

/-! Requests for objects (R295, R457). -/

theorem serveObj_unlife {s : State} {q : Packet} (hlife : s.life = 0) : s.serveObj q = s.reply q 0x22 7 [] := if_pos hlife

theorem serveObj_get {s : State} {q : Packet} (hfm : q.fm = false) (hon : s.odAnswers = true) (hlen : 4 ≤ q.payload.length)
    (hresult : beAt q.payload 2 1 = 0) (htyp : beAt q.payload 3 1 = 0x10) (hshape : reqShape false (q.payload.drop 4) = true) :
    s.serveObj q = s.reply q 5 0 (q.payload.take 4 ++ s.serveGet { role := .observer, cpu := none } (q.payload.drop 4)) := by
  have life : s.life ≠ 0 := by
    simp only [State.odAnswers, Bool.and_eq_true, decide_eq_true_eq] at hon
    exact hon.1.2
  unfold State.serveObj
  simp [hfm, hon, hresult, htyp, hshape, life, State.serveBody, State.objReply, Nat.not_lt.mpr hlen]

/-! Collective packets for a sequencer that is idle (R321). -/

theorem collRun_idle {s : State} {n : Nat} (h : (s.hub n).coll.st ≠ 2) (k : Nat) : s.collRun n k = s := by
  cases k with
  | zero => rfl
  | succ k =>
    have stays : s.collMoveOn n = (s, false) := if_pos (by simp [h])
    rw [State.collRun, stays]
    rfl

theorem collGo_idle {s : State} {n : Nat} (h : (s.hub n).coll.st ≠ 2) : s.collGo n = s := by
  unfold State.collGo
  extract_lets k
  split
  · exact collRun_idle h _
  · rfl

theorem collArrive_now {s : State} {q : Packet} (h : q.epchk = false ∨ q.epoch = s.sched.placeEpoch) (port : Nat)
    (hidle : (s.hub (portHub port)).coll.st ≠ 2) : s.collArrive port q =
      s.updColl (portHub port) (fun k => { k with held := k.held ++ [(port, q)], heldCount := k.heldCount + 1 }) := by
  have checked : (if q.epchk then s.epochCheck q.epoch else (s, true)) = (s, true) := by
    rcases h with unchecked | same
    · rw [unchecked]
      rfl
    · rw [epochCheck_same (by rw [same]), ite_self]
  unfold State.collArrive
  extract_lets e t n k d now
  have arrived : e = (s, true) := checked
  have stays : t = s := congrArg Prod.fst arrived
  have passed : e.2 = true := congrArg Prod.snd arrived
  have later : now = false := by
    unfold now
    split
    · have idle : k.st ≠ 2 := by
        unfold k n
        rwa [stays]
      simp [idle]
    · rfl
  clear_value now
  rw [if_neg (by simp [passed]), later, stays]
  exact collGo_idle (by rw [State.updColl, hub_updHub, if_pos rfl]; exact hidle)

theorem collArrive_old {s : State} {q : Packet} (hchecked : q.epchk = true) (h : 32768 ≤ (q.epoch + 65536 - s.sched.placeEpoch) % 65536)
    (port : Nat) : s.collArrive port q = s.staleSeen.freePackets 4 [(port, q)] := by
  unfold State.collArrive
  rw [if_pos hchecked, epochCheck_old h]
  rfl

/-! Reel packets (R223, R254, R255). -/

/-- What a Reel packet that is held for a landing, or behind one that is held, leaves (R254, R255). -/
def State.holdsReel (s : State) (port : Nat) (pk : Packet) (n : Nat) : State :=
  { s with fab := { s.fab with
    reelHeld := s.fab.reelHeld ++ [(port, pk, s.tsc)], reelHeldCount := s.fab.reelHeldCount.upd 0 (port / 6) (fun x => x + n) } }

theorem fab_localWrite (s : State) (w o : Nat) (bs : List Byte) (hint : Nat) : (s.localWrite w o bs hint).1.fab = s.fab := by
  unfold State.localWrite
  split
  · split
    · rfl
    · extract_lets r
      have wrote : r.1 = _ := memOnly_memWrite s w _ bs hint noErr
      exact (congrArg State.fab wrote : r.1.fab = _)
  · split
    · rfl
    · split <;> rfl
  · rfl

/-- A packet that lands, and is passed on where the landing says so, leaves those that are held (R223). -/
theorem reelHeld_reelLand (s : State) (port : Nat) (l : Landing) (pk : Packet) : (s.reelLand port l pk).fab.reelHeld = s.fab.reelHeld := by
  unfold State.reelLand
  extract_lets r s1 s2
  have written : s2.fab = s.fab := by
    show s1.fab = s.fab
    have wrote : r.1.fab = s.fab := fab_localWrite s _ _ _ _
    unfold s1
    split
    · exact wrote
    · exact wrote
  split
  · unfold State.reelPass
    split
    · exact (congrArg FabSt.reelHeld written : s2.fab.reelHeld = _)
    · split
      · exact congrArg FabSt.reelHeld written
      · exact congrArg FabSt.reelHeld written
  · exact congrArg FabSt.reelHeld written

section
variable {s : State} {p : Fin 40} {pk : Packet} (h : s.arrives p pk pk s) (hty : pk.ptype = 0x30)
include h hty

theorem exec_pktReel : exec (.pktReel p pk) s = .next (
    if (s.reelArrive p pk).fab.reelHeld.length = s.fab.reelHeld.length then (s.reelArrive p pk).freePackets 4 [(p.val, pk)]
    else s.reelArrive p pk) := congrArg Host.Outcome.next (pktArrive_arrives h (by simp [hty]) _)

theorem exec_pktReel_leaves {t : State} (ht : s.reelArrive p pk = t) (hheld : t.fab.reelHeld = s.fab.reelHeld) :
    exec (.pktReel p pk) s = .next (t.freePackets 4 [(p.val, pk)]) := by
  rw [exec_pktReel h hty, ht, if_pos (by rw [hheld])]

theorem exec_pktReel_held {n : Nat} (ht : s.reelArrive p pk = s.holdsReel p pk n) : exec (.pktReel p pk) s = .next (s.holdsReel p pk n) := by
  rw [exec_pktReel h hty, ht, if_neg (by simp [State.holdsReel])]

end

section
variable {s : State} {pk : Packet} (port : Nat)

theorem reelArrive_old (h : 32768 ≤ (pk.epoch + 65536 - s.sched.placeEpoch) % 65536) : s.reelArrive port pk = s.staleSeen := by
  unfold State.reelArrive
  rw [epochCheck_old h]
  rfl

theorem reelArrive_now (h : pk.epoch = s.sched.placeEpoch) : s.reelArrive port pk =
    match s.landingFor (port / 6) pk.tag with
    | some l =>
      if s.reelBehind (port / 6) pk.tag then s.holdsReel port pk 0
      else if pk.addr + pk.payload.length ≤ l.len then s.reelLand port l pk
      else s
    | none => if s.fab.reelOff then s else s.holdsReel port pk 1 := by
  unfold State.reelArrive
  rw [epochCheck_same (by rw [h])]
  rfl

end

/-! The timer of a merged packet (R294). -/

theorem sendPkt_fab (s : State) (x : Packet) : (s.sendPkt x).1.fab = { s.fab with tseq := (s.sendPkt x).1.fab.tseq } := by
  unfold State.sendPkt
  extract_lets code
  split
  · split
    · rfl
    · split
      · rfl
      · split <;> rfl
  · split
    · rfl
    · split
      · rfl
      · split <;> rfl

theorem sendOpen_fab (s : State) (o : OpenPk) : (s.sendOpen o).fab.opens = s.fab.opens ∧
    (s.sendOpen o).fab.nextTxn = (s.fab.nextTxn + 1) % 65536 := by
  unfold State.sendOpen
  extract_lets txn _ s1 _ x r
  have sent : r.1.fab.opens = s.fab.opens ∧ r.1.fab.nextTxn = (s.fab.nextTxn + 1) % 65536 := by
    have fab : r.1.fab = { s1.fab with tseq := r.1.fab.tseq } := sendPkt_fab s1 x
    rw [fab]
    exact ⟨rfl, rfl⟩
  clear_value r
  split
  · exact sent
  · exact sent

theorem exec_packetCloseTimer {s : State} {n : Nat} {o : OpenPk} (ho : s.fab.opens.get none n = some o) (hlost : s.clock.lost = false) :
    exec (.packetCloseTimer n) s =
      .next (({ s with fab := { s.fab with opens := s.fab.opens.set none n none } } : State).sendOpen o) := by
  refine congrArg Host.Outcome.next ((if_neg (by simp [hlost])).trans ?_)
  unfold State.closeOpen
  rw [ho]

/-! FENCE SEAL (R362, R369). -/

namespace WorkOnly

variable {s t : State} (h : WorkOnly s t)
include h

theorem chunkRead (o n : Nat) : WorkOnly s (t.chunkRead o n).1 := h.localRead deviceStream o n 1

theorem parBegin (w : Nat) (todo : List Nat) : WorkOnly s (t.parBegin w todo) :=
  .ite h (h.forEach [0, 1] (fun u n => .ite (refl u) ((refl u).updPar n _)))

theorem parStepped (i : Nat) (err : Option Nat) : WorkOnly s (t.parStepped i err) := by
  unfold State.parStepped
  extract_lets n
  split
  · exact h.updPar n _
  · exact h.parError n _ _

theorem parEach (xs : List (Nat × List Word)) {f : State → Nat × List Word → State} (hf : ∀ u x, WorkOnly u (f u x)) :
    WorkOnly s (t.parEach xs f) := .ite h (h.forEach xs hf)

theorem applyAll (g : Nat) : WorkOnly s (t.applyAll g) := by
  unfold State.applyAll
  refine h.parEach _ (fun u e => ?_)
  extract_lets n r q
  have read : WorkOnly u q.1 := ((refl u).chunkRead _ _).chunkRead _ _
  clear_value q
  split
  · split
    · exact read.parStepped _ _
    · split
      · exact (read.chunkWrite _ _).parStepped _ _
      · exact (read.setHusk _ rfl).parStepped _ _
  · exact read.parStepped _ _

end WorkOnly

/-- What a seal that is applied writes before its parity (R362). -/
def State.sealed (s : State) (g : Nat) : State := { s with husk := { s.husk with gen := g, st := if s.husk.st = 7 then 8 else s.husk.st } }

theorem sealApply_work (s : State) (g : Nat) : WorkOnly (s.sealed g) (s.sealApply g) := ((WorkOnly.refl (s.sealed g)).parBegin 5 []).applyAll g

theorem flood_sealApply (s : State) (g : Nat) : (s.sealApply g).fab.flood = s.fab.flood :=
  (congrArg FabSt.flood (sealApply_work s g).fab).trans rfl

theorem flood_sealAct (s : State) (g : Nat) : (s.sealAct g).fab.flood = s.fab.flood := by
  unfold State.sealAct
  extract_lets k
  split
  · rfl
  · split
    · exact flood_sealApply s g
    · split
      · exact flood_sealApply _ g
      · split <;> rfl

section
variable {s : State} (hflushing : s.husk.flushing = false) (hflushed : s.husk.flushed = false) (hlost : s.devNum ∉ s.husk.lost)
include hflushing hflushed hlost

/-- The seal of the generation folded is applied (R362). -/
theorem sealAct_folded (hst : s.husk.st = 7) : (s.sealAct s.husk.openGen).husk.st = 8 ∧ (s.sealAct s.husk.openGen).husk.gen = s.husk.openGen := by
  have applied : s.sealAct s.husk.openGen = s.sealApply s.husk.openGen :=
    (if_neg (by simp [hflushing, hflushed, hlost])).trans (if_pos ⟨hst, rfl⟩)
  rw [applied, (sealApply_work s s.husk.openGen).husk]
  exact ⟨if_pos hst, rfl⟩

/-- A module that has sealed already counts a seal that is none of its own (R369). -/
theorem sealAct_sealed (hst : s.husk.st = 3) (g : Nat) : (s.sealAct g).husk = { s.husk with staleSeals := s.husk.staleSeals + 1 } := by
  unfold State.sealAct
  extract_lets k
  have st : k.st = 3 := hst
  rw [if_neg (by simp [k, hflushing, hflushed, hlost]), if_neg (by omega), if_neg (by omega), if_neg (by omega)]
  rfl

end

theorem resumeAct_eq (s : State) (epoch g : Nat) : (s.resumeAct epoch g).fab = s.fab ∧ (s.resumeAct epoch g).husk =
    if s.husk.st = 9 ∨ s.husk.st = 1 then
      { s.husk with gen := g, lost := [], decision := 0, st := 3, fenced := false, settleAt := none, sealSeen := false }
    else s.husk := by
  unfold State.resumeAct
  split
  · rw [memOnly_post]
    exact ⟨rfl, rfl⟩
  · exact ⟨rfl, rfl⟩

theorem lost_loses (k : HuskSt) (d : Nat) : (k.loses d).lost = if d ∈ k.lost ∨ 64 ≤ k.lost.length then k.lost else k.lost ++ [d] := by
  simp [HuskSt.loses]

/-! Packets that flood (R306, R308, R457). -/

/-- The module that a packet finds once its fabric-manager sequence number has been taken (R457). -/
def State.fmTaken (s : State) (q : Packet) : State :=
  if q.fm then { s with fab := { s.fab with fmWin := s.fab.fmWin.take (fmSeq q) } } else s

theorem fmAccept_taken {s : State} {q : Packet} (h : q.fm = false ∨ s.fab.fmWin.ok (fmSeq q) = true) (act : State → State) :
    s.fmAccept q act = act (s.fmTaken q) := by
  unfold State.fmAccept State.fmTaken
  cases signed : q.fm with
  | false => rw [if_pos Bool.not_false, if_neg Bool.false_ne_true]
  | true =>
    have inWindow : s.fab.fmWin.ok (fmSeq q) = true := by simpa [signed] using h
    rw [if_neg (by simp), if_pos inWindow, if_pos rfl]

theorem fmAccept_plain {s : State} {q : Packet} (h : q.fm = false) (act : State → State) : s.fmAccept q act = act s := by
  rw [State.fmAccept, if_pos (by simp [h])]

theorem fmAccept_late {s : State} {q : Packet} (hfm : q.fm = true) (hlate : s.fab.fmWin.ok (fmSeq q) = false) (act : State → State) :
    s.fmAccept q act = s.fmFail := by
  rw [State.fmAccept, if_neg (by simp [hfm]), if_neg (by simp [hlate])]

section
variable {s v : State} {p : Fin 40} {pk q : Packet} (h : s.arrives p pk q v) {ty : Nat} (hty : pk.ptype = ty) {ok : Packet → Bool}
  (hok : ok q = true)
include h

theorem freed_frame (code : Nat) : v.freePackets code [(p.val, pk)] =
    { s with ports := (v.freePackets code [(p.val, pk)]).ports, fab := { s.fab with wins := v.fab.wins } } := by
  rw [arrives_frame h]
  rfl

/-- The module that a flooded packet acts on differs in its ports and its fabric only. -/
theorem noted_frame (code : Nat) : ∃ ports fab, ((v.freePackets code [(p.val, pk)]).fmTaken q).floodNote q.srcdev q.arg =
    { s with ports := ports, fab := fab } ∧ fab.flood = ((q.srcdev, q.arg) :: s.fab.flood).take 256 := by
  rw [freed_frame h code]
  unfold State.fmTaken
  split
  · exact ⟨_, _, rfl, rfl⟩
  · exact ⟨_, _, rfl, rfl⟩

theorem flood_freed (code : Nat) : (v.freePackets code [(p.val, pk)]).fab.flood = s.fab.flood ∧
    (v.freePackets code [(p.val, pk)]).fab.fmWin = s.fab.fmWin := by
  rw [freed_frame h code]
  exact ⟨rfl, rfl⟩

include hty hok

theorem flooded_arrives (act : Packet → State → State) : s.flooded p pk [ty] ok act =
    if (q.srcdev, q.arg) ∈ s.fab.flood then v.freePackets 1 [(p.val, pk)]
    else (v.freePackets 1 [(p.val, pk)]).fmAccept q (fun w =>
      let t := act q (w.floodNote q.srcdev q.arg)
      if p.val < 36 then t.floodCopies q (some (p.val / 6)) else t) := by
  unfold State.flooded
  rw [pktArrive_arrives h (by simp [hty])]
  refine (if_neg (by simp [hok])).trans (if_congr ?_ rfl rfl)
  rw [(flood_freed h 1).1, List.contains_iff_mem]

section
variable {act : Packet → State → State}

theorem flooded_known (hknown : (q.srcdev, q.arg) ∈ s.fab.flood) : s.flooded p pk [ty] ok act = v.freePackets 1 [(p.val, pk)] :=
  (flooded_arrives h hty hok act).trans (if_pos hknown)

theorem flooded_late (hnew : (q.srcdev, q.arg) ∉ s.fab.flood) (hfm : q.fm = true) (hlate : s.fab.fmWin.ok (fmSeq q) = false) :
    s.flooded p pk [ty] ok act = (v.freePackets 1 [(p.val, pk)]).fmFail := by
  rw [flooded_arrives h hty hok act, if_neg hnew, fmAccept_late hfm (by rwa [(flood_freed h 1).2])]

theorem flooded_new (hnew : (q.srcdev, q.arg) ∉ s.fab.flood) (hfm : q.fm = false ∨ s.fab.fmWin.ok (fmSeq q) = true) :
    s.flooded p pk [ty] ok act =
      let x := act q (((v.freePackets 1 [(p.val, pk)]).fmTaken q).floodNote q.srcdev q.arg)
      if p.val < 36 then x.floodCopies q (some (p.val / 6)) else x := by
  rw [flooded_arrives h hty hok act, if_neg hnew, fmAccept_taken (by rwa [(flood_freed h 1).2])]

end

/-- A flooded packet acts once: a known one does nothing, one of the fabric manager whose sequence number is not in the window is counted, and
any other acts, is noted and goes on (R306, R457). What it leaves of the schedule and the Husk is that of its action, on a module that differs
from this one in its ports and its fabric only. -/
theorem gives_flooded {i : Instr} {act : Packet → State → State} (hexec : exec i s = .next (s.flooded p pk [ty] ok act))
    {P : State → Prop} (flood : ∀ t : State, (act q t).fab.flood = t.fab.flood)
    (effect : ∀ ports fab x, State.sched x = (act q { s with ports := ports, fab := fab }).sched →
      x.husk = (act q { s with ports := ports, fab := fab }).husk → P x) :
    let u := v.freePackets 1 [(p.val, pk)]
    let known := (q.srcdev, q.arg) ∈ s.fab.flood
    (known → Gives i s (fun t => t = u)) ∧
    (¬ known → q.fm = true → s.fab.fmWin.ok (fmSeq q) = false → Gives i s (fun t => t = u.fmFail)) ∧
    (¬ known → q.fm = false ∨ s.fab.fmWin.ok (fmSeq q) = true → Gives i s (fun t =>
      let w := if q.fm then { u with fab := { u.fab with fmWin := u.fab.fmWin.take (fmSeq q) } } else u
      let x := act q (w.floodNote q.srcdev q.arg)
      t = (if p.val < 36 then x.floodCopies q (some (p.val / 6)) else x) ∧
      t.fab.flood = ((q.srcdev, q.arg) :: s.fab.flood).take 256 ∧ P t)) := by
  refine ⟨fun hknown => ⟨_, hexec, flooded_known h hty hok hknown⟩, fun hnew hfm hlate => ⟨_, hexec, flooded_late h hty hok hnew hfm hlate⟩,
    fun hnew hfm => ⟨_, hexec, flooded_new h hty hok hnew hfm, ?_⟩⟩
  rw [flooded_new h hty hok hnew hfm]
  obtain ⟨ports, fab, found, noted⟩ := noted_frame h 1
  rw [found]
  extract_lets x
  have flooded : x.fab.flood = ((q.srcdev, q.arg) :: s.fab.flood).take 256 := (flood _).trans noted
  obtain ⟨copied, sched, husk⟩ := floodCopies_fab x q (some (p.val / 6))
  split
  · exact ⟨(congrArg FabSt.flood copied).trans flooded, effect ports fab _ sched husk⟩
  · exact ⟨flooded, effect ports fab _ rfl rfl⟩

end

/-- The kind is one byte. -/
theorem fenceKind_ne (x : Packet) : fenceKind x ≠ 0x100 := by
  unfold fenceKind leAt
  match h : (x.payload.drop 2).take 1 with
  | [] => simp [ofLe]
  | [b] =>
    have byte := b.isLt
    simp only [ofLe]
    omega
  | a :: b :: xs =>
    have short := congrArg List.length h
    simp only [List.length_take, List.length_cons] at short
    omega

section
variable {s v : State} {p : Fin 40} {pk q : Packet} (h : s.arrives p pk q v)
include h

/-- The packet of fabric-manager control is told apart by its kind before it is taken (R367, R369). -/
theorem fenced_arrives {typ other : Nat} (hkind : fenceKind q ≠ other) (act : Packet → State → State) :
    s.fenced_ p pk typ other act = s.flooded p pk [typ] fencePlOk act := by
  have seen : (if p.val < 36 then pk else s.treeOpen pk) = q := by
    rcases h.2 with ⟨torus, -, hq, -⟩ | ⟨tree, -, -, hq, -⟩
    · rw [if_pos torus, hq]
    · rw [if_neg (by omega), hq]
  exact if_neg (fun hc => hkind (seen ▸ hc.2))

theorem exec_fenceLoss (hkind : fenceKind q = 1) : exec (.fenceLoss p pk) s =
    .next (s.flooded p pk [2] fencePlOk (fun q t => t.fenceLoss (leAt q.payload 4 4))) :=
  congrArg Host.Outcome.next (fenced_arrives h (by rw [hkind]; decide) _)

theorem exec_fenceSeal (hkind : fenceKind q = 2) : exec (.fenceSeal p pk) s =
    .next (s.flooded p pk [2] fencePlOk (fun q t => t.sealAct (leAt q.payload 8 8))) :=
  congrArg Host.Outcome.next (fenced_arrives h (by rw [hkind]; decide) _)

theorem exec_recoverResume : exec (.recoverResume p pk) s =
    .next (s.flooded p pk [3] fencePlOk (fun q t => t.resumeAct (leAt q.payload 0 2) (leAt q.payload 8 8))) :=
  congrArg Host.Outcome.next (fenced_arrives h (fenceKind_ne q) _)

/-- A packet of an earlier epoch, for this module. -/
theorem exec_served_old {i : Instr} {ty : Nat} {ecc : List (Nat × Ecc)} (hi : (i, ty) ∈ servedPackets p pk ecc) (hty : pk.ptype = ty)
    (hd : q.dstdev = s.devNum) (hold : q.epchk = true ∧ 32768 ≤ (q.epoch + 65536 - s.sched.placeEpoch) % 65536) : exec i s = .next (
      if ty / 16 = 1 then (v.freePackets pk.code [(p.val, pk)]).staleSeen.reply q 0x22 5 []
      else (v.freePackets pk.code [(p.val, pk)]).staleSeen) := by
  obtain ⟨serve, hexec⟩ := exec_served hi
  rw [hexec, pktServe_old h hty hd hold.1 hold.2]

end

/-- Settles O35: packets by what serves them, Reel and collective packets by their arrival, flooded ones by the rule of floods. -/
theorem packetsAndFloods : Obligations.PacketsAndFloods := by
  unfold Obligations.PacketsAndFloods
  refine ⟨⟨fun p pk q s v h => ?_, fun p pk s h hty => ?_, fun n o s ho hlost => ?_⟩, fun p pk q s v h hptype => ?_⟩
  · extract_lets u age now old
    refine ⟨fun hd i ty ecc hi hty => ?forwards, fun hd hptype => ?here⟩
    case forwards =>
      have sent := exec_forwards h (ecc := ecc) hi hty hd
      refine ⟨⟨_, sent, rfl⟩, fun d out hblock hdir hout hepoch hform => ⟨_, sent, ?_⟩⟩
      have same : q.ptype = ty := (arrives_ptype h).trans hty
      exact forwardPkt_single hblock hdir (by rwa [same]) hepoch (by rwa [same, ver_freed h])
    case here =>
      have freed : u = { s with ports := u.ports, fab := { s.fab with wins := v.fab.wins } } := freed_frame h pk.code
      have txns : u.fab.txns = s.fab.txns := by rw [freed]
      refine ⟨fun hold i ty ecc hi hty => ?stale, fun hold i ty hi hty => ?dropped, fun hty hnow ecc => ?read, fun hty hnow => ?write,
        fun hty hnow => ?add, fun hnow x c slot kinds hx hown => ?responses, fun hnow hx => ?strays, fun hty hnow => ?objrsp,
        fun hty hnow hfm hlife => ?unlife, fun hty hnow hfm hon hlen hresult htyp hshape => ?get, fun hty hnow => ?coll,
        fun hty hold => ?collOld, fun hty hnow hidle => ?collIdle⟩
      case stale =>
        have request : ty / 16 = 1 := by
          simp only [List.mem_cons, List.not_mem_nil, or_false, Prod.mk.injEq] at hi
          omega
        have served : (i, ty) ∈ servedPackets p pk ecc := List.mem_append_left [_, _, _, _, _] hi
        exact ⟨_, exec_served_old h served hty hd hold, if_pos request⟩
      case dropped =>
        have response : ty / 16 ≠ 1 := by
          simp only [List.mem_cons, List.not_mem_nil, or_false, Prod.mk.injEq] at hi
          omega
        have served : (i, ty) ∈ servedPackets p pk [] := List.mem_append_right [_, _, _] hi
        exact ⟨_, exec_served_old h served hty hd hold, if_neg response⟩
      case read => exact ⟨_, congrArg Host.Outcome.next (pktServe_now h hty hd hnow _), rfl⟩
      case write => exact ⟨_, congrArg Host.Outcome.next (pktServe_now h hty hd hnow _), rfl⟩
      case add => exact ⟨_, congrArg Host.Outcome.next (pktServe_now h hty hd hnow _), rfl⟩
      case responses =>
        have awaited : u.fab.txns.get none q.txn = some x := by rw [txns, hx]
        have cores : ∀ d, u.core d = s.core d := fun d => by rw [freed]; rfl
        have mem : u.mem = s.mem := by rw [freed]
        intro gets
        have ends : ∀ data st, gets data st ((u.closeTxn q.txn).respond c slot kinds data st) := by
          intro data st
          obtain ⟨closed, kept, others, own⟩ := respond_closed u q.txn c slot kinds data st
          exact ⟨closed, kept.trans mem, fun d hd => (others d hd).trans (cores d), own.trans (by rw [cores])⟩
        refine ⟨fun hty hlen => ?_, fun hty => ?_, fun hty => ?_⟩
        · refine ⟨_, congrArg Host.Outcome.next ((pktServe_now h hty hd hnow _).trans (serveData_stream awaited hown hlen)), ends _ _⟩
        · refine ⟨_, congrArg Host.Outcome.next ((pktServe_now h hty hd hnow _).trans (serveAck_stream awaited hown)), ends _ _⟩
        · refine ⟨_, congrArg Host.Outcome.next ((pktServe_now h hty hd hnow _).trans (serveErr_stream awaited hown)), ends _ _⟩
      case strays =>
        have stray : u.fab.txns.get none q.txn = none := by rw [txns, hx]
        refine ⟨fun hty => ?_, fun hty => ?_, fun hty => ?_⟩
        · exact ⟨_, congrArg Host.Outcome.next ((pktServe_now h hty hd hnow _).trans (serveData_none stray)), rfl⟩
        · exact ⟨_, congrArg Host.Outcome.next ((pktServe_now h hty hd hnow _).trans (serveAck_none stray)), rfl⟩
        · exact ⟨_, congrArg Host.Outcome.next ((pktServe_now h hty hd hnow _).trans (serveErr_none stray)), rfl⟩
      case objrsp => exact ⟨_, congrArg Host.Outcome.next (pktServe_now h hty hd hnow _), rfl⟩
      case unlife =>
        have life : u.life = 0 := (congrArg State.life freed).trans hlife
        exact ⟨_, congrArg Host.Outcome.next ((pktServe_now h hty hd hnow _).trans ((fmAccept_plain hfm _).trans (serveObj_unlife life))), rfl⟩
      case get =>
        have answers : u.odAnswers = true := by
          rw [freed]
          exact hon
        exact ⟨_, congrArg Host.Outcome.next ((pktServe_now h hty hd hnow _).trans
          ((fmAccept_plain hfm _).trans (serveObj_get hfm answers hlen hresult htyp hshape))), rfl⟩
      case coll => exact ⟨_, exec_pktColl_here h hty hd, rfl⟩
      all_goals
        have sched : v.sched = s.sched := by rw [arrives_frame h]
        have hubs : ∀ d, v.hub d = s.hub d := fun d => by rw [arrives_frame h]; rfl
      case collOld => exact ⟨_, (exec_pktColl_here h hty hd).trans (congrArg _ (collArrive_old hold.1 (by rw [sched]; exact hold.2) p)), rfl⟩
      case collIdle =>
        refine ⟨_, (exec_pktColl_here h hty hd).trans (congrArg _ (collArrive_now (by rwa [sched]) p (by rwa [hubs]))), rfl, ?_, fun d hne => ?_⟩
        · exact (hub_updHub v (portHub p) (portHub p) _).trans ((if_pos rfl).trans (by rw [hubs]))
        · exact (hub_updHub v (portHub p) d _).trans ((if_neg hne).trans (hubs d))
  · extract_lets dir held
    refine ⟨fun hold => ?_, fun hnow hnone hoff => ?_, fun hnow hnone hoff => ?_, fun l hnow hl => ⟨fun hbehind => ?_, fun hbehind hlen => ?_,
      fun hbehind hlen => ?_⟩⟩
    · exact ⟨_, exec_pktReel_leaves h hty (reelArrive_old p hold) rfl, rfl⟩
    · exact ⟨_, exec_pktReel_held h hty (n := 1) ((reelArrive_now p hnow).trans (by rw [hnone, hoff]; rfl)), rfl⟩
    · exact ⟨_, exec_pktReel_leaves h hty ((reelArrive_now p hnow).trans (by rw [hnone, hoff]; rfl)) rfl, rfl⟩
    · exact ⟨_, exec_pktReel_held h hty (n := 0) ((reelArrive_now p hnow).trans (by rw [hl, hbehind]; rfl)), rfl⟩
    · refine ⟨_, exec_pktReel_leaves h hty (t := s) ((reelArrive_now p hnow).trans ?_) rfl, rfl⟩
      rw [hl, hbehind]
      exact (if_neg Bool.false_ne_true).trans (if_neg (by omega))
    · refine ⟨_, exec_pktReel_leaves h hty (t := s.reelLand p l pk) ((reelArrive_now p hnow).trans ?_) (reelHeld_reelLand s p l pk), rfl⟩
      rw [hl, hbehind]
      exact (if_neg Bool.false_ne_true).trans (if_pos hlen)
  · obtain ⟨opens, next⟩ := sendOpen_fab { s with fab := { s.fab with opens := s.fab.opens.set none n none } } o
    refine ⟨_, exec_packetCloseTimer ho hlost, ?_, next, rfl⟩
    rw [opens]
    simp
  · extract_lets u known g d acts
    refine ⟨fun hty => ?stop, fun hty hok hkind => ?loss, fun hty hok hkind hflushing hflushed hlost => ?sealing, fun hty hok => ?resume⟩
    case stop =>
      refine gives_flooded h hty (ok := fun _ => true) rfl (act := fun _ t => t.stopImage 4) rfl (fun t => ?_) (fun ports fab x hsched _ => ?_)
      · exact (congrArg FabSt.flood (workOnly_stopImage t 4).fab).trans rfl
      · exact (congrArg SchedSt.st hsched).trans (st_stopImage _ 4)
    case loss =>
      refine gives_flooded h hty hok (exec_fenceLoss h hkind) (fun t => (fenceLoss_spec t _).2.1) (fun ports fab x hsched hhusk => ?_)
      have loss := fenceLoss_spec { s with ports := ports, fab := fab } (leAt q.payload 4 4)
      beta_reduce at hsched hhusk
      generalize State.fenceLoss _ _ = y at hsched hhusk loss
      obtain ⟨-, -, sched, lost, fences⟩ := loss
      rw [hsched, hhusk]
      exact ⟨sched, lost.trans (lost_loses _ _), fences⟩
    case sealing =>
      refine gives_flooded h hty hok (exec_fenceSeal h hkind) (fun t => flood_sealAct t _) (fun ports fab x _ hhusk => ?_)
      rw [hhusk]
      refine ⟨fun hst hg => ?_, fun hst => ?_⟩
      · have folded := sealAct_folded (s := { s with ports := ports, fab := fab }) hflushing hflushed hlost hst
        rw [← hg] at folded
        exact folded
      · exact sealAct_sealed (s := { s with ports := ports, fab := fab }) hflushing hflushed hlost hst _
    case resume =>
      refine gives_flooded h hty hok (exec_recoverResume h) (fun t => congrArg FabSt.flood (resumeAct_eq t _ _).1)
        (fun ports fab x _ hhusk => ?_)
      rw [hhusk, (resumeAct_eq _ _ _).2]
      exact ⟨fun hst => if_pos hst, fun h9 h1 => if_neg (not_or.mpr ⟨h9, h1⟩)⟩

end Sys2Proof.Machine

/-! SUPPORT. The collective sequencer of a hub: its table, the start gate of a descriptor and its end (R311, R312). -/

namespace Sys2Proof.Machine

theorem MemOnly.hub {s t : State} (h : MemOnly s t) (d : Nat) : t.hub d = s.hub d := by
  rw [h]
  rfl

theorem MemOnly.opt {s t : State} (h : MemOnly s t) : t.opt = s.opt := by
  rw [h]

theorem hub_updColl (s : State) (a b : Nat) (f : CollSt → CollSt) :
    (s.updColl a f).hub b = if b = a then { s.hub a with coll := f (s.hub a).coll } else s.hub b :=
  hub_updHub s a b _

theorem memOnly_devTouch (s : State) (o n : Nat) : MemOnly s (s.devTouch o n) := by
  unfold State.devTouch
  split
  · exact memOnly_devRead s o n
  · exact .refl s

theorem memOnly_forEach {α : Type} {f : State → α → State} (hf : ∀ u x, MemOnly u (f u x)) (xs : List α) (s : State) :
    MemOnly s (s.forEach xs f) :=
  List.foldlRecOn (motive := MemOnly s) xs f (.refl s) (fun _ kept x _ => kept.trans (hf _ x))

/-- An addition to a gate that is not poisoned stops no image (R150, R153, R206). -/
theorem memOnly_gateAdd {s : State} {o : Nat} (hread : (s.devRead o 8).2 ≠ none) (n : Nat) : MemOnly s (s.gateAdd o n) := by
  unfold State.gateAdd
  split
  · exact memOnly_updRegion s _ _
  · unfold State.gateDo
    extract_lets r
    split
    next hnone => exact absurd hnone hread
    next => exact (memOnly_devRead s o 8).trans (memOnly_devWrite _ _ _)

/-! The table (R311). -/

section
variable {h : Fin 2} {v : Word} {s : State}

theorem exec_collLoad_unset (hv : bit v 0 = false) : exec (.collLoad h v) s = .next s := by
  have ignored : s.storeCollLoad h v = s := if_pos (by simp [hv])
  show execCollLoad h v s = _
  rw [execCollLoad, ignored, ite_self]

theorem exec_collLoad (hclk : (s.hub h).clken.getLsbD 2 = true) (hlost : s.clock.lost = false) :
    exec (.collLoad h v) s = .next (s.storeCollLoad h v) :=
  congrArg Host.Outcome.next (if_pos (by simp [hclk, hlost]))

end

/-! The start gate of a descriptor (R151, R312). -/

section
variable {s : State} {o target : Nat}

theorem gateTest_unserved (hwaits : s.sliceWaits deviceStream o = true) (consume : Bool) : s.gateTest o target consume = (s, false) :=
  if_pos hwaits

variable {b : List Byte} (hserved : s.sliceWaits deviceStream o = false) (hread : (s.devRead o 8).2 = some b)
include hserved hread

theorem gateTest_of_lt (hb : ofLe b < target) (consume : Bool) : s.gateTest o target consume = ((s.devRead o 8).1, false) := by
  rw [State.gateTest, if_neg (by simp [hserved])]
  simp only [hread, if_pos hb]

theorem gateTest_consumes (hb : target ≤ ofLe b) :
    s.gateTest o target true = ((s.devRead o 8).1.devWrite o (leBytes 8 (ofLe b - target)), true) := by
  rw [State.gateTest, if_neg (by simp [hserved])]
  simp only [hread, if_neg (Nat.not_lt.mpr hb), if_true]

end

/-- A sequencer whose descriptor of state `s` has passed its start gate, which left `t`: the move list is read, and the program of the
descriptor stands (R312, R325). -/
def State.collBegins (s t : State) (h : Nat) : State :=
  let d := s.collDesc h
  (if cOp d = 5 then t.devTouch (cSrc d) (32 * cCount d) else t).updColl h (fun k =>
    { k with st := 2, prog := s.collProg d, queue := k.queue.drop 1 })

theorem clken_collBegins {s t : State} (ht : MemOnly s t) (h : Nat) : ((s.collBegins t h).hub h).clken = (s.hub h).clken := by
  unfold State.collBegins
  extract_lets d
  have listed : MemOnly s (if cOp d = 5 then t.devTouch (cSrc d) (32 * cCount d) else t) := by
    split
    · exact ht.trans (memOnly_devTouch t _ _)
    · exact ht
  rw [hub_updColl, if_pos rfl, listed.hub]

/-- A sequencer whose reducer is gated does not go on (R393). -/
theorem collGo_gated {s : State} {h : Nat} (hclk : (s.hub h).clken.getLsbD 0 = false) : s.collGo h = s :=
  if_neg (by rw [hclk, Bool.and_false]; exact Bool.false_ne_true)

section
variable {h : Fin 2} {s t : State} (hst : (s.hub h).coll.st = 1) (hrun : s.sched.st = 3) (hclk : (s.hub h).clken.getLsbD 2 = true)
  (hlost : s.clock.lost = false)
include hst hrun hclk hlost

theorem exec_collStartGate_stays (htest : s.gateTest (cStartG (s.collDesc h)) (cStartT (s.collDesc h)) true = (t, false)) :
    exec (.collStartGate h) s = .next t := by
  refine (if_neg (by simp [hst, hrun, hclk, hlost])).trans ?_
  rw [htest]
  rfl

theorem exec_collStartGate_starts (htest : s.gateTest (cStartG (s.collDesc h)) (cStartT (s.collDesc h)) true = (t, true)) :
    exec (.collStartGate h) s = .next ((s.collBegins t h).collGo h) := by
  refine (if_neg (by simp [hst, hrun, hclk, hlost])).trans ?_
  rw [htest]
  rfl

end

/-! The end of a descriptor (R312). -/

theorem collNext_last {k : CollSt} (h : k.queue = []) : (collNext k).st = 3 := by
  rw [collNext, h]

theorem collNext_more {k : CollSt} {i : Nat} {r : List Nat} (h : k.queue = i :: r) : (collNext k).st = 1 ∧ (collNext k).index = i := by
  rw [collNext, h]
  exact ⟨rfl, rfl⟩

theorem exec_collDescriptorDone {h : Fin 2} {s : State} (hst : (s.hub h).coll.st = 2) (hprog : (s.hub h).coll.prog = [])
    (hacks : (s.hub h).coll.acks = 0) (hrun : s.sched.st = 3) (hlost : s.clock.lost = false) :
    exec (.collDescriptorDone h) s = .next (
      (if cDoneAdd (s.collDesc h) = 0 then s else s.gateAdd (cDoneG (s.collDesc h)) (cDoneAdd (s.collDesc h))).updColl h collNext) :=
  if_pos ⟨hst, hprog, hacks, hrun, hlost⟩

end Sys2Proof.Machine

/-! SUPPORT. OptPrepare, OptCommit and TrainStepSet (R339 to R341). -/

namespace Sys2Proof.Machine

/-- The objects of the three training actions (R412). -/
theorem objectsAt_train : objectsAt 0x0B05 = [⟨0x0B05, 0, 0, .u64, .act⟩] ∧ objectsAt 0x0B06 = [⟨0x0B06, 0, 0, .u64, .act⟩] ∧
    objectsAt 0x0B07 = [⟨0x0B07, 0, 0, .u64, .act⟩] := by decide

theorem ofLe_leBytes_toNat (n : BitVec 64) : ofLe (leBytes 8 n.toNat) = n.toNat := by
  rw [ofLe_leBytes]
  exact Nat.mod_eq_of_lt n.isLt

theorem opt_taken (s : State) (idx sub : Nat) (b : List Byte) : (s.taken idx sub b).opt = s.opt := by
  rw [taken_frame]

theorem cores_taken (s : State) (idx sub : Nat) (b : List Byte) : (s.taken idx sub b).cores = s.cores := by
  rw [taken_frame]

theorem opt_answer (s : State) (q : OdReq) (st : Nat) : (s.answer q st).opt = s.opt := by
  unfold State.answer
  split <;> rfl

/-- The device reads two ranges and writes a third, as it does for each group of the optimiser (R339, R340). -/
theorem memOnly_readsAndWrites (s : State) (o n p m a : Nat) (bs : List Byte) :
    MemOnly s (((s.devTouch o n).devTouch p m).devWrite a bs) :=
  ((memOnly_devTouch s o n).trans (memOnly_devTouch _ p m)).trans (memOnly_devWrite _ a bs)

theorem memOnly_writeCoefs (s : State) (n : Nat) : MemOnly s (s.writeCoefs n) :=
  memOnly_forEach (fun u _ => memOnly_readsAndWrites u _ _ _ _ _ _) _ s

/-- The module once the coefficients of a prepared step have been copied into the records of their groups (R340). -/
def State.commitCoefs (s : State) : State :=
  s.forEach (List.range s.opt.count) (fun s i =>
    let o := gCoef (s.groupAt i) + 52
    ((s.devTouch (s.groupOff i) 128).devTouch o 8).devWrite (s.groupOff i + 76) (s.peek o 8))

theorem memOnly_commitCoefs (s : State) : MemOnly s s.commitCoefs :=
  memOnly_forEach (fun u _ => memOnly_readsAndWrites u _ _ _ _ _ _) _ s

/-- The first group that fails, as OptPrepare looks for it (R339). -/
def State.firstBad (s : State) (n : Nat) : Option Nat := (List.range s.opt.count).find? (fun i => s.groupFails n i)

theorem firstBad_none {s : State} {n : Nat} (h : ∀ i, i < s.opt.count → s.groupFails n i = false) : s.firstBad n = none := by
  simpa [State.firstBad] using h

theorem firstBad_some {s : State} {n i : Nat} (hi : i < s.opt.count) (hbad : s.groupFails n i = true)
    (hfirst : ∀ j, j < i → s.groupFails n j = false) : s.firstBad n = some i := by
  simpa [State.firstBad, List.find?_range_eq_some, hi, hbad] using hfirst

theorem opt_noteAct (s : State) (idx st : Nat) : (s.noteAct .act idx 0 st).opt = s.opt := rfl

theorem peek_noteAct (s : State) (idx st : Nat) : (s.noteAct .act idx 0 st).peek = s.peek := rfl

/-- The checks of a group read the optimiser's objects and device memory, not the status of an action (R339). -/
theorem groupFails_noteAct (s : State) (idx st n i : Nat) : (s.noteAct .act idx 0 st).groupFails n i = s.groupFails n i := by
  unfold State.groupFails State.groupAt State.groupOff State.coefOf State.curveBad State.curve State.curveNb
  rw [peek_noteAct, opt_noteAct]

theorem firstBad_noteAct (s : State) (idx st n : Nat) : (s.noteAct .act idx 0 st).firstBad n = s.firstBad n := by
  simp only [State.firstBad, groupFails_noteAct, opt_noteAct]

theorem actOptPrepare_inv (s : State) (n : Nat) : (actOptPrepare s n).inv =
    (!decide (n = (s.opt.step + 1) % 2 ^ 64) || (s.firstBad n).isSome || decide (hbmTop < s.opt.gate + 8)) := rfl

theorem actOptPrepare_eff (s : State) (n : Nat) :
    (actOptPrepare s n).eff = { s.writeCoefs n with opt := { s.opt with failGroup := 0xFFFF, running := some n } } := by
  rw [← (memOnly_writeCoefs s n).opt]
  rfl

/-- OptFailGroup names a group (R339). -/
def State.namesGroup (s : State) (i : Nat) : State := { s with opt := { s.opt with failGroup := i } }

/-- A group that fails makes the step INVALID and is named (R339). -/
theorem actOptPrepare_refuses {s : State} {n i : Nat} (hnext : n = (s.opt.step + 1) % 2 ^ 64) (hbad : s.firstBad n = some i) :
    (actOptPrepare s n).inv = true ∧ (actOptPrepare s n).rej = some (s.namesGroup i) := by
  unfold State.firstBad at hbad
  simp only [actOptPrepare, hbad, decide_eq_true hnext]
  exact ⟨rfl, rfl⟩

theorem actOptCommit_eff (s : State) (n : Nat) :
    (actOptCommit s n).eff = { s.commitCoefs with opt := { s.opt with step := n, prepared := 0 } } := by
  rw [← (memOnly_commitCoefs s).opt]
  rfl

section
variable {q : OdReq} {n : BitVec 64} {s : State}

section
variable {idx : Nat} {act : State → Nat → Act} (h : s.admits q idx (leBytes 8 n.toNat)) (ho : objectsAt idx = [⟨idx, 0, 0, .u64, .act⟩])
  (hbank : banked idx = false) (hact : ∀ (t : State) (b : List Byte), t.objAct q.cpu idx 0 b = act t (ofLe b))
include h ho hbank hact

/-- An action of a U64 value that its object admits takes effect (R412). -/
theorem put_action (hinv : (act (s.noteAct .act idx 0 0) n.toNat).inv = false) (hbad : (act (s.noteAct .act idx 0 0) n.toNat).bad = false) :
    s.put q idx 0 (leBytes 8 n.toNat) = (act (s.taken idx 0 (leBytes 8 n.toNat)) n.toNat).eff.answer q 0 := by
  have object := objOf_of_single ho (Nat.le_refl 0) (Nat.le_refl 0)
  simp only [State.put, hact, ofLe_leBytes_toNat]
  exact request_taken (act · n.toNat) h (by simp [ho]) hbank object rfl rfl hinv hbad

/-- An action of a U64 value out of its range is INVALID, and leaves what it says of a refusal (R412). -/
theorem put_invalid (hinv : (act (s.noteAct .act idx 0 0) n.toNat).inv = true) : s.put q idx 0 (leBytes 8 n.toNat) =
    (((act (s.noteAct .act idx 0 0) n.toNat).rej.getD (s.noteAct .act idx 0 0)).noteAct .act idx 0 3).answer q 3 := by
  have object := objOf_of_single ho (Nat.le_refl 0) (Nat.le_refl 0)
  simp only [State.put, hact, ofLe_leBytes_toNat]
  rw [request_cases (act · n.toNat) h (by simp [ho]) hbank object nofun rfl]
  exact if_pos hinv

end

theorem exec_optPrepare (hidle : s.opt.running = none) (h : s.admits q 0x0B05 (leBytes 8 n.toNat))
    (hnext : n.toNat = (s.opt.step + 1) % 2 ^ 64) (hst : ¬ (s.sched.st = 0 ∨ s.sched.st = 1 ∨ s.sched.st = 5))
    (hgood : s.firstBad n.toNat = none) (hgate : s.opt.gate + 8 ≤ hbmTop) : exec (.optPrepare q n) s =
      .next (State.answer { (s.taken 0x0B05 0 (leBytes 8 n.toNat)).writeCoefs n.toNat with
        opt := { s.opt with failGroup := 0xFFFF, running := some n.toNat } } q 0) := by
  have valid : (actOptPrepare (s.noteAct .act 0x0B05 0 0) n.toNat).inv = false := by
    rw [actOptPrepare_inv, firstBad_noteAct, hgood, opt_noteAct, decide_eq_true hnext, decide_eq_false (Nat.not_lt.mpr hgate)]
    rfl
  have ready : (actOptPrepare (s.noteAct .act 0x0B05 0 0) n.toNat).bad = false := by
    show (decide (s.sched.st = 0 ∨ s.sched.st = 1 ∨ s.sched.st = 5) || s.opt.running.isSome) = false
    simp [hst, hidle]
  obtain ⟨object, -, -⟩ := objectsAt_train
  refine congrArg Host.Outcome.next ((put_action h object rfl (fun _ _ => rfl) valid ready).trans (congrArg (State.answer · q 0) ?_))
  rw [actOptPrepare_eff, opt_taken]

/-- OptPrepare is INVALID for the first group that fails, which OptFailGroup names (R339). -/
theorem exec_optPrepare_bad {i : Nat} (h : s.admits q 0x0B05 (leBytes 8 n.toNat)) (hnext : n.toNat = (s.opt.step + 1) % 2 ^ 64)
    (hbad : s.firstBad n.toNat = some i) : exec (.optPrepare q n) s =
      .next ((((s.noteAct .act 0x0B05 0 0).namesGroup i).noteAct .act 0x0B05 0 3).answer q 3) := by
  obtain ⟨invalid, names⟩ := actOptPrepare_refuses (s := s.noteAct .act 0x0B05 0 0) hnext ((firstBad_noteAct s _ 0 _).trans hbad)
  obtain ⟨object, -, -⟩ := objectsAt_train
  refine congrArg Host.Outcome.next ((put_invalid h object rfl (fun _ _ => rfl) invalid).trans ?_)
  rw [names, Option.getD_some]

theorem exec_optCommit (hidle : s.opt.running = none) (h : s.admits q 0x0B06 (leBytes 8 n.toNat))
    (hnext : n.toNat = (s.opt.step + 1) % 2 ^ 64) (hprepared : s.opt.prepared = n.toNat) (hst : ¬ (s.sched.st = 1 ∨ s.sched.st = 5)) :
    exec (.optCommit q n) s = .next (State.answer { (s.taken 0x0B06 0 (leBytes 8 n.toNat)).commitCoefs with
      opt := { s.opt with step := n.toNat, prepared := 0 } } q 0) := by
  have valid : (actOptCommit (s.noteAct .act 0x0B06 0 0) n.toNat).inv = false := decide_eq_false (not_not.mpr hnext)
  have ready : (actOptCommit (s.noteAct .act 0x0B06 0 0) n.toNat).bad = false := by
    show (decide (s.opt.prepared ≠ n.toNat) || decide (s.sched.st = 1 ∨ s.sched.st = 5) || s.opt.running.isSome) = false
    simp [hprepared, hst, hidle]
  obtain ⟨-, object, -⟩ := objectsAt_train
  refine congrArg Host.Outcome.next ((put_action h object rfl (fun _ _ => rfl) valid ready).trans (congrArg (State.answer · q 0) ?_))
  rw [actOptCommit_eff, opt_taken]

theorem exec_trainStepSet (h : s.admits q 0x0B07 (leBytes 8 n.toNat)) (hbusy : s.schedBusy = false) : exec (.trainStepSet q n) s =
    .next (State.answer { s.taken 0x0B07 0 (leBytes 8 n.toNat) with opt := { s.opt with step := n.toNat, prepared := 0 } } q 0) := by
  obtain ⟨-, -, object⟩ := objectsAt_train
  refine congrArg Host.Outcome.next
    ((put_action (act := actTrainStepSet) h object rfl (fun _ _ => rfl) rfl hbusy).trans (congrArg (State.answer · q 0) ?_))
  rw [actTrainStepSet, opt_taken]

end

/-- The end of a preparation adds 1 to the gate, and the step is prepared (R339). -/
theorem exec_optPrepareDone {s : State} {n : Nat} (hlost : s.clock.lost = false) (hrun : s.opt.running = some n) :
    exec .optPrepareDone s = .next { s.gateAdd s.opt.gate 1 with opt := { s.opt with running := none, prepared := n } } := by
  show execOptPrepareDone s = _
  have kept : (s.gateAdd s.opt.gate 1).opt = s.opt := by rw [((WorkOnly.refl s).gateAdd s.opt.gate 1).frame]
  simp only [execOptPrepareDone, hlost, Bool.false_eq_true, if_false, hrun, kept]

/-- Settles O36: the sequencer by its table, its start gate and its end, the training actions by the rule of an admitted request, and each
outcome by what the device's own accesses to its memory leave of the module. -/
theorem collectivesAndSteps : Obligations.CollectivesAndSteps := by
  unfold Obligations.CollectivesAndSteps
  refine ⟨fun h v s hclk hlost => ?table, fun h b s hst hrun hclk hlost => ?start, fun h s hst hprog hacks hrun hlost hread => ?done,
    fun q n s hidle => ⟨fun hadm hnext h0 h1 h5 => ⟨fun hgood hgate => ?prepare, fun i hi hbad hfirst => ?names⟩,
      fun hadm hnext hprepared h1 h5 => ?commit, fun hadm hbusy => ?set, fun hlost m => ?prepared⟩⟩
  case table =>
    extract_lets k base count r
    refine ⟨fun hv => ⟨s, exec_collLoad_unset hv, rfl⟩, fun hv => ?_⟩
    have loaded := exec_collLoad (v := v) hclk hlost
    rw [State.storeCollLoad, if_neg (by simp [hv])] at loaded
    have read : MemOnly s (if r = 1 ∨ r = 5 then s else s.devTouch base (128 * count)) := by
      split
      · exact .refl s
      · exact memOnly_devTouch s _ _
    refine ⟨_, loaded, rfl, fun d hd => ?_, ?_⟩
    · exact (hub_updColl _ _ _ _).trans ((if_neg hd).trans (read.hub d))
    · rw [hub_updColl, if_pos rfl, read.hub]
  case start =>
    extract_lets d r
    refine ⟨fun hwaits => ?_, fun hserved hread => ⟨fun hb => ?_, fun hb => ?_⟩⟩
    · exact ⟨_, exec_collStartGate_stays hst hrun hclk hlost (gateTest_unserved hwaits true), rfl⟩
    · exact ⟨_, exec_collStartGate_stays hst hrun hclk hlost (gateTest_of_lt hserved hread hb true), rfl⟩
    · have consumed := (memOnly_devRead s (cStartG d) 8).trans
        (memOnly_devWrite (s.devRead (cStartG d) 8).1 (cStartG d) (leBytes 8 (ofLe b - cStartT d)))
      exact ⟨_, exec_collStartGate_starts hst hrun hclk hlost (gateTest_consumes hserved hread hb), rfl,
        fun hgated => collGo_gated (by rwa [clken_collBegins consumed])⟩
  case done =>
    have added : MemOnly s (if cDoneAdd (s.collDesc h) = 0 then s else s.gateAdd (cDoneG (s.collDesc h)) (cDoneAdd (s.collDesc h))) := by
      split
      next => exact .refl s
      next hne => exact memOnly_gateAdd (hread.resolve_left hne) _
    refine ⟨_, exec_collDescriptorDone hst hprog hacks hrun hlost, ?_⟩
    beta_reduce
    rw [hub_updColl, if_pos rfl, added.hub]
    exact ⟨rfl, added.cores, added.sched, apply_ite State.mem _ _ _, collNext_last, fun _ _ => collNext_more⟩
  case prepare =>
    have written := memOnly_writeCoefs (s.taken 0x0B05 0 (leBytes 8 n.toNat)) n.toNat
    exact ⟨_, exec_optPrepare hidle hadm hnext (by simp [h0, h1, h5]) (firstBad_none hgood) hgate, _, rfl,
      written.cores.trans (cores_taken s _ _ _), written.sched.trans (sched_taken s _ _ _), rfl⟩
  case names =>
    exact ⟨_, exec_optPrepare_bad hadm hnext (firstBad_some hi hbad hfirst), opt_answer _ q 3, mem_answer _ q 3⟩
  case commit =>
    exact ⟨_, exec_optCommit hidle hadm hnext hprepared (by simp [h1, h5]), _, rfl,
      (memOnly_commitCoefs _).cores.trans (cores_taken s _ _ _), by rw [State.commitCoefs, opt_taken]⟩
  case set => exact ⟨_, exec_trainStepSet hadm hbusy, _, rfl, rfl⟩
  case prepared => exact ⟨_, exec_optPrepareDone hlost rfl, rfl⟩

end Sys2Proof.Machine

/-! SUPPORT. What the stop of the image leaves of the Husk and of the parity engines (R137, R153, R361). -/

namespace Sys2Proof.Machine

/-- The Husk and the parity engines are the same in two states. -/
structure KeepsParity (s t : State) : Prop where
  husk : t.husk = s.husk
  par : ∀ h, t.par h = s.par h

namespace KeepsParity

theorem refl (s : State) : KeepsParity s s := ⟨rfl, fun _ => rfl⟩

theorem trans {s t u : State} (h : KeepsParity s t) (g : KeepsParity t u) : KeepsParity s u :=
  ⟨g.husk.trans h.husk, fun d => (g.par d).trans (h.par d)⟩

theorem forEach {α : Type} {f : State → α → State} (hf : ∀ u x, KeepsParity u (f u x)) (xs : List α) (s : State) :
    KeepsParity s (s.forEach xs f) :=
  List.foldlRecOn (motive := KeepsParity s) xs f (.refl s) (fun _ kept x _ => kept.trans (hf _ x))

theorem of_hubs {s t : State} (husk : t.husk = s.husk) (hubs : t.hubs = s.hubs) : KeepsParity s t :=
  ⟨husk, fun d => by unfold State.par State.hub; rw [hubs]⟩

end KeepsParity

theorem MemOnly.keepsParity {s t : State} (h : MemOnly s t) : KeepsParity s t := .of_hubs (by rw [h]) (by rw [h])

theorem OnlyCore.keepsParity {s t : State} {c : Nat} (h : OnlyCore s t c) : KeepsParity s t := .of_hubs (by rw [h.1]) (by rw [h.1])

theorem keepsParity_endSegment (s : State) (c endk : Nat) : KeepsParity s (s.endSegment c endk) := by
  unfold State.endSegment
  extract_lets q n o
  split
  · exact .refl s
  · extract_lets s1
    have recorded : KeepsParity s s1 := by
      unfold s1
      split
      · exact (onlyCore_upd s c _).keepsParity
      · exact (memOnly_devWrite s _ _).keepsParity.trans (onlyCore_upd _ c _).keepsParity
    split
    · exact recorded.trans (memOnly_post s1 _ _ _ _).keepsParity
    · exact recorded

theorem keepsParity_haltSeq (fcode : Nat) (s : State) (c : Nat) : KeepsParity s (s.haltSeq fcode c) := by
  unfold State.haltSeq
  extract_lets q
  split
  · exact (keepsParity_endSegment s c 2).trans (onlyCore_upd _ c _).keepsParity
  · exact .refl s

theorem keepsParity_steCancel (s : State) (c : Nat) : KeepsParity s (s.steCancel c) := by
  unfold State.steCancel
  extract_lets s1 gone _ s2 adm
  have withdrawn : KeepsParity s s1 := .forEach (fun u r => (memOnly_updRegion u r _).keepsParity) allRegions s
  clear_value s1
  have forgotten : KeepsParity s1 s2 := .of_hubs rfl rfl
  exact (withdrawn.trans forgotten).trans (onlyCore_upd s2 c _).keepsParity

theorem keepsParity_abandonCore (s : State) (c : Nat) : KeepsParity s (s.abandonCore c) := by
  unfold State.abandonCore
  extract_lets xs s1 s2 s3
  have raised : KeepsParity s s2 := by
    unfold s2
    split
    next h => exact (onlyCore_upd s c _).keepsParity.trans (onlyCore_raiseFlags s1 (.mxe ⟨c, h⟩) c _ ⟨⟨c, h⟩, rfl, .inl rfl⟩).keepsParity
    next => exact (onlyCore_upd s c _).keepsParity
  have counted : KeepsParity s2 { s3 with freeCtr := s.freeCtr + 1 + 16 * 12288 } := .of_hubs rfl rfl
  exact (raised.trans counted).trans (keepsParity_steCancel _ c)

theorem par_updColl (s : State) (n h : Nat) (f : CollSt → CollSt) : (s.updColl n f).par h = s.par h := by
  unfold State.par
  rw [hub_updColl]
  split
  next same => rw [same]
  next => rfl

theorem keepsParity_collDo (s : State) (n : Nat) (f : CollSt → CollSt) : KeepsParity s (s.collDo n f) := by
  have changed : KeepsParity s (s.updColl n (fun _ => f (s.hub n).coll)) := ⟨rfl, fun h => par_updColl s n h _⟩
  have freed : ∀ (t : State) (x : Nat × Packet), KeepsParity t (t.freeIngress x.1 4 (slotCount x.2)) := fun _ _ => .of_hubs rfl rfl
  exact changed.trans (.forEach freed _ _)

theorem keepsParity_collStop (s : State) : KeepsParity s s.collStop := by
  have forgets : ∀ (t : State) n, KeepsParity t (t.collForget n) := fun _ _ => .of_hubs rfl rfl
  exact (((keepsParity_collDo s 0 _).trans (forgets _ 0)).trans (keepsParity_collDo _ 1 _)).trans (forgets _ 1)

theorem keepsParity_haltImage (s : State) (fcode : Nat) : KeepsParity s (s.haltImage fcode) := by
  unfold State.haltImage
  extract_lets cs s1 s2 _ s3
  have halted : KeepsParity s s1 := .forEach (keepsParity_haltSeq fcode) cs s
  have abandoned : KeepsParity s1 s2 := .forEach keepsParity_abandonCore cs s1
  have marked : KeepsParity s2 s3 := .of_hubs rfl rfl
  exact ((halted.trans abandoned).trans marked).trans (keepsParity_collStop s3)

theorem keepsParity_stopImage (s : State) (fcode : Nat) : KeepsParity s (s.stopImage fcode) := by
  unfold State.stopImage
  split
  · have halted := keepsParity_haltImage s fcode
    generalize s.haltImage fcode = u at halted ⊢
    obtain ⟨n, since, g, moved⟩ := setSched_eq u 5
    rw [moved]
    exact halted.trans (.of_hubs rfl rfl)
  · exact .refl s

/-- An addition to a gate, even to one whose poisoned line stops the image, leaves the Husk and the parity engines (R153, R206). -/
theorem keepsParity_gateAdd (s : State) (o n : Nat) : KeepsParity s (s.gateAdd o n) := by
  unfold State.gateAdd
  split
  · exact (memOnly_updRegion s _ _).keepsParity
  · unfold State.gateDo
    extract_lets r
    have read : KeepsParity s r.1 := (memOnly_devRead s o 8).keepsParity
    split
    · exact read.trans (keepsParity_stopImage r.1 4)
    · exact read.trans (memOnly_devWrite r.1 o _).keepsParity

end Sys2Proof.Machine

/-! SUPPORT. The work of the parity engines leaves the schedule as it is (R359 to R364, R371, R372): one lemma for each operation, each from
those of the operations that it calls. -/

namespace Sys2Proof.Machine

theorem sched_forEach {α : Type} {f : State → α → State} (hf : ∀ u x, (f u x).sched = u.sched) (xs : List α) (s : State) :
    (s.forEach xs f).sched = s.sched :=
  List.foldlRecOn (motive := fun t : State => t.sched = s.sched) xs f rfl (fun _ kept x _ => (hf _ x).trans kept)

theorem LinksOnly.husk {s t : State} (h : LinksOnly s t) : t.husk = s.husk := by
  rw [h]

theorem LinksOnly.devNum {s t : State} (h : LinksOnly s t) : t.devNum = s.devNum := by
  rw [h]

theorem LinksOnly.cores {s t : State} (h : LinksOnly s t) : t.cores = s.cores := by
  rw [h]

theorem LinksOnly.mem {s t : State} (h : LinksOnly s t) : t.mem = s.mem := by
  rw [h]

theorem LinksOnly.sched {s t : State} (h : LinksOnly s t) : t.sched = s.sched := by
  rw [h]

/-! Chunks, pulls and errors. -/

theorem sched_chunkRead (s : State) (o n : Nat) : (s.chunkRead o n).1.sched = s.sched := by
  unfold State.chunkRead
  show (s.localRead deviceStream o n 1 []).1.sched = s.sched
  unfold State.localRead
  split
  · split
    · rfl
    · extract_lets r
      have read : r.1.sched = s.sched := (memOnly_memRead s deviceStream _ n 1 noErr).sched
      split <;> exact read
  · split
    · rfl
    · split <;> rfl
  · rfl

theorem sched_chunkWrite (s : State) (o : Nat) (bs : List Byte) : (s.chunkWrite o bs).sched = s.sched := by
  unfold State.chunkWrite State.localWrite
  split
  · split
    · rfl
    · exact (memOnly_memWrite s deviceStream _ bs 1 noErr).sched
  · split
    · rfl
    · split <;> rfl
  · rfl

theorem sched_parError (s : State) (h status entry : Nat) : (s.parError h status entry).sched = s.sched := (memOnly_post _ _ _ _ _).sched

theorem sched_pullFailed (s : State) (h m status : Nat) : (s.pullFailed h m status).sched = s.sched := by
  unfold State.pullFailed
  extract_lets i w
  split
  · rfl
  · exact sched_parError s h _ i

theorem linksOnly_sendPkt (s : State) (x : Packet) : LinksOnly s (s.sendPkt x).1 := by
  unfold State.sendPkt
  extract_lets code
  split
  · split
    · rfl
    · split
      · rfl
      · split <;> rfl
  · split
    · rfl
    · split
      · rfl
      · split <;> rfl

theorem sched_pullPacket (s : State) (h m dev off pos n : Nat) : (s.pullPacket h m dev off pos n).sched = s.sched := by
  unfold State.pullPacket
  extract_lets txn _ s1 _ x r
  have sent : r.1.sched = s.sched := (linksOnly_sendPkt s1 x).sched
  split
  · exact sent
  · exact (sched_pullFailed r.1 h m 7).trans sent

theorem sched_pull (s : State) (h m dev off pos n : Nat) : (s.pull h m dev off pos n).sched = s.sched := by
  unfold State.pull
  split
  · extract_lets r
    have read : r.1.sched = s.sched := sched_chunkRead s off n
    split
    · exact read
    · exact (sched_pullFailed r.1 h m _).trans read
  · exact sched_forEach (fun u _ => sched_pullPacket u h m dev _ _ _) _ s

/-! The moves of an engine. -/

theorem sched_nextEntry (s : State) (h : Nat) : (s.nextEntry h).1.sched = s.sched := by
  unfold State.nextEntry
  split
  · rfl
  · split
    · rfl
    · extract_lets s1
      split
      · exact sched_forEach (fun u m => sched_pull u h m _ _ _ 64) _ s1
      · rfl

theorem sched_initMove (s : State) (h i : Nat) : (s.initMove h i).1.sched = s.sched := by
  unfold State.initMove
  extract_lets p w n c
  split
  · exact sched_forEach (fun u m => sched_pull u h m _ _ 0 n) _ s
  · exact sched_chunkWrite s _ _

theorem sched_foldMove (s : State) (h : Nat) : (s.foldMove h).1.sched = s.sched := by
  unfold State.foldMove
  extract_lets p w n ok
  split
  · exact sched_forEach (fun u m => sched_pull u h m _ _ 0 n) _ s
  · split
    · rfl
    · exact sched_chunkWrite s _ _

theorem sched_rebuildWrite (s : State) (h n : Nat) (need er : List Nat) : (s.rebuildWrite h n need er).1.sched = s.sched := by
  unfold State.rebuildWrite
  extract_lets w opened
  split
  · rfl
  · exact sched_chunkWrite s _ _

theorem sched_rebuildMove (s : State) (h i : Nat) : (s.rebuildMove h i).1.sched = s.sched := by
  unfold State.rebuildMove
  extract_lets p w n
  split
  · exact sched_parError s h 5 i
  · extract_lets more late
    split
    · rfl
    · split
      · exact sched_forEach (fun u m => sched_pull u h m _ _ 0 _) _ s
      · split
        · rfl
        · exact sched_rebuildWrite s h n _ _

theorem sched_parMove (s : State) (h : Nat) : (s.parMove h).1.sched = s.sched := by
  unfold State.parMove
  extract_lets p
  split
  · rfl
  · split
    · exact sched_nextEntry s h
    · split
      · exact sched_initMove s h _
      · split
        · exact sched_foldMove s h
        · split
          · exact sched_rebuildMove s h _
          · rfl

theorem sched_parRun (s : State) (h k : Nat) : (s.parRun h k).sched = s.sched := by
  induction k generalizing s with
  | zero => rfl
  | succ k ih =>
    unfold State.parRun
    extract_lets r
    split
    · exact (ih r.1).trans (sched_parMove s h)
    · exact sched_parMove s h

/-! The work that an action starts. -/

theorem sched_parBegin (s : State) (w : Nat) (todo : List Nat) : (s.parBegin w todo).sched = s.sched := by
  unfold State.parBegin
  split
  · rfl
  · refine sched_forEach (fun u h => ?_) [0, 1] s
    split <;> rfl

theorem sched_parStart (s : State) (w : Nat) (todo : List Nat) : (s.parStart w todo).sched = s.sched :=
  ((sched_parRun _ 1 _).trans (sched_parRun _ 0 _)).trans (sched_parBegin s w todo)

theorem sched_parStepped (s : State) (i : Nat) (err : Option Nat) : (s.parStepped i err).sched = s.sched := by
  unfold State.parStepped
  extract_lets h
  split
  · rfl
  · exact sched_parError s h _ i

theorem sched_parEach {f : State → Nat × List Word → State} (hf : ∀ u e, (f u e).sched = u.sched) (xs : List (Nat × List Word)) (s : State) :
    (s.parEach xs f).sched = s.sched := by
  unfold State.parEach
  split
  · rfl
  · exact sched_forEach hf xs s

theorem sched_journalOld (s : State) (g : Nat) : (s.journalOld g).sched = s.sched := by
  refine sched_parEach (fun u e => ?_) _ s
  extract_lets r
  have read : r.1.sched = u.sched := sched_chunkRead u _ _
  split
  · exact (sched_parStepped _ _ _).trans read
  · exact (sched_parStepped _ _ _).trans ((sched_chunkWrite _ _ _).trans read)

theorem sched_journalDelta (s : State) (g : Nat) : (s.journalDelta g).sched = s.sched := by
  refine sched_parEach (fun u e => ?_) _ s
  extract_lets r q
  have read : q.1.sched = u.sched := (sched_chunkRead r.1 _ _).trans (sched_chunkRead u _ _)
  split
  · exact (sched_parStepped _ _ _).trans ((sched_chunkWrite _ _ _).trans read)
  · exact (sched_parStepped _ _ _).trans read

theorem sched_restoreAll (s : State) (g : Nat) : (s.restoreAll g).sched = s.sched := by
  refine sched_parEach (fun u e => ?_) _ s
  extract_lets n r q
  have read : r.1.sched = u.sched := sched_chunkRead u _ _
  split
  · exact (sched_parStepped _ _ _).trans read
  · split
    · exact (sched_parStepped _ _ _).trans ((sched_chunkWrite _ _ _).trans read)
    · split
      · have both : q.1.sched = u.sched := (sched_chunkRead r.1 _ _).trans read
        split
        · exact (sched_parStepped _ _ _).trans ((sched_chunkWrite _ _ _).trans both)
        · exact (sched_parStepped _ _ _).trans both
      · exact (sched_parStepped _ _ _).trans read

/-! The same work leaves, of the Husk, all but two counts. -/

namespace WorkOnly

variable {s t : State} (h : WorkOnly s t)
include h

theorem parStart (w : Nat) (todo : List Nat) : WorkOnly s (t.parStart w todo) := ((h.parBegin w todo).parGo 0).parGo 1

theorem journalOld (g : Nat) : WorkOnly s (t.journalOld g) := by
  refine h.parEach _ (fun u e => ?_)
  extract_lets r
  have read : WorkOnly u r.1 := (refl u).chunkRead _ _
  split
  · exact read.parStepped _ _
  · exact (read.chunkWrite _ _).parStepped _ _

theorem journalDelta (g : Nat) : WorkOnly s (t.journalDelta g) := by
  refine h.parEach _ (fun u e => ?_)
  extract_lets r q
  have read : WorkOnly u q.1 := ((refl u).chunkRead _ _).chunkRead _ _
  split
  · exact (read.chunkWrite _ _).parStepped _ _
  · exact read.parStepped _ _

theorem restoreAll (g : Nat) : WorkOnly s (t.restoreAll g) := by
  refine h.parEach _ (fun u e => ?_)
  extract_lets n r q
  have read : WorkOnly u r.1 := (refl u).chunkRead _ _
  split
  · exact read.parStepped _ _
  · split
    · exact (read.chunkWrite _ _).parStepped _ _
    · split
      · have both : WorkOnly u q.1 := read.chunkRead _ _
        split
        · exact (both.chunkWrite _ _).parStepped _ _
        · exact both.parStepped _ _
      · exact read.parStepped _ _

end WorkOnly

end Sys2Proof.Machine

/-! SUPPORT. What the end of the engines' work, a flood and the record of an action leave of the module (R306, R361, R376, R378). -/

namespace Sys2Proof.Machine

theorem linksOnly_parIdle (s : State) (w : Nat) : LinksOnly s (s.parIdle w) := by
  unfold State.parIdle
  extract_lets s1
  have idle : LinksOnly s s1 := .forEach (f := fun u h => u.updPar h _) (fun _ _ => rfl) [0, 1] s
  clear_value s1
  exact idle.trans rfl

theorem linksOnly_floodCopies (s : State) (x : Packet) (except : Option Nat) : LinksOnly s (s.floodCopies x except) := by
  refine .forEach (f := State.floodCopy x except) (fun u d => ?_) (List.range 6) s
  unfold State.floodCopy
  split
  · exact .refl u
  · split <;> rfl

theorem linksOnly_floodNew (s : State) (ptype : Nat) (payload : List Byte) : LinksOnly s (s.floodNew ptype payload) :=
  LinksOnly.trans (t := State.floodNote { s with fab := { s.fab with cseq := (s.fab.cseq + 1) % 2 ^ 32 } } s.devNum s.fab.cseq) rfl
    (linksOnly_floodCopies _ _ none)

/-- A parity engine that falls idle, marked with the work `w`. -/
def ParSt.idles (p : ParSt) (w : Nat) : ParSt :=
  { p with work := w, todo := [], cur := none, wait := [], outst := 0, got := [], have_ := [], asked := [], erased := [], halt := false }

theorem par_updPar (s : State) (a b : Nat) (f : ParSt → ParSt) : (s.updPar a f).par b = if b = a then f (s.par a) else s.par b := by
  unfold State.par State.updPar
  rw [hub_updHub]
  split <;> rfl

theorem par_parIdle (s : State) (w : Nat) : ((s.parIdle w).par 0) = (s.par 0).idles w ∧ ((s.parIdle w).par 1) = (s.par 1).idles w := by
  have idle : ∀ h, (s.parIdle w).par h = ((s.updPar 0 (fun p => p.idles w)).updPar 1 (fun p => p.idles w)).par h := fun _ => rfl
  rw [idle, idle]
  simp only [par_updPar]
  exact ⟨rfl, rfl⟩

/-! The record of an action. -/

/-- The Husk once the action log has taken a record (R376). -/
def HuskSt.logged (k : HuskSt) : HuskSt := { k with logNext := if k.logLen = 0 then k.logNext else (k.logNext + 1) % 2 ^ 32 }

theorem MemOnly.husk {s t : State} (h : MemOnly s t) : t.husk = s.husk := by
  rw [h]

theorem husk_appendLog (s : State) (idx sub : Nat) (b : List Byte) : (s.appendLog idx sub b).husk = s.husk.logged := by
  unfold State.appendLog HuskSt.logged
  extract_lets k val record place s1
  split
  · rfl
  · have written : MemOnly s s1 := by
      unfold s1
      split
      · exact memOnly_devWrite s place record
      · exact .refl s
    exact congrArg (fun r : HuskSt => { r with logNext := (k.logNext + 1) % 2 ^ 32 }) written.husk

theorem husk_taken (s : State) {idx : Nat} (h : loggedObj idx true = true) (sub : Nat) (b : List Byte) :
    (s.taken idx sub b).husk = s.husk.logged := by
  unfold State.taken
  rw [if_pos h, husk_appendLog]
  rfl

theorem devNum_taken (s : State) (idx sub : Nat) (b : List Byte) : (s.taken idx sub b).devNum = s.devNum := by
  rw [taken_frame]

/-! The record of an action leaves what the action finds in the Husk, but for the next number of the log (R376). -/

section
variable (s : State) {idx : Nat} (h : loggedObj idx true = true) (sub : Nat) (b : List Byte)
include h

theorem huskSt_taken : (s.taken idx sub b).husk.st = s.husk.st := by
  rw [husk_taken s h]
  rfl

theorem openGen_taken : (s.taken idx sub b).husk.openGen = s.husk.openGen := by
  rw [husk_taken s h]
  rfl

theorem sealGate_taken : (s.taken idx sub b).husk.sealGate = s.husk.sealGate := by
  rw [husk_taken s h]
  rfl

theorem members_taken : (s.taken idx sub b).husk.members = s.husk.members := by
  rw [husk_taken s h]
  rfl

end

end Sys2Proof.Machine

/-! SUPPORT. What a read of device memory answers depends on the memory alone (R191, R193, R205). -/

namespace Sys2Proof.Machine

theorem mem_countCe (s : State) (st n : Nat) : (s.countCe st n).mem = (s.updRegion st (fun r => { r with ce := r.ce + n })).mem := by
  unfold State.countCe
  extract_lets c s' limit
  split
  · exact mem_post _ _ _ _ _
  · rfl

section
variable {s t : State} (h : t.mem = s.mem)
include h

theorem region_of_mem (r : Nat) : t.region r = s.region r := by
  unfold State.region
  rw [h]

theorem lines_of_mem (st a : Nat) : t.lines st a = s.lines st a := by
  unfold State.lines
  rw [region_of_mem h]

theorem mem_updRegion_of_mem (r : Nat) (f : RegionSt → RegionSt) : (t.updRegion r f).mem = (s.updRegion r f).mem :=
  congrArg (fun m => (State.updRegion { s with mem := m } r f).mem) h

theorem mem_setLines_of_mem (st a : Nat) (ls : List Line) : (t.setLines st a ls).mem = (s.setLines st a ls).mem := mem_updRegion_of_mem h st _

theorem mem_countCe_of_mem (st n : Nat) : (t.countCe st n).mem = (s.countCe st n).mem := by
  rw [mem_countCe, mem_countCe, mem_updRegion_of_mem h]

theorem mem_postUe_of_mem (st a : Nat) : (t.postUe st a).mem = (s.postUe st a).mem := by
  unfold State.postUe
  rw [mem_post, mem_post, mem_updRegion_of_mem h]

theorem mem_setErr_of_mem (st a : Nat) (e : HbmErr) : (t.setErr st a e).mem = (s.setErr st a e).mem := by
  simp only [State.setErr, h]

theorem mem_setSector_of_mem (st a : Nat) (bs : List Byte) : (t.setSector st a bs).mem = (s.setSector st a bs).mem := by
  simp only [State.setSector, h]

/-- A sector of a stack through the outer code (R205). -/
theorem stackReadBy_of_mem (policy st a : Nat) (err : HbmErr) :
    (t.stackReadBy policy st a err).1.mem = (s.stackReadBy policy st a err).1.mem ∧
    (t.stackReadBy policy st a err).2 = (s.stackReadBy policy st a err).2 := by
  have met : t.metErr st a err = s.metErr st a err := by simp only [State.metErr, h]
  have stored : t.sector st a = s.sector st a := by simp only [State.sector, h]
  have counted : ∀ n, (if n = 0 then t else t.countCe st n).mem = (if n = 0 then s else s.countCe st n).mem := by
    intro n
    split
    · exact h
    · exact mem_countCe_of_mem h st n
  simp only [State.stackReadBy, region_of_mem h, met, stored]
  split
  · exact ⟨mem_postUe_of_mem h st a, rfl⟩
  · split
    next => exact ⟨counted _, rfl⟩
    next => exact ⟨mem_countCe_of_mem (mem_setSector_of_mem (mem_setErr_of_mem (counted _) st a _) st a _) st 1, rfl⟩
    next => exact ⟨mem_postUe_of_mem (mem_setErr_of_mem (counted _) st a _) st a, rfl⟩

/-! The slice. -/

theorem mem_toStack_of_mem (r : Nat) (q : MemReq) : (t.toStack r q).mem = (s.toStack r q).mem := by
  have stream : t.reqStream = s.reqStream := by
    funext x
    simp only [State.reqStream, h]
  have admits : t.canAdmit = s.canAdmit := by
    funext adm n a
    simp only [State.canAdmit, stream]
  have behind : t.behindHeld = s.behindHeld := by
    funext held n a
    simp only [State.behindHeld, stream]
  simp only [State.toStack, State.takeSlotFor, region_of_mem h, stream, admits, behind, h]
  split <;> exact mem_updRegion_of_mem h r _

theorem mem_evict_of_mem (st n : Nat) (v : Line) : (t.evict st n v).mem = (s.evict st n v).mem := by
  unfold State.evict
  split
  · exact mem_toStack_of_mem (mem_updRegion_of_mem (mem_setErr_of_mem (mem_setSector_of_mem h st _ _) st _ _) st _) st _
  · exact h

theorem mem_allocLine_of_mem (st n : Nat) (l : Line) : (t.allocLine st n l).mem = (s.allocLine st n l).mem := by
  simp only [State.allocLine, lines_of_mem h]
  generalize (if l.keep then _ else _ : List Line) = kept
  split
  · exact mem_setLines_of_mem h st _ _
  · split
    · exact mem_setLines_of_mem h st _ _
    · exact mem_setLines_of_mem (mem_evict_of_mem h st n _) st _ _

theorem mem_touchLine_of_mem (st : Nat) (l : Line) (hint : Nat) : (t.touchLine st l hint).mem = (s.touchLine st l hint).mem := by
  simp only [State.touchLine, lines_of_mem h]
  split
  · exact mem_setLines_of_mem h st _ _
  · exact mem_setLines_of_mem h st _ _

theorem mscReadBy_of_mem (policy n st a hint : Nat) (err : HbmErr) :
    (t.mscReadBy policy n st a hint err).1.mem = (s.mscReadBy policy n st a hint err).1.mem ∧
    (t.mscReadBy policy n st a hint err).2 = (s.mscReadBy policy n st a hint err).2 := by
  obtain ⟨mem, value⟩ := stackReadBy_of_mem h policy st a err
  have found : t.findLine st a = s.findLine st a := by rw [State.findLine, lines_of_mem h, State.findLine]
  have hinted : t.effHint st hint = s.effHint st hint := by rw [State.effHint, region_of_mem h, State.effHint]
  simp only [State.mscReadBy, found, hinted, lines_of_mem h, value]
  split
  · split
    · exact ⟨mem_setLines_of_mem h st a _, rfl⟩
    · split
      · exact ⟨h, rfl⟩
      · exact ⟨mem_touchLine_of_mem h st _ _, rfl⟩
  · split
    · exact ⟨mem, value⟩
    · split
      · exact ⟨mem_allocLine_of_mem mem st n _, rfl⟩
      · exact ⟨mem, value⟩

end

/-- One sector of a range that the device reads: the module, and the bytes read so far (R191). -/
def readSector (x : State × Option (List Byte)) (p : Nat × Nat × Nat) : State × Option (List Byte) :=
  let r := x.1.resolve p.1
  let q := x.1.mscRead deviceStream r.1 r.2 0 noErr
  (q.1, match x.2, q.2 with
    | some b, some d => some (b ++ (d.drop p.2.1).take p.2.2)
    | _, _ => none)

theorem readSector_of_mem {x y : State × Option (List Byte)} (h : y.1.mem = x.1.mem ∧ y.2 = x.2) (p : Nat × Nat × Nat) :
    (readSector y p).1.mem = (readSector x p).1.mem ∧ (readSector y p).2 = (readSector x p).2 := by
  obtain ⟨mem, value⟩ := h
  have place : y.1.resolve p.1 = x.1.resolve p.1 := by
    unfold State.resolve State.homed
    rw [mem]
  obtain ⟨left, byte⟩ := mscReadBy_of_mem mem x.1.mem.eccPolicy deviceStream (x.1.resolve p.1).1 (x.1.resolve p.1).2 0 noErr
  simp only [readSector, State.mscRead, place, mem, value, byte, and_true]
  exact left

/-- Two modules with the same device memory read the same bytes from it. -/
theorem devRead_of_mem {s t : State} (h : t.mem = s.mem) (o n : Nat) : (t.devRead o n).2 = (s.devRead o n).2 := by
  have same : ∀ (xs : List (Nat × Nat × Nat)) (x y : State × Option (List Byte)), y.1.mem = x.1.mem ∧ y.2 = x.2 →
      (xs.foldl readSector y).2 = (xs.foldl readSector x).2 := by
    intro xs
    induction xs with
    | nil => exact fun _ _ hxy => hxy.2
    | cons p xs ih => exact fun _ _ hxy => ih _ _ (readSector_of_mem hxy p)
  exact same (sectorsOf (n + 1) o n) (s, some []) (t, some []) ⟨h, rfl⟩

end Sys2Proof.Machine

/-! SUPPORT. The actions of the Husk (R357 to R362, R370 to R372, R375, R376, R412). -/

namespace Sys2Proof.Machine

/-- The command writes the bytes `b` to the action object `idx`, which does `act` (R412). -/
structure WritesAction (i : Instr) (q : OdReq) (idx : Nat) (b : List Byte) (act : State → Act) : Prop where
  runs : ∀ s, exec i s = .next (s.put q idx 0 b)
  object : ∃ ty : OTy, objectsAt idx = [⟨idx, 0, 0, ty, .act⟩] ∧ ty.fits b.length = true
  unbanked : banked idx = false
  does : ∀ s : State, s.objAct q.cpu idx 0 b = act s

theorem husk_answer (s : State) (q : OdReq) (st : Nat) : (s.answer q st).husk = s.husk := by
  unfold State.answer
  split <;> rfl

/-- HuskResult holds a code (R357). -/
def State.huskResult (s : State) (c : Nat) : State := { s with husk := { s.husk with result := c } }

namespace WritesAction

variable {i : Instr} {q : OdReq} {idx : Nat} {b : List Byte} {act : State → Act} (w : WritesAction i q idx b act) {s : State}
  (h : s.admits q idx b) (hinv : (act (s.noteAct .act idx 0 0)).inv = false)
include w h hinv

theorem acts (hbad : (act (s.noteAct .act idx 0 0)).bad = false) {P : State → Prop} (hP : P (act (s.taken idx 0 b)).eff) : Acts i q s P := by
  obtain ⟨ty, single, fits⟩ := w.object
  have object := objOf_of_single single (Nat.le_refl 0) (Nat.le_refl 0)
  refine ⟨_, (w.runs s).trans (congrArg Host.Outcome.next ?_), _, rfl, hP⟩
  simp only [State.put, w.does]
  exact request_taken act h (by simp [single]) w.unbanked object rfl fits hinv hbad

theorem refuses (hbad : (act (s.noteAct .act idx 0 0)).bad = true) :
    exec i s = .next ((((act (s.noteAct .act idx 0 0)).rej.getD (s.noteAct .act idx 0 0)).noteAct .act idx 0 2).answer q 2) := by
  obtain ⟨ty, single, fits⟩ := w.object
  have object := objOf_of_single single (Nat.le_refl 0) (Nat.le_refl 0)
  refine (w.runs s).trans (congrArg Host.Outcome.next ?_)
  simp only [State.put, w.does]
  rw [request_cases act h (by simp [single]) w.unbanked object nofun fits]
  exact (if_neg (by simp [hinv])).trans (if_pos hbad)

end WritesAction

theorem eff_huskAct (s : State) (bad : Bool) (code : Nat) (eff : State) : (s.huskAct bad code eff).eff = eff.huskResult 0 := rfl

namespace WritesAction

variable {i : Instr} {q : OdReq} {idx : Nat} {b : List Byte} {act : State → Act} (w : WritesAction i q idx b act)
  {bad : State → Bool} {code : State → Nat} {eff : State → State} (hact : ∀ t : State, act t = t.huskAct (bad t) (code t) (eff t))
  {s : State} (h : s.admits q idx b)
include w hact h

/-- A Husk action that is refused leaves its code in HuskResult, and the Husk and the memory as they were (R357, R358; log 52). -/
theorem husk_refuses {c : Nat} (hcode : (if bad (s.noteAct .act idx 0 0) then 1 else code (s.noteAct .act idx 0 0)) = c) (hc : c ≠ 0) :
    Gives i s (fun t => t.husk = { s.husk with result := c } ∧ t.mem = s.mem) := by
  have refused : (act (s.noteAct .act idx 0 0)).bad = true := by
    rw [hact]
    exact decide_eq_true (hcode ▸ hc)
  have left : (act (s.noteAct .act idx 0 0)).rej = some ((s.noteAct .act idx 0 0).huskResult c) := by
    rw [hact, ← hcode]
    rfl
  refine ⟨_, w.refuses h (by rw [hact]; rfl) refused, ?_⟩
  beta_reduce
  rw [left, husk_answer, mem_answer]
  exact ⟨rfl, rfl⟩

/-- A Husk action that is not refused is done, and HuskResult holds 0 (R357; log 52). -/
theorem husk_acts (hbad : bad (s.noteAct .act idx 0 0) = false) (hcode : code (s.noteAct .act idx 0 0) = 0) {P : State → Prop}
    (hP : P ((eff (s.taken idx 0 b)).huskResult 0)) : Acts i q s P := by
  refine w.acts h (by rw [hact]; rfl) ?_ (by rwa [hact, eff_huskAct])
  rw [hact, hbad, hcode]
  rfl

end WritesAction

/-! The ten actions. -/

section
variable (q : OdReq) (v : BitVec 8) (g : BitVec 64)

theorem writes_huskMapLoad : WritesAction (.huskMapLoad q v) q 0x0A20 (leBytes 1 v.toNat) actHuskMapLoad :=
  ⟨fun _ => rfl, ⟨.u8, by decide, rfl⟩, rfl, fun _ => rfl⟩

theorem writes_huskInit : WritesAction (.huskInit q g) q 0x0A21 (leBytes 8 g.toNat) (actHuskInit · g.toNat) :=
  ⟨fun _ => rfl, ⟨.u64, by decide, rfl⟩, rfl, fun s => congrArg (actHuskInit s) (ofLe_leBytes_toNat g)⟩

theorem writes_huskOpen : WritesAction (.huskOpen q g) q 0x0A22 (leBytes 8 g.toNat) (actHuskOpen · g.toNat) :=
  ⟨fun _ => rfl, ⟨.u64, by decide, rfl⟩, rfl, fun s => congrArg (actHuskOpen s) (ofLe_leBytes_toNat g)⟩

theorem writes_huskFold : WritesAction (.huskFold q g) q 0x0A23 (leBytes 8 g.toNat) (actHuskFold · g.toNat) :=
  ⟨fun _ => rfl, ⟨.u64, by decide, rfl⟩, rfl, fun s => congrArg (actHuskFold s) (ofLe_leBytes_toNat g)⟩

theorem writes_huskSeal : WritesAction (.huskSeal q g) q 0x0A24 (leBytes 8 g.toNat) (actHuskSeal · g.toNat) :=
  ⟨fun _ => rfl, ⟨.u64, by decide, rfl⟩, rfl, fun s => congrArg (actHuskSeal s) (ofLe_leBytes_toNat g)⟩

theorem writes_huskRestore : WritesAction (.huskRestore q v) q 0x0A25 (leBytes 1 v.toNat) actHuskRestore :=
  ⟨fun _ => rfl, ⟨.u8, by decide, rfl⟩, rfl, fun _ => rfl⟩

theorem writes_huskRebuild : WritesAction (.huskRebuild q g) q 0x0A26 (leBytes 8 g.toNat) (actHuskRebuild · g.toNat) :=
  ⟨fun _ => rfl, ⟨.u64, by decide, rfl⟩, rfl, fun s => congrArg (actHuskRebuild s) (ofLe_leBytes_toNat g)⟩

theorem writes_huskDeclareLost : WritesAction (.huskDeclareLost q v) q 0x0A27 (leBytes 1 v.toNat) actHuskDeclareLost :=
  ⟨fun _ => rfl, ⟨.u8, by decide, rfl⟩, rfl, fun _ => rfl⟩

theorem writes_huskResume : WritesAction (.huskResume q g) q 0x0A28 (leBytes 8 g.toNat) (actHuskResume · g.toNat) :=
  ⟨fun _ => rfl, ⟨.u64, by decide, rfl⟩, rfl, fun s => congrArg (actHuskResume s) (ofLe_leBytes_toNat g)⟩

theorem writes_actionLogAppend {b : List Byte} (hb : b.length ≤ 32) :
    WritesAction (.actionLogAppend q b) q 0x0A33 b (fun s => { bad := s.schedBusy, eff := s }) :=
  ⟨fun _ => rfl, ⟨.blobUpTo 32, by decide, decide_eq_true hb⟩, rfl, fun _ => rfl⟩

end

/-! When an action is refused (R358). -/

theorem shut_refuses {s : State} (h : s.parityGated = true ∨ s.huskShut = true) (c : Bool) : (s.huskShut || s.parityGated || c) = true := by
  cases h with
  | inl gated => simp [gated]
  | inr shut => simp [shut]

theorem open_ready {s : State} (hgated : s.parityGated = false) (hshut : s.huskShut = false) (c : Bool) :
    (s.huskShut || s.parityGated || c) = c := by
  simp [hgated, hshut]

end Sys2Proof.Machine

/-! SUPPORT. What each action of the Husk does once it is taken (R357 to R362, R370 to R372, R375). -/

namespace Sys2Proof.Machine

/-- The engines' errors are cleared, and the check of the map begins (R357). -/
def State.loadsMap (s : State) : State :=
  let w := s.forEach [0, 1] (fun s h => s.updPar h (fun p => { p with err := 0, fail := false }))
  { w with husk := { w.husk with loading := true } }

theorem actHuskMapLoad_eq (s : State) : actHuskMapLoad s = s.huskAct
    (s.huskShut || s.parityGated || !(decide (s.husk.st = 0 ∨ s.husk.st = 1 ∨ s.husk.st = 3 ∨ s.husk.st = 12))) 0 s.loadsMap := rfl

theorem loadsMap_spec (s : State) : (s.loadsMap.huskResult 0).husk.st = s.husk.st ∧ (s.loadsMap.huskResult 0).cores = s.cores := by
  have cleared : LinksOnly s (s.forEach [0, 1] (fun s h => s.updPar h (fun p => { p with err := 0, fail := false }))) :=
    .forEach (f := fun s h => s.updPar h _) (fun _ _ => rfl) [0, 1] s
  unfold State.loadsMap
  generalize s.forEach [0, 1] _ = w at cleared ⊢
  have st := congrArg HuskSt.st cleared.husk
  exact ⟨st, cleared.cores⟩

/-- The module that turns to a generation: HuskState and the generation that opens (R359, R360). -/
def State.turnsTo (s : State) (st n : Nat) : State := { s with husk := { s.husk with st := st, openGen := n } }

/-- The module once the first build of its parity has begun (R359). -/
def State.inits (s : State) (n : Nat) : State := (s.turnsTo 2 n).parStart 1 ((s.turnsTo 2 n).parityEntries.map Prod.fst)

theorem actHuskInit_eq (s : State) (n : Nat) : actHuskInit s n =
    s.huskAct (s.huskShut || s.parityGated || decide (s.husk.st ≠ 1)) (if n = 0 then 6 else 0) (s.inits n) := rfl

/-- The module once its changed chunks are in their journals (R360). -/
def State.opensGen (s : State) (n : Nat) : State := ((s.turnsTo 4 n).parBegin 2 []).journalOld n

theorem actHuskOpen_eq (s : State) (n : Nat) : actHuskOpen s n =
    s.huskAct (s.huskShut || s.parityGated || decide (s.husk.st ≠ 3)) (if n ≠ s.husk.gen + 1 then 6 else 0) (s.opensGen n) := rfl

theorem turnsTo_spec {s t : State} {st n : Nat} (work : WorkOnly (s.turnsTo st n) t) (sched : t.sched = s.sched) :
    (t.huskResult 0).husk.st = st ∧ (t.huskResult 0).husk.openGen = n ∧ (t.huskResult 0).sched = s.sched :=
  ⟨congrArg HuskSt.st work.husk, congrArg HuskSt.openGen work.husk, sched⟩

theorem inits_spec (s : State) (n : Nat) : ((s.inits n).huskResult 0).husk.st = 2 ∧ ((s.inits n).huskResult 0).husk.openGen = n ∧
    ((s.inits n).huskResult 0).sched = s.sched :=
  turnsTo_spec ((WorkOnly.refl _).parStart 1 _) (sched_parStart _ 1 _)

theorem opensGen_spec (s : State) (n : Nat) : ((s.opensGen n).huskResult 0).husk.st = 4 ∧
    ((s.opensGen n).huskResult 0).husk.openGen = n ∧ ((s.opensGen n).huskResult 0).sched = s.sched :=
  turnsTo_spec (((WorkOnly.refl _).parBegin 2 []).journalOld n) ((sched_journalOld _ n).trans (sched_parBegin _ 2 []))

/-- The module that turns to a fold of a placement epoch (R361). -/
def State.foldBegins (s : State) (e : Nat) : State := { s with husk := { s.husk with st := 6, foldEpoch := e } }

/-- The module once the deltas of a fold are written (R361). -/
def State.foldDeltas (s : State) (e n : Nat) : State := ((s.foldBegins e).parBegin 3 []).journalDelta n

/-- The accumulation of a fold begins unless an engine has failed (R361). -/
def State.folds (s : State) (e n : Nat) : State :=
  if ((s.foldDeltas e n).par 0).fail || ((s.foldDeltas e n).par 1).fail then s.foldDeltas e n
  else (s.foldDeltas e n).parStart 4 ((s.foldDeltas e n).parityEntries.map Prod.fst)

theorem actHuskFold_eq (s : State) (n : Nat) : actHuskFold s n =
    s.huskAct (s.huskShut || s.parityGated || decide (s.husk.st ≠ 5)) (if n ≠ s.husk.openGen then 6 else 0) (s.folds s.sched.placeEpoch n) := rfl

theorem folds_spec (s : State) (e n : Nat) : ((s.folds e n).huskResult 0).husk.st = 6 ∧
    ((s.folds e n).huskResult 0).husk.foldEpoch = e ∧ ((s.folds e n).huskResult 0).sched = s.sched := by
  have delta : WorkOnly (s.foldBegins e) (s.foldDeltas e n) := ((WorkOnly.refl _).parBegin 3 []).journalDelta n
  have sched : (s.foldDeltas e n).sched = s.sched := (sched_journalDelta _ n).trans (sched_parBegin _ 3 [])
  have whole : WorkOnly (s.foldBegins e) (s.folds e n) ∧ (s.folds e n).sched = s.sched := by
    unfold State.folds
    split
    · exact ⟨delta, sched⟩
    · exact ⟨delta.parStart 4 _, (sched_parStart _ 4 _).trans sched⟩
  obtain ⟨work, kept⟩ := whole
  generalize s.folds e n = t at work kept ⊢
  exact ⟨congrArg HuskSt.st work.husk, congrArg HuskSt.foldEpoch work.husk, kept⟩

/-- The module once the journals are restored (R371). -/
def State.restores (s : State) (g : Nat) : State := ((s.setHusk 10).parBegin 6 []).restoreAll g

theorem actHuskRestore_eq (s : State) : actHuskRestore s = s.huskAct
    (s.huskShut || s.parityGated || !(decide (s.husk.st = 9 ∧ s.husk.decision = 1))) 0 (s.restores s.husk.openGen) := rfl

theorem restores_spec (s : State) (g : Nat) :
    ((s.restores g).huskResult 0).husk.st = 10 ∧ ((s.restores g).huskResult 0).sched = s.sched := by
  have work : WorkOnly (s.setHusk 10) (s.restores g) := ((WorkOnly.refl _).parBegin 6 []).restoreAll g
  have sched : (s.restores g).sched = s.sched := (sched_restoreAll _ g).trans (sched_parBegin _ 6 [])
  generalize s.restores g = t at work sched ⊢
  exact ⟨congrArg HuskSt.st work.husk, sched⟩

/-- The module that turns to the rebuild of the list at an offset (R372). -/
def State.rebuildBegins (s : State) (n from_ : Nat) : State :=
  { (s.devTouch n 4).devTouch ((n + 4 + 127) / 128 * 128) (128 * (s.rebuildList n).length) with
    husk := { s.husk with st := 11, from_ := from_, list := s.rebuildList n } }

/-- The module once its rebuild has begun (R372). -/
def State.rebuilds (s : State) (n from_ : Nat) : State := (s.rebuildBegins n from_).parStart 7 (List.range (s.rebuildList n).length)

theorem memOnly_readsList (s : State) (n : Nat) :
    MemOnly s ((s.devTouch n 4).devTouch ((n + 4 + 127) / 128 * 128) (128 * (s.rebuildList n).length)) :=
  (memOnly_devTouch s n 4).trans (memOnly_devTouch _ _ _)

theorem actHuskRebuild_eq (s : State) (n : Nat) : actHuskRebuild s n = s.huskAct
    (s.huskShut || s.parityGated || !(decide (s.husk.st = 1 ∨ (s.husk.st = 9 ∧ s.husk.decision ≠ 3)))) (s.listCheck n)
    (s.rebuilds n s.husk.st) := by
  have read := memOnly_readsList s n
  unfold actHuskRebuild State.rebuilds State.rebuildBegins
  dsimp only
  generalize (s.devTouch n 4).devTouch _ _ = x at read ⊢
  rw [← read.husk]
  rfl

theorem rebuilds_spec (s : State) (n from_ : Nat) : ((s.rebuilds n from_).huskResult 0).husk.st = 11 ∧
    ((s.rebuilds n from_).huskResult 0).husk.from_ = from_ ∧ ((s.rebuilds n from_).huskResult 0).sched = s.sched := by
  have work : WorkOnly (s.rebuildBegins n from_) (s.rebuilds n from_) := (WorkOnly.refl _).parStart 7 _
  have sched : (s.rebuilds n from_).sched = s.sched := (sched_parStart _ 7 _).trans (memOnly_readsList s n).sched
  generalize s.rebuilds n from_ = t at work sched ⊢
  exact ⟨congrArg HuskSt.st work.husk, congrArg HuskSt.from_ work.husk, sched⟩

/-- The checks of a rebuild list read device memory and what the Husk is, not the status of an action (R372). -/
theorem listCheck_noteAct (s : State) (idx st o : Nat) : (s.noteAct .act idx 0 st).listCheck o = s.listCheck o := by
  unfold State.listCheck State.rebuildList State.entriesAt
  rw [peek_noteAct]
  rfl

/-- The module once the coordinator has taken its members' signals from the gate and floods the seal (R362). -/
def State.seals (s : State) (gate members g : Nat) : State :=
  let r := s.devRead gate 8
  ((r.1.devWrite gate (leBytes 8 (ofLe (r.2.getD []) - members))).floodNew 2 (fencePayload 2 0 0 g)).sealAct g

theorem actHuskSeal_eq (s : State) (g : Nat) : actHuskSeal s g = s.huskAct (s.parityGated || decide (s.husk.st ≠ 7))
    (if g ≠ s.husk.openGen then 6 else if ofLe ((s.devRead s.husk.sealGate 8).2.getD []) < s.husk.members then 7 else 0)
    (s.seals s.husk.sealGate s.husk.members g) := rfl

theorem seals_spec {s : State} (hst : s.husk.st = 7) (hflushing : s.husk.flushing = false) (hflushed : s.husk.flushed = false)
    (hself : s.devNum ∉ s.husk.lost) (gate members : Nat) :
    ((s.seals gate members s.husk.openGen).huskResult 0).husk.st = 8 ∧
    ((s.seals gate members s.husk.openGen).huskResult 0).husk.gen = s.husk.openGen := by
  unfold State.seals
  extract_lets r
  have written : MemOnly s (r.1.devWrite gate (leBytes 8 (ofLe (r.2.getD []) - members))) :=
    (memOnly_devRead s gate 8).trans (memOnly_devWrite _ _ _)
  generalize r.1.devWrite gate _ = u at written ⊢
  have flooded := linksOnly_floodNew u 2 (fencePayload 2 0 0 s.husk.openGen)
  generalize u.floodNew 2 _ = x at flooded ⊢
  have husk : x.husk = s.husk := flooded.husk.trans written.husk
  have self : x.devNum = s.devNum := flooded.devNum.trans (by rw [written])
  rw [← husk] at hst hflushing hflushed hself ⊢
  have folded := sealAct_folded hflushing hflushed (self ▸ hself) hst
  generalize x.sealAct _ = t at folded ⊢
  exact folded

theorem actHuskDeclareLost_eq (s : State) : actHuskDeclareLost s = s.huskAct false 0 (s.declareLost s.devNum) := rfl

/-- A module that declares itself lost counts itself, and its running image stops (R366, R367, R370). -/
theorem declareLost_spec (s : State) (d : Nat) : ((s.declareLost d).huskResult 0).husk.lost =
      (if d ∈ s.husk.lost ∨ 64 ≤ s.husk.lost.length then s.husk.lost else s.husk.lost ++ [d]) ∧
    ((s.declareLost d).huskResult 0).sched.st = (if s.sched.st = 3 then 5 else s.sched.st) := by
  unfold State.declareLost
  obtain ⟨-, -, sched, lost, -⟩ := fenceLoss_spec (s.floodNew 2 (fencePayload 1 0 d 0)) d
  have flooded := linksOnly_floodNew s 2 (fencePayload 1 0 d 0)
  rw [flooded.sched] at sched
  rw [flooded.husk, lost_loses] at lost
  generalize State.fenceLoss _ d = t at sched lost ⊢
  exact ⟨lost, sched⟩

/-- The module once it has flooded the resume and resumed itself (R375). -/
def State.resumes (s : State) (e g : Nat) : State := (s.floodNew 3 (fencePayload 1 e 0 g)).resumeAct e g

theorem actHuskResume_eq (s : State) (v : Nat) : actHuskResume s v = s.huskAct
    (s.parityGated || !(decide (s.husk.st = 9 ∨ s.husk.st = 1))) 0 (s.resumes (v / 2 ^ 48) (v % 2 ^ 48)) := rfl

/-- A module that resumes is SEALED at the generation given, with no device lost (R375). -/
theorem resumes_spec {s : State} (hst : s.husk.st = 9 ∨ s.husk.st = 1) (e g : Nat) : ((s.resumes e g).huskResult 0).husk = { s.husk with
    result := 0, gen := g, lost := [], decision := 0, st := 3, fenced := false, settleAt := none, sealSeen := false } := by
  have husk := (linksOnly_floodNew s 3 (fencePayload 1 e 0 g)).husk
  have resumed := (resumeAct_eq (s.floodNew 3 (fencePayload 1 e 0 g)) e g).2
  rw [husk, if_pos hst] at resumed
  unfold State.resumes
  generalize State.resumeAct _ e g = t at resumed ⊢
  exact congrArg (fun k : HuskSt => { k with result := 0 }) resumed

/-- A Husk action is refused with STATE while the parity engines are gated, the schedule is busy or the module has declared itself lost
(R358; log 76). -/
theorem gives_shut_refused {s : State} (h : s.parityGated = true ∨ s.huskShut = true) (q : OdReq) (v : BitVec 8) (g : BitVec 64) :
    let refused := fun (i : Instr) => Gives i s (fun t => t.husk = { s.husk with result := 1 } ∧ t.mem = s.mem)
    (s.admits q 0x0A20 (leBytes 1 v.toNat) → refused (.huskMapLoad q v)) ∧ (s.admits q 0x0A21 (leBytes 8 g.toNat) → refused (.huskInit q g)) ∧
    (s.admits q 0x0A22 (leBytes 8 g.toNat) → refused (.huskOpen q g)) ∧ (s.admits q 0x0A23 (leBytes 8 g.toNat) → refused (.huskFold q g)) ∧
    (s.admits q 0x0A25 (leBytes 1 v.toNat) → refused (.huskRestore q v)) ∧
    (s.admits q 0x0A26 (leBytes 8 g.toNat) → refused (.huskRebuild q g)) :=
  ⟨fun hadm => (writes_huskMapLoad q v).husk_refuses actHuskMapLoad_eq hadm (if_pos (shut_refuses h _)) Nat.one_ne_zero,
    fun hadm => (writes_huskInit q g).husk_refuses (actHuskInit_eq · g.toNat) hadm (if_pos (shut_refuses h _)) Nat.one_ne_zero,
    fun hadm => (writes_huskOpen q g).husk_refuses (actHuskOpen_eq · g.toNat) hadm (if_pos (shut_refuses h _)) Nat.one_ne_zero,
    fun hadm => (writes_huskFold q g).husk_refuses (actHuskFold_eq · g.toNat) hadm (if_pos (shut_refuses h _)) Nat.one_ne_zero,
    fun hadm => (writes_huskRestore q v).husk_refuses actHuskRestore_eq hadm (if_pos (shut_refuses h _)) Nat.one_ne_zero,
    fun hadm => (writes_huskRebuild q g).husk_refuses (actHuskRebuild_eq · g.toNat) hadm (if_pos (shut_refuses h _)) Nat.one_ne_zero⟩

end Sys2Proof.Machine

/-! SUPPORT. The ends of the Husk's work (R357 to R363, R368, R371, R372, R378). -/

namespace Sys2Proof.Machine

/-- The end of an engine's work moves HuskState, and leaves the rest of the Husk, the cores and the memory (R359 to R362, R371). -/
theorem parIdle_setHusk (s : State) (w n : Nat) : ((s.parIdle w).setHusk n).husk = { s.husk with st := n } ∧
    ((s.parIdle w).setHusk n).cores = s.cores ∧ ((s.parIdle w).setHusk n).mem = s.mem := by
  have idle := linksOnly_parIdle s w
  exact ⟨congrArg (fun k : HuskSt => { k with st := n }) idle.husk, idle.cores, idle.mem⟩

theorem parIdle_setHusk_eq (s : State) (w n : Nat) : (s.parIdle w).setHusk n = { s.parIdle w with husk := { s.husk with st := n } } :=
  congrArg (fun k : HuskSt => { s.parIdle w with husk := { k with st := n } }) (linksOnly_parIdle s w).husk

/-- What a map check finds (R357); a map whose action was overtaken answers STATE (log 76). -/
def State.mapOutcome (s : State) : Nat :=
  if s.husk.st = 0 ∨ s.husk.st = 1 ∨ s.husk.st = 3 ∨ s.husk.st = 12 then s.mapCheck (s.entriesAt s.husk.mapBase s.husk.mapCount) else 1

/-- The Husk once the check of a map has ended: MAPPED, or as it was with the code of the check (R357). -/
def HuskSt.loads (k : HuskSt) (r : Nat) (m : List (List Word)) : HuskSt :=
  if r ≠ 0 then { k with loading := false, result := r }
  else { k with loading := false, result := 0, st := 1, map := m, gen := if k.st = 3 then 0 else k.gen, fenced := false }

section
variable {s : State}

theorem exec_huskMapLoadDone (hlost : s.clock.lost = false) (h : s.husk.loading = true) : exec .huskMapLoadDone s =
    .next { s.devTouch s.husk.mapBase (128 * s.husk.mapCount) with
      husk := s.husk.loads s.mapOutcome (s.entriesAt s.husk.mapBase s.husk.mapCount) } := by
  have read := (memOnly_devTouch s s.husk.mapBase (128 * s.husk.mapCount)).husk
  refine (if_neg (by simp [hlost, h])).trans ?_
  unfold HuskSt.loads
  dsimp only
  rw [← State.mapOutcome]
  generalize s.mapOutcome = r
  generalize s.devTouch _ _ = x at read ⊢
  rw [read]
  split
  next => rfl
  next hr =>
    obtain rfl : r = 0 := not_not.mp hr
    rfl

theorem exec_huskInitDone (hst : s.husk.st = 2) (hdone : s.parDone 1 = true) : exec .huskInitDone s =
    .next { s.parIdle 0 with husk := { s.husk with st := 3, gen := s.husk.openGen } } := by
  refine (if_pos ⟨hst, hdone⟩).trans ?_
  exact congrArg (fun k : HuskSt => Host.Outcome.next { s.parIdle 0 with husk := { k with st := 3, gen := k.openGen } })
    (linksOnly_parIdle s 0).husk

theorem exec_huskOpenDone (hdone : s.parDone 2 = true) (hst : s.husk.st = 4 ∨ s.husk.st = 9) : exec .huskOpenDone s =
    .next (if s.husk.st = 4 then (s.parIdle 0).setHusk 5 else s.parIdle 0) := by
  refine (if_pos ⟨hdone, hst⟩).trans ?_
  rw [(linksOnly_parIdle s 0).husk]

theorem exec_huskApplyDone (hdone : s.parDone 5 = true) (hst : s.husk.st = 8 ∨ s.husk.st = 9) : exec .huskApplyDone s =
    .next (if s.husk.st = 8 then (s.parIdle 0).setHusk 3 else s.parIdle 0) := by
  refine (if_pos ⟨hdone, hst⟩).trans ?_
  rw [(linksOnly_parIdle s 0).husk]

theorem exec_huskRestoreDone (hst : s.husk.st = 10) (hdone : s.parDone 6 = true) :
    exec .huskRestoreDone s = .next ((s.parIdle 0).setHusk 9) := if_pos ⟨hst, hdone⟩

theorem exec_huskFoldDone (hst : s.husk.st = 6) (hdone : s.parDone 4 = true) : exec .huskFoldDone s =
    let u := (s.parIdle 0).sealSignal
    .next (if (u.par 0).fail || (u.par 1).fail then u else u.setHusk 7) := if_pos ⟨hst, hdone⟩

/-- The signal of a fold leaves the Husk as it is (R361). -/
theorem husk_sealSignal (s : State) : s.sealSignal.husk = s.husk := by
  unfold State.sealSignal
  split
  · exact (keepsParity_gateAdd s _ 1).husk
  · extract_lets h txn _ s1 _ r
    have sent : r.1.husk = s.husk := (linksOnly_sendPkt s1 _).husk
    split
    · exact sent
    · exact (memOnly_post _ _ _ _ _).husk.trans sent

/-- The fold of the coordinator signals its own gate, which leaves the parity engines without an error (R361). -/
theorem exec_huskFoldDone_coord (hst : s.husk.st = 6) (hdone : s.parDone 4 = true) (hfail : ¬ ((s.par 0).fail = true ∨ (s.par 1).fail = true))
    (hcoord : s.husk.coord = s.devNum) : exec .huskFoldDone s = .next (((s.parIdle 0).gateAdd s.husk.sealGate 1).setHusk 7) := by
  have idle := linksOnly_parIdle s 0
  have signal : (s.parIdle 0).sealSignal = (s.parIdle 0).gateAdd s.husk.sealGate 1 := by
    refine (if_pos ?_).trans ?_
    · rw [idle.husk, idle.devNum, hcoord]
    · rw [idle.husk]
  have whole : (((s.parIdle 0).gateAdd s.husk.sealGate 1).par 0).fail = false ∧ (((s.parIdle 0).gateAdd s.husk.sealGate 1).par 1).fail = false := by
    have kept := keepsParity_gateAdd (s.parIdle 0) s.husk.sealGate 1
    rw [kept.par, kept.par, (par_parIdle s 0).1, (par_parIdle s 0).2]
    simpa [ParSt.idles] using hfail
  rw [exec_huskFoldDone hst hdone, signal]
  exact congrArg Host.Outcome.next (if_neg (by simp [whole]))

/-- The rebuild has ended on each hub that is not fenced (R372). -/
def State.rebuildEnded (s : State) : Prop :=
  ∀ h, h = 0 ∨ h = 1 → (s.hub h).fenced = true ∨ ((s.par h).work = 7 ∧ (s.par h).todo = [] ∧ (s.par h).cur = none)

theorem exec_huskRebuildDone (hstop : s.parStopped = false) (hended : s.rebuildEnded) : exec .huskRebuildDone s =
    .next { s.parIdle 0 with husk := { s.husk with
      st := if (s.par 0).fail = true ∨ (s.par 1).fail = true then 12 else if s.husk.st = 11 then s.husk.from_ else s.husk.st,
      result := if (s.par 0).halt = true ∨ (s.par 1).halt = true then 1 else s.husk.result } } := by
  have ended : ([0, 1].all (fun h => (s.hub h).fenced ||
      (decide ((s.par h).work = 7) && (s.par h).todo.isEmpty && decide ((s.par h).cur = none)))) = true := by
    simpa [State.rebuildEnded, and_assoc] using hended
  refine (if_neg (by simp [ended, hstop])).trans ?_
  simp only [← Bool.or_eq_true]
  exact congrArg (fun k : HuskSt => Host.Outcome.next { s.parIdle 0 with husk := { k with
      st := if (s.par 0).fail || (s.par 1).fail then 12 else if k.st = 11 then k.from_ else k.st,
      result := if (s.par 0).halt || (s.par 1).halt then 1 else k.result } }) (linksOnly_parIdle s 0).husk

theorem exec_recoverySettleExpire {t : Nat} (hlost : s.clock.lost = false) (h : s.husk.settleAt = some t)
    (hdue : t + s.husk.settle * 400 ≤ s.tsc) : exec .recoverySettleExpire s =
      .next { s with husk := { s.husk with settleAt := none, decision := huskDecide s.husk } } := by
  show execRecoverySettleExpire s = _
  unfold execRecoverySettleExpire
  rw [h]
  exact if_pos ⟨hdue, hlost⟩

theorem exec_huskFlushDone (hlost : s.clock.lost = false) (h : s.husk.flushing = true) : exec .huskFlushDone s =
    .next { s.parIdle 8 with husk := { s.husk with flushing := false, flushed := true } } := by
  refine (if_pos ⟨h, hlost⟩).trans ?_
  exact congrArg (fun k : HuskSt => Host.Outcome.next { s.parIdle 8 with husk := { k with flushing := false, flushed := true } })
    (linksOnly_parIdle s 8).husk

/-- A poll of the trailers that an engine awaits (R361, R372). -/
theorem exec_huskTrailerPoll {h : Fin 2} (hlost : s.clock.lost = false) (hwait : (s.par h).wait ≠ []) (hcur : (s.par h).cur ≠ none) :
    exec (.huskTrailerPoll h) s =
      if (s.par h).work = 4 then
        .next (((s.updPar h (fun q => { q with asked := (s.par h).wait, wait := [] })).forEach (s.par h).wait (fun u m =>
          u.pull h m (hRec (s.curEntry h) m).2.1 ((hRec (s.curEntry h) m).2.2 + hLen (s.curEntry h)) (hLen (s.curEntry h)) 64)).parGo h)
      else .next ((s.updPar h (fun q => { q with wait := [] })).parGo h) :=
  if_neg (by simp [hlost, hwait, hcur])

end
end Sys2Proof.Machine

/-! SUPPORT. The seal and the loss of a recorded action (R362, R370, R376), and the settlement of O37. -/

namespace Sys2Proof.Machine

/-- The coordinator reads its seal gate as it stood before the request (R362). -/
theorem sealGate_noteAct {s : State} {idx : Nat} {b : List Byte} (h : (s.devRead s.husk.sealGate 8).2 = some b) :
    ofLe (((s.noteAct .act idx 0 0).devRead s.husk.sealGate 8).2.getD []) = ofLe b := by
  rw [devRead_of_mem (s := s) (t := s.noteAct .act idx 0 0) rfl, h]
  rfl

/-- The seal of an action that the log has taken down (R362, R376). -/
theorem seals_taken {s : State} {idx n : Nat} (h : loggedObj idx true = true) (b : List Byte) (hst : s.husk.st = 7)
    (hn : n = s.husk.openGen) (hflushing : s.husk.flushing = false) (hflushed : s.husk.flushed = false) (hself : s.devNum ∉ s.husk.lost)
    (gate members : Nat) : (((s.taken idx 0 b).seals gate members n).huskResult 0).husk.st = 8 ∧
      (((s.taken idx 0 b).seals gate members n).huskResult 0).husk.gen = n := by
  have number := devNum_taken s idx 0 b
  have logged := husk_taken s h 0 b
  generalize s.taken idx 0 b = r at number logged ⊢
  obtain rfl : n = r.husk.openGen := by rw [hn, logged]; rfl
  refine seals_spec ?_ ?_ ?_ ?_ gate members
  all_goals rw [logged]
  · exact hst
  · exact hflushing
  · exact hflushed
  · rwa [number]

/-- The loss that an action declares and the log has taken down (R370, R376). -/
theorem declareLost_taken (s : State) {idx : Nat} (h : loggedObj idx true = true) (b : List Byte) (d : Nat) :
    (((s.taken idx 0 b).declareLost d).huskResult 0).husk.lost =
      (if d ∈ s.husk.lost ∨ 64 ≤ s.husk.lost.length then s.husk.lost else s.husk.lost ++ [d]) ∧
    (((s.taken idx 0 b).declareLost d).huskResult 0).sched.st = (if s.sched.st = 3 then 5 else s.sched.st) := by
  have sched := sched_taken s idx 0 b
  have logged := husk_taken s h 0 b
  generalize s.taken idx 0 b = r at sched logged ⊢
  have lost : r.husk.lost = s.husk.lost := by rw [logged]; rfl
  rw [← lost, ← sched]
  exact declareLost_spec r d

/-- Settles O37: each action is the write of an object that is refused, or taken and done by the lemma of its own; what it does to the Husk
and the schedule is what the work of the engines leaves of them, and each end of that work moves HuskState from idle engines. -/
theorem huskActionsAndTheirEnds : Obligations.HuskActionsAndTheirEnds := by
  unfold Obligations.HuskActionsAndTheirEnds
  refine ⟨fun q g v s => ?acts, fun s hlost => ?ends⟩
  case acts =>
    intro b8 b1 n k done refused
    -- HuskResult by its name: two states are then compared as states, not field by field.
    have hdone : done = fun w => w.huskResult 0 := rfl
    clear_value done
    subst hdone b8 b1
    refine ⟨fun h => ?shut, fun hgated hshut => ⟨fun hadm hst => ?load, fun hadm hst hn => ?init, fun hadm hst hn => ?opens,
      fun hadm hst hn => ?skips, fun hadm hst => ?unsealed, fun hadm hst hn => ?fold, fun hadm hst hback => ?restore,
      fun hadm hst hlist => ?rebuild⟩, fun b hgated hadm hst hn hread => ⟨fun hfew => ?awaits, fun hflushing hflushed hself hall => ?seals⟩,
      fun hadm => ?lost, fun hgated hadm hst => ?resume, fun b hadm hlen hbusy => ?log⟩
    case shut => exact gives_shut_refused h q v g
    case load =>
      have ready : decide (k.st = 0 ∨ k.st = 1 ∨ k.st = 3 ∨ k.st = 12) = true := decide_eq_true hst
      obtain ⟨st, cores⟩ := loadsMap_spec (s.taken 0x0A20 0 (leBytes 1 v.toNat))
      exact (writes_huskMapLoad q v).husk_acts actHuskMapLoad_eq hadm ((open_ready hgated hshut _).trans (congrArg Bool.not ready)) rfl
        ⟨rfl, st.trans (huskSt_taken s rfl 0 _), cores.trans (cores_taken s _ _ _)⟩
    case init =>
      obtain ⟨st, gen, sched⟩ := inits_spec (s.taken 0x0A21 0 (leBytes 8 g.toNat)) n
      exact (writes_huskInit q g).husk_acts (actHuskInit_eq · n) hadm ((open_ready hgated hshut _).trans (decide_eq_false (not_not.mpr hst)))
        (if_neg hn) ⟨rfl, st, gen, sched.trans (sched_taken s _ _ _)⟩
    case opens =>
      obtain ⟨st, gen, sched⟩ := opensGen_spec (s.taken 0x0A22 0 (leBytes 8 g.toNat)) n
      exact (writes_huskOpen q g).husk_acts (actHuskOpen_eq · n) hadm ((open_ready hgated hshut _).trans (decide_eq_false (not_not.mpr hst)))
        (if_neg (not_not.mpr hn)) ⟨rfl, st, gen, sched.trans (sched_taken s _ _ _)⟩
    case skips =>
      have sealed : (s.huskShut || s.parityGated || decide (k.st ≠ 3)) = false :=
        (open_ready hgated hshut _).trans (decide_eq_false (not_not.mpr hst))
      exact (writes_huskOpen q g).husk_refuses (actHuskOpen_eq · n) hadm
        ((if_neg (Bool.eq_false_iff.mp sealed)).trans (if_pos hn)) (by decide)
    case unsealed =>
      exact (writes_huskOpen q g).husk_refuses (actHuskOpen_eq · n) hadm
        (if_pos ((open_ready hgated hshut _).trans (decide_eq_true hst))) Nat.one_ne_zero
    case fold =>
      obtain ⟨st, epoch, sched⟩ := folds_spec (s.taken 0x0A23 0 (leBytes 8 g.toNat)) s.sched.placeEpoch n
      refine (writes_huskFold q g).husk_acts (actHuskFold_eq · n) hadm
        ((open_ready hgated hshut _).trans (decide_eq_false (not_not.mpr hst))) (if_neg (not_not.mpr hn)) ?_
      rw [sched_taken]
      exact ⟨rfl, st, epoch, sched.trans (sched_taken s _ _ _)⟩
    case restore =>
      have back : decide (k.st = 9 ∧ k.decision = 1) = true := decide_eq_true ⟨hst, hback⟩
      obtain ⟨st, sched⟩ := restores_spec (s.taken 0x0A25 0 (leBytes 1 v.toNat)) k.openGen
      refine (writes_huskRestore q v).husk_acts actHuskRestore_eq hadm ((open_ready hgated hshut _).trans (congrArg Bool.not back)) rfl ?_
      rw [openGen_taken s rfl]
      exact ⟨rfl, st, sched.trans (sched_taken s _ _ _)⟩
    case rebuild =>
      have ready : decide (k.st = 1 ∨ (k.st = 9 ∧ k.decision ≠ 3)) = true := decide_eq_true hst
      obtain ⟨st, from_, sched⟩ := rebuilds_spec (s.taken 0x0A26 0 (leBytes 8 g.toNat)) n k.st
      refine (writes_huskRebuild q g).husk_acts (actHuskRebuild_eq · n) hadm ((open_ready hgated hshut _).trans (congrArg Bool.not ready))
        ((listCheck_noteAct s _ 0 n).trans hlist) ?_
      rw [huskSt_taken s rfl]
      exact ⟨rfl, st, from_, sched.trans (sched_taken s _ _ _)⟩
    case awaits =>
      have folded : (s.parityGated || decide (k.st ≠ 7)) = false := by rw [hgated, decide_eq_false (not_not.mpr hst)]; rfl
      exact (writes_huskSeal q g).husk_refuses (actHuskSeal_eq · n) hadm ((if_neg (Bool.eq_false_iff.mp folded)).trans
        ((if_neg (not_not.mpr hn)).trans (if_pos (sealGate_noteAct hread ▸ hfew)))) (by decide)
    case seals =>
      have folded : (s.parityGated || decide (k.st ≠ 7)) = false := by rw [hgated, decide_eq_false (not_not.mpr hst)]; rfl
      refine (writes_huskSeal q g).husk_acts (actHuskSeal_eq · n) hadm folded
        ((if_neg (not_not.mpr hn)).trans (if_neg (sealGate_noteAct hread ▸ Nat.not_lt.mpr hall))) ?_
      rw [sealGate_taken s rfl, members_taken s rfl]
      exact ⟨rfl, seals_taken rfl _ hst hn hflushing hflushed hself _ _⟩
    case lost =>
      have counted := declareLost_taken s (idx := 0x0A27) rfl (leBytes 1 v.toNat) s.devNum
      refine (writes_huskDeclareLost q v).husk_acts actHuskDeclareLost_eq hadm rfl rfl ?_
      rw [devNum_taken]
      exact ⟨rfl, counted⟩
    case resume =>
      have ready : (s.parityGated || !(decide (k.st = 9 ∨ k.st = 1))) = false := by rw [hgated, decide_eq_true hst]; rfl
      have resumed := resumes_spec (s := s.taken 0x0A28 0 (leBytes 8 g.toNat)) (by rwa [huskSt_taken s rfl]) (n / 2 ^ 48) (n % 2 ^ 48)
      refine (writes_huskResume q g).husk_acts (actHuskResume_eq · n) hadm ready rfl ⟨rfl, ?_⟩
      rw [resumed]
      exact ⟨rfl, rfl, rfl, rfl, rfl, rfl⟩
    case log => exact (writes_actionLogAppend q hlen).acts hadm rfl hbusy ⟨rfl, husk_taken s rfl 0 b⟩
  case ends =>
    intro k moves failed halted
    have moved : ∀ n, moves n ((s.parIdle 0).setHusk n) := fun n => ⟨rfl, parIdle_setHusk s 0 n⟩
    refine ⟨fun hload => ?loaded, fun hst hdone => ?inited, fun hdone => ⟨fun hst => ?opened, fun hst => ?fencedOpen⟩,
      fun hdone => ⟨fun hst => ?applied, fun hst => ?fencedApply⟩, fun hst hdone => ?restored,
      fun hst hdone hwhole => ⟨fun hcoord => ?foldedHere, fun hcoord => ?foldedThere⟩,
      fun hstop hended => ⟨fun hfail hrun => ?lostThree, fun hwhole hrun => ?rebuilt, fun hhalt => ?halted⟩,
      fun t0 ht0 hdue => ?settled, fun hflush => ?flushed, fun h hwait hcur => ⟨fun hwork => ?polled, fun hwork => ?polledFold⟩⟩
    case loaded => exact ⟨_, exec_huskMapLoadDone hlost hload, rfl⟩
    case inited =>
      have idle := linksOnly_parIdle s 0
      exact ⟨_, exec_huskInitDone hst hdone, rfl, idle.cores, idle.mem⟩
    case opened => exact ⟨_, (exec_huskOpenDone hdone (.inl hst)).trans (congrArg Host.Outcome.next (if_pos hst)), moved 5⟩
    case fencedOpen =>
      have fenced : ¬ k.st = 4 := by rw [hst]; decide
      exact ⟨_, (exec_huskOpenDone hdone (.inr hst)).trans (congrArg Host.Outcome.next (if_neg fenced)), rfl⟩
    case applied => exact ⟨_, (exec_huskApplyDone hdone (.inl hst)).trans (congrArg Host.Outcome.next (if_pos hst)), moved 3⟩
    case fencedApply =>
      have fenced : ¬ k.st = 8 := by rw [hst]; decide
      exact ⟨_, (exec_huskApplyDone hdone (.inr hst)).trans (congrArg Host.Outcome.next (if_neg fenced)), rfl⟩
    case restored => exact ⟨_, exec_huskRestoreDone hst hdone, moved 9⟩
    case foldedHere =>
      have husk := (keepsParity_gateAdd (s.parIdle 0) k.sealGate 1).husk.trans (linksOnly_parIdle s 0).husk
      exact ⟨_, exec_huskFoldDone_coord hst hdone hwhole hcoord, rfl, congrArg (fun k : HuskSt => { k with st := 7 }) husk⟩
    case foldedThere =>
      have husk := (husk_sealSignal (s.parIdle 0)).trans (linksOnly_parIdle s 0).husk
      refine ⟨_, exec_huskFoldDone hst hdone, rfl, ?_⟩
      split
      · exact .inr husk
      · exact .inl (congrArg (fun k : HuskSt => { k with st := 7 }) husk)
    case lostThree =>
      have ends := exec_huskRebuildDone hstop hended
      rw [if_pos hfail, if_neg hrun, ← parIdle_setHusk_eq] at ends
      exact ⟨_, ends, moved 12⟩
    case rebuilt =>
      have ends := exec_huskRebuildDone hstop hended
      rw [if_neg hwhole, if_neg hrun, ← parIdle_setHusk_eq] at ends
      exact ⟨_, ends, moved _⟩
    case halted =>
      have ends := exec_huskRebuildDone hstop hended
      rw [if_pos hhalt] at ends
      exact ⟨_, ends, _, rfl, fun hfail => if_pos hfail, fun hwhole => if_neg hwhole⟩
    case settled => exact ⟨_, exec_recoverySettleExpire hlost ht0 hdue, rfl⟩
    case flushed =>
      obtain ⟨north, south⟩ := par_parIdle s 8
      exact ⟨_, exec_huskFlushDone hlost hflush, rfl, congrArg ParSt.work north, congrArg ParSt.work south, (linksOnly_parIdle s 8).mem⟩
    case polled => exact ⟨_, (exec_huskTrailerPoll hlost hwait hcur).trans (if_neg hwork), rfl⟩
    case polledFold => exact ⟨_, (exec_huskTrailerPoll hlost hwait hcur).trans (if_pos hwork), rfl⟩

end Sys2Proof.Machine

/-! SUPPORT. What a write of an object does to the fuses: OwnerCommit and SvnRaise alone burn some (R444, R449, R451). -/

namespace Sys2Proof.Machine

/-! The moves of the fuses (R444, R449, R451). -/

@[simp] theorem FuseSt.Moves.refl (f : FuseSt) : f.Moves f := .inl rfl

/-- A voucher that passes its checks names the slot that its kind lets it burn or release (R450). -/
theorem voucherOk_slot {s : State} (h : s.voucherOk = true) :
    (vKind s.sec.voucher ≠ 3 → s.fuses.slots.length < 4) ∧
    (vKind s.sec.voucher = 3 → s.owned = true ∧ vSlot s.sec.voucher + 1 = s.fuses.slots.length) := by
  simp only [State.voucherOk, Bool.and_eq_true] at h
  obtain ⟨-, kind⟩ := h
  split at kind
  next k1 => simp_all
  next =>
    split at kind
    next k2 => simp_all
    next =>
      split at kind
      next k3 => simp_all
      next => contradiction

theorem owned_iff (s : State) : s.owned = true ↔ s.fuses.slots ≠ [] ∧ s.fuses.slots.length - 1 ∉ s.fuses.released := by
  simp [State.owned]

/-- The burn of SvnFloor never lowers it (R444). -/
theorem FuseSt.moves_raise (f : FuseSt) (n : Nat) : f.Moves (f.raise n) := by
  refine .inr (.inr (.inr ⟨max f.svnFloor n, Nat.le_max_left .., ?_⟩))
  simp [FuseSt.raise]

/-- What OwnerCommit burns (R449, R451). -/
theorem fuses_ownerCommit (s : State) : (actOwnerCommit s).eff.fuses =
    if vKind s.sec.voucher = 3 then s.fuses.release (vSlot s.sec.voucher) else s.fuses.burn (vNew s.sec.voucher) := by
  simp only [actOwnerCommit, State.post_keeps, State.portsDown_keeps, State.noteMr2_keeps, State.updSec_keeps, State.setFmKey_keeps]
  split <;> simp

theorem moves_ownerCommit {s : State} (h : s.voucherOk = true) : s.fuses.Moves (actOwnerCommit s).eff.fuses := by
  obtain ⟨burns, releases⟩ := voucherOk_slot h
  rw [fuses_ownerCommit]
  split
  next k =>
    obtain ⟨owned, slot⟩ := releases k
    obtain ⟨some_, unreleased⟩ := (owned_iff s).mp owned
    have last : vSlot s.sec.voucher = s.fuses.slots.length - 1 := by omega
    exact .inr (.inr (.inl ⟨some_, unreleased, by rw [last]⟩))
  next k => exact .inr (.inl ⟨burns k, _, rfl⟩)

/-! The effect of a write, and what is left when it is refused. -/

/-- Neither the effect of a write nor its refusal changes the fuses. -/
def Act.LeavesFuses (a : Act) (s : State) : Prop := a.eff.fuses = s.fuses ∧ ∀ t ∈ a.rej, t.fuses = s.fuses

/-- The effect of a write that is not INVALID moves the fuses one way, and its refusal leaves them. -/
def Act.MovesFuses (a : Act) (s : State) : Prop := (a.inv = false → s.fuses.Moves a.eff.fuses) ∧ ∀ t ∈ a.rej, t.fuses = s.fuses

@[simp] theorem actLeavesFuses_mk (s : State) (inv bad : Bool) (rej : Option State) (eff : State) :
    Act.LeavesFuses { inv := inv, bad := bad, rej := rej, eff := eff } s ↔ eff.fuses = s.fuses ∧ ∀ t ∈ rej, t.fuses = s.fuses := Iff.rfl

theorem Act.LeavesFuses.moves {a : Act} {s : State} (h : a.LeavesFuses s) : a.MovesFuses s := by
  obtain ⟨left, refused⟩ := h
  exact ⟨fun _ => .inl left, refused⟩

@[simp] theorem leavesFuses_huskAct (s : State) (bad : Bool) (code : Nat) (eff : State) :
    (s.huskAct bad code eff).LeavesFuses s ↔ eff.fuses = s.fuses := by
  simp [State.huskAct]

theorem moves_actOwnerCommit (s : State) : (actOwnerCommit s).MovesFuses s := by
  refine ⟨fun h => moves_ownerCommit ?_, by simp [actOwnerCommit]⟩
  simpa [actOwnerCommit] using h

theorem moves_actSvnRaise (s : State) : (actSvnRaise s).MovesFuses s := by
  refine ⟨fun _ => ?_, by simp [actSvnRaise]⟩
  simpa [actSvnRaise] using s.fuses.moves_raise s.sec.runningSvn

section
variable (s : State) (cpu : Option (Fin 16)) (lo sub : Nat) (b : List Byte)

@[simp] theorem leavesFuses_actFlagClear (v : Word) (coset : List (FlagUnit × BitVec 4)) : (actFlagClear s v coset).LeavesFuses s := by
  simp [actFlagClear]

@[simp] theorem leavesFuses_actFwSlotData (ok : Bool) : (actFwSlotData s b ok).LeavesFuses s := by
  simp [actFwSlotData, apply_ite State.fuses]

@[simp] theorem leavesFuses_actPortControl (p v : Nat) : (actPortControl s p v).LeavesFuses s := by
  unfold actPortControl
  (repeat' split) <;> simp [apply_ite State.fuses]

@[simp] theorem leavesFuses_actOptPrepare (n : Nat) : (actOptPrepare s n).LeavesFuses s := by
  refine (actLeavesFuses_mk s _ _ _ _).mpr ⟨by simp, fun t ht => ?_⟩
  split at ht
  · obtain rfl := Option.some.inj ht
    rfl
  · exact absurd ht nofun

/-- The objects of the clocks, the memory, the schedules and the flags. -/
theorem leavesFuses_wrUnits :
    (wrClocks s cpu lo sub b).LeavesFuses s ∧ (wrMemory s lo b).LeavesFuses s ∧ (wrSched s lo b).LeavesFuses s ∧
    (wrFlags s lo b).LeavesFuses s := by
  unfold wrClocks wrMemory wrSched wrFlags
  refine ⟨?_, ?_, ?_, ?_⟩
  all_goals
    split <;> simp [actClockReselect, actClockOutSel, actRegionClkEn, actHubClkEn, actCtlCoreEnable, actBandSet, actLoad, actStart, actStop,
      actEpoch, apply_ite State.fuses]

/-- The objects of the links, the fabric and the training. -/
theorem leavesFuses_wrFabrics :
    (wrLinks s lo sub b).LeavesFuses s ∧ (wrFabric s lo b).LeavesFuses s ∧ (wrTrain s lo b).LeavesFuses s := by
  unfold wrLinks wrFabric wrTrain
  refine ⟨?_, ?_, ?_⟩
  all_goals
    split <;> simp [actExpectedPeer, actSliceSet, actSliceStop, actOptCommit, actTrainStepSet, apply_ite State.fuses]

theorem leavesFuses_wrHusk : (wrHusk s lo b).LeavesFuses s := by
  unfold wrHusk
  split <;> simp [actHuskMapLoad, actHuskInit, actHuskOpen, actHuskFold, actHuskSeal, actHuskRestore, actHuskRebuild, actHuskDeclareLost,
    actHuskResume, apply_ite State.fuses]

/-- The objects of the management port, the black box and the firmware slots. -/
theorem leavesFuses_wrBoards : (wrMgmt s lo b).LeavesFuses s ∧ (wrBox s lo b).LeavesFuses s := by
  unfold wrMgmt wrBox
  refine ⟨?_, ?_⟩
  all_goals
    split <;> simp [actEventPost, actBlackBoxSelect, actBlackBoxWrite, actFwSlotErase, actFwActivate, apply_ite State.fuses]

/-- Of the writes of the security objects, OwnerCommit and SvnRaise alone burn fuses (R444, R451). -/
theorem moves_wrSecurity : (wrSecurity s lo sub b).MovesFuses s := by
  unfold wrSecurity
  split
  case h_3 => exact moves_actOwnerCommit s
  case h_11 => exact moves_actSvnRaise s
  all_goals
    refine Act.LeavesFuses.moves ?_
    simp [actJobKey, actJobRelease, actJobImage, actAttestNonce, actDebugUnlock, actDebugLock]

/-- Outside the security objects no write touches the fuses. -/
theorem leavesFuses_objAct {idx : Nat} (h : idx / 256 ≠ 12) : (s.objAct cpu idx sub b).LeavesFuses s := by
  have life : (if idx % 256 = 2 then actDeviceReset s (ofLe b) else if idx % 256 = 3 then actConfigSave s else actConfigErase s).LeavesFuses s := by
    (repeat' split) <;> simp [actDeviceReset, actConfigSave, actConfigErase]
  obtain ⟨clocks, memory, sched, flags⟩ := leavesFuses_wrUnits s cpu (idx % 256) sub b
  obtain ⟨links, fabric, train⟩ := leavesFuses_wrFabrics s (idx % 256) sub b
  obtain ⟨mgmt, box⟩ := leavesFuses_wrBoards s (idx % 256) b
  unfold State.objAct
  split
  · exact life
  · exact clocks
  · simp
  · exact memory
  · exact sched
  · exact flags
  · exact links
  · exact fabric
  · exact leavesFuses_wrHusk s _ b
  · exact train
  next security => exact absurd security h
  · exact mgmt
  · exact box
  · simp

theorem moves_objAct (idx : Nat) : (s.objAct cpu idx sub b).MovesFuses s := by
  by_cases h : idx / 256 = 12
  · simp only [State.objAct, h]
    exact moves_wrSecurity s _ sub b
  · exact (leavesFuses_objAct s cpu sub b h).moves

end

/-! A request in order (R412). -/

/-- The effect of a request moves the fuses one way, and what the action log records leaves them (R376). -/
structure FuseSafe (act : State → Act) (idx : Nat) : Prop where
  moves : ∀ t, (act t).MovesFuses t
  logged : ∀ c, loggedObj idx c = true → ∀ t, (act t).LeavesFuses t

/-- The action log records no write of a security object (R376). -/
theorem area_of_logged {idx : Nat} {c : Bool} (h : loggedObj idx c = true) : idx / 256 ≠ 12 := by
  simp only [loggedObj, Bool.or_eq_true, Bool.and_eq_true, decide_eq_true_eq] at h
  omega

theorem fuseSafe_objAct (cpu : Option (Fin 16)) (idx sub : Nat) (b : List Byte) : FuseSafe (fun t => t.objAct cpu idx sub b) idx :=
  ⟨fun t => moves_objAct t cpu sub b idx, fun _ h t => leavesFuses_objAct t cpu sub b (area_of_logged h)⟩

section
variable {act : State → Act} {idx : Nat} (h : FuseSafe act idx) (s : State) (q : OdReq) (sub : Nat) (b : List Byte)
include h

theorem odApply_moves (o : Obj) : s.fuses.Moves (s.odApply o idx sub b act).1.fuses := by
  obtain ⟨moves, logged⟩ := h
  have noted : (s.noteAct o.acc idx sub 0).fuses = s.fuses := by simp
  obtain ⟨accepted, refused⟩ := moves (s.noteAct o.acc idx sub 0)
  have rejected : ((act (s.noteAct o.acc idx sub 0)).rej.getD (s.noteAct o.acc idx sub 0)).fuses = s.fuses := by
    cases hr : (act (s.noteAct o.acc idx sub 0)).rej with
    | none => exact noted
    | some t => exact (refused t hr).trans noted
  simp only [State.odApply]
  split
  · exact .inl (by simpa using rejected)
  · split
    · exact .inl (by simpa using rejected)
    · split
      next hl =>
        obtain ⟨left, -⟩ := logged _ hl ((s.noteAct o.acc idx sub 0).appendLog idx sub b)
        exact .inl (by simpa using left)
      next => simpa using accepted (by simp_all)

theorem odRequest_moves : s.fuses.Moves (s.odRequest q idx sub b act).1.fuses := by
  unfold State.odRequest
  (repeat' split) <;> simp [odApply_moves h]

theorem request_moves : s.fuses.Moves (s.request q idx sub b act).fuses := by
  simp only [State.request]
  (repeat' split) <;> simp [odRequest_moves h]

end

@[simp] theorem put_moves (s : State) (q : OdReq) (idx sub : Nat) (b : List Byte) : s.fuses.Moves (s.put q idx sub b).fuses :=
  request_moves (fuseSafe_objAct q.cpu idx sub b) s q sub b

@[simp] theorem odWrite_moves (s : State) (q : OdReq) (idx sub : Nat) (b : List Byte) : s.fuses.Moves (s.odWrite q idx sub b).1.fuses :=
  odRequest_moves (fuseSafe_objAct q.cpu idx sub b) s q sub b

/-! The control-core window (R415). -/

@[simp] theorem windowCommit_moves (s : State) (c : Fin 16) (n : Nat) : s.fuses.Moves (s.windowCommit c n).fuses := by
  simp only [State.windowCommit]
  split
  · simp
  · split
    · simp
    · simpa using odWrite_moves (s.updCpu c (fun k => { k with staged := none, stage := [] })) _ _ _ _

@[simp] theorem windowPut_moves (s : State) (c : Fin 16) (rel width : Nat) (v : BitVec 64) :
    s.fuses.Moves (s.windowPut c rel width v).fuses := by
  simp only [State.windowPut]
  (repeat' split) <;> simp

/-! Requests that come by the management port and across the fabric (R421, R426). -/

@[simp] theorem serveBody_moves (s : State) (q : OdReq) (write : Bool) (b : List Byte) : s.fuses.Moves (s.serveBody q write b).1.fuses := by
  unfold State.serveBody
  split
  · refine odRequest_moves ⟨fun t => ?_, fun c hl t => ?_⟩ s q _ _
    · obtain ⟨moves, refused⟩ := moves_objAct t q.cpu (beAt b 2 1) _ (beAt b 0 2)
      exact ⟨fun h => moves (by simp_all), refused⟩
    · exact leavesFuses_objAct t q.cpu _ _ (area_of_logged hl)
  · exact .refl _

/-- A read leaves the fuses. -/
@[simp] theorem serveBody_read (s : State) (q : OdReq) (b : List Byte) : (s.serveBody q false b).1 = s := rfl

theorem sessionReq_moves (s : State) (x : Session) (d : Datagram) (write : Bool) (b : List Byte) :
    s.fuses.Moves (s.sessionReq x d write b).fuses := by
  simp only [State.sessionReq]
  (repeat' split) <;> simp

theorem sessionReq_fuses (s : State) (x : Session) (d : Datagram) (b : List Byte) : (s.sessionReq x d false b).fuses = s.fuses := by
  simp only [State.sessionReq]
  (repeat' split) <;> simp

/-- What a message of an open session does to the fuses, what it asks for does. -/
theorem sessionMsg_fuses {P : FuseSt → Prop} {act : State → Session → List Byte → State} {s : State} (h0 : P s.fuses)
    (h : ∀ t x b, t.fuses = s.fuses → P (act t x b).fuses) (d : Datagram) (typ : Nat) : P (s.sessionMsg d typ act).fuses := by
  simp only [State.sessionMsg]
  (repeat' split)
  case h_2.isFalse => exact h _ _ _ (by simp)
  all_goals simpa using h0

theorem sessionMsg_leaves {act : State → Session → List Byte → State} (h : ∀ t x b, (act t x b).fuses = t.fuses) (s : State)
    (d : Datagram) (typ : Nat) : (s.sessionMsg d typ act).fuses = s.fuses :=
  sessionMsg_fuses (P := (· = s.fuses)) rfl (fun t x b ht => (h t x b).trans ht) d typ

theorem serveObj_moves (s : State) (p : Packet) : s.fuses.Moves (s.serveObj p).fuses := by
  simp only [State.serveObj]
  (repeat' split) <;> simp

/-! A packet's service (R426, R457). -/

theorem fmAccept_fuses {P : FuseSt → Prop} {s : State} (h0 : P s.fuses) (p : Packet) {act : State → State}
    (h : ∀ t, t.fuses = s.fuses → P (act t).fuses) : P (s.fmAccept p act).fuses := by
  unfold State.fmAccept
  split
  · exact h s rfl
  · split
    · exact h _ (by simp)
    · simpa using h0

theorem epochThen_fuses {P : FuseSt → Prop} {s : State} (h0 : P s.fuses) (p : Packet) {act : State → State}
    (h : ∀ t, t.fuses = s.fuses → P (act t).fuses) : P (s.epochThen p act).fuses := by
  simp only [State.epochThen]
  (repeat' split) <;> simp [h, h0]

theorem pktArrive_fuses {P : FuseSt → Prop} {s : State} (h0 : P s.fuses) (port : Nat) (p : Packet) (types : List Nat)
    {serve : Packet → State → State} (h : ∀ q t, t.fuses = s.fuses → P (serve q t).fuses) : P (s.pktArrive port p types serve).fuses := by
  simp only [State.pktArrive]
  split
  · exact h0
  · split
    · split
      next t ht => simpa [(State.torusCheck_keeps ht).2] using h0
      next => exact h p s rfl
    · (repeat' split) <;> simp [h, h0]

theorem pktServe_fuses {P : FuseSt → Prop} {s : State} (h0 : P s.fuses) (port : Nat) (p : Packet) (types : List Nat)
    {serve : Packet → State → State} (h : ∀ q t, t.fuses = s.fuses → P (serve q t).fuses) : P (s.pktServe port p types serve).fuses := by
  refine pktArrive_fuses h0 port p types fun q t ht => ?_
  dsimp only
  split
  · exact epochThen_fuses (by simpa [ht] using h0) q fun u hu => h q u (by simp_all)
  · simpa [ht] using h0

end Sys2Proof.Machine

/-! SUPPORT. The commands that are no writes of objects leave the fuses (R444, R449), and the settlement of O57 and O58. -/

namespace Sys2Proof.Machine

/-- The outcome is a next state with the fuses of `s`. -/
def LeavesFuses (s : State) (o : Host.Outcome State Fault Refusal) : Prop := ∃ t, o = .next t ∧ t.fuses = s.fuses

@[simp] theorem leavesFuses_next (s t : State) : LeavesFuses s (.next t) ↔ t.fuses = s.fuses := by
  simp [LeavesFuses]

/-! The boot ROM (R468). -/

@[simp] theorem restoreRecords_fuses (s : State) : s.restoreRecords.fuses = s.fuses := by
  unfold State.restoreRecords
  extract_lets mgmt s1
  have configured : s1.fuses = s.fuses := by
    unfold s1
    split
    · rfl
    · simp
  clear_value s1
  split <;> simpa using configured

@[simp] theorem romChoose_fuses (s : State) : s.romChoose.fuses = s.fuses := by
  unfold State.romChoose
  extract_lets s1 n box s2 slot tgt s3
  have scanned : s1.fuses = s.fuses := by simp [s1]
  clear_value s1 slot tgt
  split <;> simpa [s3, s2] using scanned

/-! Commands whose effect runs inside a shared operation, which leaves the fuses when the effect does. -/

section
variable (s : State)

@[simp] theorem leavesFuses_execSqWait (c : Fin 136) (w : Cmd) : LeavesFuses s (execSqWait c w s) := by
  refine (leavesFuses_next s _).mpr (State.issueSq_keeps s c w 2 false false false _ fun t => ?_).2
  split <;> simp

@[simp] theorem leavesFuses_execAttest (p : Fin 40) (m : LinkMsg) : LeavesFuses s (execAttest p m s) := by
  refine (leavesFuses_next s _).mpr (State.waltzMsg_keeps s p 3 3 9216 m _ fun t => ?_).2
  dsimp only
  (repeat' split) <;> simp

@[simp] theorem leavesFuses_execKemek (p : Fin 40) (m : LinkMsg) : LeavesFuses s (execKemek p m s) := by
  refine (leavesFuses_next s _).mpr (State.waltzMsg_keeps s p 4 4 1184 m _ fun t => ?_).2
  dsimp only
  split <;> simp

@[simp] theorem leavesFuses_execKemct (p : Fin 40) (m : LinkMsg) : LeavesFuses s (execKemct p m s) := by
  refine (leavesFuses_next s _).mpr (State.waltzMsg_keeps s p 5 4 1088 m _ fun t => ?_).2
  dsimp only
  (repeat' split) <;> simp

@[simp] theorem leavesFuses_execCaps (p : Fin 40) (m : LinkMsg) : LeavesFuses s (execCaps p m s) := by
  refine (leavesFuses_next s _).mpr (State.waltzMsg_keeps s p 6 5 3584 m _ fun t => ?_).2
  dsimp only
  (repeat' split) <;> simp

@[simp] theorem leavesFuses_execPktColl (p : Fin 40) (pk : Packet) : LeavesFuses s (execPktColl p pk s) := by
  refine (leavesFuses_next s _).mpr (State.pktArrive_keeps s p pk [0x31] _ fun q t => ?_).2
  split <;> simp

@[simp] theorem leavesFuses_execPktReel (p : Fin 40) (pk : Packet) : LeavesFuses s (execPktReel p pk s) := by
  refine (leavesFuses_next s _).mpr (State.pktArrive_keeps s p pk [0x30] _ fun q t => ?_).2
  dsimp only
  split <;> simp

@[simp] theorem leavesFuses_execControlWindowWrite (cpu : Fin 16) (off : BitVec 40) (width : Nat) (v : BitVec 64) :
    LeavesFuses s (execControlWindowWrite cpu off width v s) := by
  unfold execControlWindowWrite
  split
  · simp
  · split
    next t ht => simpa using (State.windowStore_keeps ht).2
    next => simp

/-- What a datagram's message is put together from leaves the fuses as they are (R420). -/
theorem gather_fuses {s t : State} {d : Datagram} {b : Option (List Byte)} (h : s.gather d = (t, b)) : t.fuses = s.fuses := by
  have gathered := (State.gather_keeps s d).2
  rwa [h] at gathered

@[simp] theorem leavesFuses_execToaHello (d : Datagram) : LeavesFuses s (execToaHello d s) := by
  unfold execToaHello
  split
  · simp
  · split
    · simp
    · split
      next t ht => simpa using gather_fuses ht
      next t b ht => simpa using gather_fuses ht

@[simp] theorem leavesFuses_execToaAuth (d : Datagram) : LeavesFuses s (execToaAuth d s) := by
  unfold execToaAuth
  split
  · simp
  · split
    · simp
    · split
      next t ht => simpa using gather_fuses ht
      next t b ht => split <;> simpa using gather_fuses ht

end

/-! The commands, chapter by chapter. -/

/-- The commands of the matrix engine. -/
theorem leavesFuses_matrix (s : State) :
    (∀ c w, LeavesFuses s (execMxOpen c w s)) ∧ (∀ c, LeavesFuses s (execMxOpenHeldStart c s)) ∧
    (∀ c w, LeavesFuses s (execMxMac c w s)) ∧ (∀ c, LeavesFuses s (execMxeGroupResult c s)) ∧
    (∀ c w, LeavesFuses s (execMxClose c w s)) ∧ (∀ c w, LeavesFuses s (execMxMerge c w s)) ∧
    (∀ c, LeavesFuses s (execMxDrainResume c s)) ∧ (∀ c, LeavesFuses s (execMxDrainDone c s)) := by
  simp only [execMxOpen, execMxOpenHeldStart, execMxMac, execMxeGroupResult, execMxClose, execMxMerge, execMxDrainResume, execMxDrainDone]
  and_intros
  all_goals
    intros
    (repeat' split) <;> simp

/-- The commands of the vector engine. -/
theorem leavesFuses_vector (s : State) :
    (∀ c w, LeavesFuses s (execVxSetvl c w s)) ∧ (∀ c w ecc, LeavesFuses s (execVxLd c w ecc s)) ∧
    (∀ c w, LeavesFuses s (execVxSt c w s)) ∧ (∀ c w, LeavesFuses s (execVxStt c w s)) ∧ (∀ c w, LeavesFuses s (execVxHqpop c w s)) ∧
    (∀ c, LeavesFuses s (execHqpopEntryArrive c s)) ∧ (∀ c w, LeavesFuses s (execVxAdd c w s)) ∧
    (∀ c w, LeavesFuses s (execVxSub c w s)) ∧ (∀ c w, LeavesFuses s (execVxMul c w s)) ∧ (∀ c w, LeavesFuses s (execVxMax c w s)) ∧
    (∀ c w, LeavesFuses s (execVxMin c w s)) ∧ (∀ c w, LeavesFuses s (execVxFma c w s)) ∧ (∀ c w, LeavesFuses s (execVxCvt c w s)) ∧
    (∀ c w, LeavesFuses s (execVxQnt c w s)) ∧ (∀ c w, LeavesFuses s (execVxDqnt c w s)) ∧ (∀ c w, LeavesFuses s (execVxRsum c w s)) ∧
    (∀ c w, LeavesFuses s (execVxRmax c w s)) ∧ (∀ c w, LeavesFuses s (execVxFn c w s)) ∧ (∀ c w, LeavesFuses s (execVxWelf c w s)) ∧
    (∀ c w, LeavesFuses s (execVxWmrg c w s)) ∧ (∀ c w, LeavesFuses s (execVxWred c w s)) ∧ (∀ c w, LeavesFuses s (execVxWfin c w s)) := by
  simp only [execVxSetvl, execVxLd, execVxSt, execVxStt, execVxHqpop, execHqpopEntryArrive, execVxAdd, execVxSub, execVxMul, execVxMax, execVxMin,
    execVxFma, execVxCvt, execVxQnt, execVxDqnt, execVxRsum, execVxRmax, execVxFn, execVxWelf, execVxWmrg, execVxWred, execVxWfin]
  and_intros
  all_goals
    intros
    simp

/-- The commands of the sequencer. -/
theorem leavesFuses_sequencer (s : State) :
    (∀ c w, LeavesFuses s (execSqSegment c w s)) ∧ (∀ c, LeavesFuses s (execSegmentBoundary c s)) ∧
    (∀ c w, LeavesFuses s (execSqWait c w s)) ∧ (∀ c, LeavesFuses s (execSqWaitRelease c s)) ∧
    (∀ c w, LeavesFuses s (execSqWaitg c w s)) ∧ (∀ c, LeavesFuses s (execWaitgPoll c s)) ∧ (∀ c w, LeavesFuses s (execSqSignal c w s)) ∧
    (∀ c, LeavesFuses s (execSignalGateAdd c s)) ∧ (∀ c w, LeavesFuses s (execSqBar c w s)) ∧
    (∀ b, LeavesFuses s (execBarrierArrival b s)) ∧ (∀ c w, LeavesFuses s (execSqFlagrd c w s)) ∧
    (∀ c, LeavesFuses s (execFlagrdRead c s)) ∧ (∀ c w, LeavesFuses s (execSqFlagclr c w s)) ∧
    (∀ c coset, LeavesFuses s (execFlagclrClear c coset s)) ∧ (∀ c w, LeavesFuses s (execSqLoop c w s)) ∧
    (∀ c w, LeavesFuses s (execSqEndloop c w s)) ∧ (∀ c w, LeavesFuses s (execSqEnd c w s)) ∧
    (∀ c, LeavesFuses s (execSqEndComplete c s)) ∧ (∀ c, LeavesFuses s (execStall c s)) ∧ LeavesFuses s (execImageFaulted s) := by
  simp only [execSqSegment, execSegmentBoundary, execSqWaitRelease, execSqWaitg, execWaitgPoll, execSqSignal, execSignalGateAdd, execSqBar,
    execBarrierArrival, execSqFlagrd, execFlagrdRead, execSqFlagclr, execFlagclrClear, execSqLoop, execSqEndloop, execSqEnd,
    execSqEndComplete, execStall, execImageFaulted]
  and_intros
  all_goals
    intros
    (repeat' split) <;> simp

/-- The commands of the stream engine. -/
theorem leavesFuses_stream (s : State) :
    (∀ c w, LeavesFuses s (execStIssue c w s)) ∧ (∀ c, LeavesFuses s (execStreamSlotTake c s)) ∧
    (∀ c, LeavesFuses s (execSteGrant c s)) ∧ (∀ c k, LeavesFuses s (execSteResponse c k s)) ∧
    (∀ c slot, LeavesFuses s (execStreamRetire c slot s)) ∧ (∀ c, LeavesFuses s (execGateSignalSend c s)) ∧
    (∀ p, LeavesFuses s (execReelPacketLand p s)) ∧ (∀ p, LeavesFuses s (execReelHold p s)) := by
  simp only [execStIssue, execStreamSlotTake, execSteGrant, execSteResponse, execStreamRetire, execGateSignalSend, execReelPacketLand,
    execReelHold]
  and_intros
  all_goals
    intros
    (repeat' split) <;> simp

/-- The commands of the schedule image. -/
theorem leavesFuses_schedule (s : State) :
    LeavesFuses s (execLoadComplete s) ∧ LeavesFuses s (execStopComplete s) := by
  simp only [execLoadComplete, execStopComplete]
  and_intros
  all_goals
    (repeat' split) <;> simp

/-- The commands of the function tables, flags and control windows. -/
theorem leavesFuses_window (s : State) :
    (∀ c v, LeavesFuses s (execFnLoad c v s)) ∧ (∀ c, LeavesFuses s (execFnCheckDone c s)) ∧
    (∀ u v coset, LeavesFuses s (execNumflagsWindowClear u v coset s)) ∧ (∀ c v, LeavesFuses s (execMxeCfgStore c v s)) ∧
    (∀ c v, LeavesFuses s (execCoreClkenStore c v s)) ∧ (∀ cpu off width v, LeavesFuses s (execControlWindowWrite cpu off width v s)) := by
  simp only [execFnLoad, execFnCheckDone, execNumflagsWindowClear, execMxeCfgStore, execCoreClkenStore]
  and_intros
  all_goals
    intros
    (repeat' split) <;> simp

/-- The commands of the device memory and scratchpads. -/
theorem leavesFuses_memory (s : State) :
    (∀ b, LeavesFuses s (execBandChangeDone b s)) ∧ (∀ r, LeavesFuses s (execMscClean r s)) ∧ (∀ r, LeavesFuses s (execMscFlush r s)) ∧
    (∀ r, LeavesFuses s (execMscDrop r s)) ∧ (∀ r, LeavesFuses s (execMscUnkeep r s)) ∧ (∀ r, LeavesFuses s (execMscOpDone r s)) ∧
    (∀ r ecc, LeavesFuses s (execMscRequest r ecc s)) ∧ (∀ r pc bank, LeavesFuses s (execHbmAdmit r pc bank s)) ∧
    (∀ r k err, LeavesFuses s (execHbmRequestComplete r k err s)) ∧ (∀ r, LeavesFuses s (execHbmRefresh r s)) ∧
    (∀ r err, LeavesFuses s (execHbmScrub r err s)) ∧ (∀ c word ecc, LeavesFuses s (execSpadScrub c word ecc s)) ∧
    (∀ r mdeg, LeavesFuses s (execStackTempSample r mdeg s)) := by
  simp only [execBandChangeDone, execMscClean, execMscFlush, execMscDrop, execMscUnkeep, execMscOpDone, execMscRequest, execHbmAdmit,
    execHbmRequestComplete, execHbmRefresh, execHbmScrub, execSpadScrub, execStackTempSample]
  and_intros
  all_goals
    intros
    (repeat' split) <;> simp

/-- The commands of the die-to-die ports and links. -/
theorem leavesFuses_link (s : State) :
    (∀ a, LeavesFuses s (execD2dTrained a s)) ∧ (∀ a flit, LeavesFuses s (execD2dFlitReceive a flit s)) ∧
    (∀ a seq, LeavesFuses s (execD2dReplayRequest a seq s)) ∧ (∀ a, LeavesFuses s (execD2dReplayTimeout a s)) ∧
    (∀ p, LeavesFuses s (execFrameTransmit p s)) ∧ (∀ p f obs, LeavesFuses s (execFrameReceive p f obs s)) ∧
    (∀ p, LeavesFuses s (execKeepaliveSend p s)) ∧ (∀ p m, LeavesFuses s (execKeepalive p m s)) ∧
    (∀ p, LeavesFuses s (execKeepaliveTimeout p s)) ∧ (∀ p lanes, LeavesFuses s (execLaneSignalLoss p lanes s)) ∧
    (∀ p, LeavesFuses s (execWaltzRetry p s)) ∧ (∀ p rates failed delay, LeavesFuses s (execLaneTrainingDone p rates failed delay s)) ∧
    (∀ p, LeavesFuses s (execWaltzStepTimeout p s)) := by
  simp only [execD2dTrained, execD2dFlitReceive, execD2dReplayRequest, execD2dReplayTimeout, execFrameTransmit, execFrameReceive,
    execKeepaliveSend, execKeepalive, execKeepaliveTimeout, execLaneSignalLoss, execWaltzRetry, execLaneTrainingDone,
    execWaltzStepTimeout]
  and_intros
  all_goals
    intros
    (repeat' split) <;> simp

/-- The commands of the handshake of a link and the control of a port. -/
theorem leavesFuses_handshake (s : State) :
    (∀ p m, LeavesFuses s (execHello p m s)) ∧ (∀ p m, LeavesFuses s (execAttest p m s)) ∧ (∀ p m, LeavesFuses s (execKemek p m s)) ∧
    (∀ p m, LeavesFuses s (execKemct p m s)) ∧ (∀ p m, LeavesFuses s (execCaps p m s)) ∧ (∀ p m, LeavesFuses s (execVerdict p m s)) ∧
    (∀ p m, LeavesFuses s (execLinkmsgReserved p m s)) := by
  simp only [execHello, execVerdict, execLinkmsgReserved]
  and_intros
  all_goals
    intros
    (repeat' split) <;> simp

/-- The commands of the fabric. -/
theorem leavesFuses_packet (s : State) :
    (∀ p pk, LeavesFuses s (execPktStop p pk s)) ∧ (∀ p pk, LeavesFuses s (execFenceLoss p pk s)) ∧
    (∀ p pk, LeavesFuses s (execFenceSeal p pk s)) ∧ (∀ p pk, LeavesFuses s (execRecoverResume p pk s)) ∧
    (∀ p pk, LeavesFuses s (execPktObjrsp p pk s)) ∧ (∀ p pk, LeavesFuses s (execPktRead p pk s)) ∧
    (∀ p pk, LeavesFuses s (execPktWrite p pk s)) ∧ (∀ p pk, LeavesFuses s (execPktAdd p pk s)) ∧
    (∀ p pk, LeavesFuses s (execPktData p pk s)) ∧ (∀ p pk, LeavesFuses s (execPktAck p pk s)) ∧
    (∀ p pk, LeavesFuses s (execPktErr p pk s)) ∧ (∀ p pk, LeavesFuses s (execPktReel p pk s)) ∧
    (∀ p pk, LeavesFuses s (execPktColl p pk s)) ∧ (∀ stream, LeavesFuses s (execPacketCloseTimer stream s)) := by
  simp only [execPktStop, execFenceLoss, execFenceSeal, execRecoverResume, execPktObjrsp, execPktRead, execPktWrite, execPktAdd, execPktData,
    execPktAck, execPktErr, execPacketCloseTimer]
  and_intros
  all_goals
    intros
    (repeat' split) <;> simp

/-- The commands of the collectives and the training support. -/
theorem leavesFuses_training (s : State) :
    (∀ h v, LeavesFuses s (execCollLoad h v s)) ∧ (∀ h, LeavesFuses s (execCollStartGate h s)) ∧
    (∀ h, LeavesFuses s (execCollDescriptorDone h s)) ∧ LeavesFuses s (execOptPrepareDone s) := by
  simp only [execCollLoad, execCollStartGate, execCollDescriptorDone, execOptPrepareDone]
  and_intros
  all_goals
    intros
    (repeat' split) <;> simp

/-- The commands of the Husk. -/
theorem leavesFuses_husk (s : State) :
    LeavesFuses s (execHuskMapLoadDone s) ∧ LeavesFuses s (execHuskInitDone s) ∧ LeavesFuses s (execHuskOpenDone s) ∧
    (∀ h, LeavesFuses s (execHuskTrailerPoll h s)) ∧ LeavesFuses s (execHuskFoldDone s) ∧ LeavesFuses s (execHuskApplyDone s) ∧
    LeavesFuses s (execRecoverySettleExpire s) ∧ LeavesFuses s (execHuskRestoreDone s) ∧ LeavesFuses s (execHuskRebuildDone s) ∧
    LeavesFuses s (execHuskFlushDone s) := by
  simp only [execHuskMapLoadDone, execHuskInitDone, execHuskOpenDone, execHuskTrailerPoll, execHuskFoldDone, execHuskApplyDone,
    execRecoverySettleExpire, execHuskRestoreDone, execHuskRebuildDone, execHuskFlushDone]
  and_intros
  all_goals
    intros
    (repeat' split) <;> simp

/-- The commands of the clocks. -/
theorem leavesFuses_clock (s : State) :
    LeavesFuses s (execIoscTrim s) ∧ LeavesFuses s (execPllFirstLock s) ∧ LeavesFuses s (execXtalQualify s) ∧
    LeavesFuses s (execRackrefQualify s) ∧
    (∀ src ref count detect xtalIn3 ioscIn3, LeavesFuses s (execClockWindow src ref count detect xtalIn3 ioscIn3 s)) ∧
    LeavesFuses s (execRefEdgesMissing s) ∧ LeavesFuses s (execPllRelock s) ∧ LeavesFuses s (execPllUnlock s) ∧
    (∀ us, LeavesFuses s (execPllLockReturn us s)) ∧ (∀ d, LeavesFuses s (execLevelRequest d s)) ∧
    (∀ d, LeavesFuses s (execRailSetpointReached d s)) := by
  simp only [execIoscTrim, execPllFirstLock, execXtalQualify, execRackrefQualify, execClockWindow, execRefEdgesMissing, execPllRelock,
    execPllUnlock, execPllLockReturn, execLevelRequest, execRailSetpointReached]
  and_intros
  all_goals
    intros
    (repeat' split) <;> simp

/-- The commands of the power and temperature. -/
theorem leavesFuses_power (s : State) :
    (∀ mv, LeavesFuses s (execVinSample mv s)) ∧ LeavesFuses s (execShedStageLeave s) ∧ (∀ d mv, LeavesFuses s (execRailSample d mv s)) ∧
    (∀ mw, LeavesFuses s (execPowerSample mw s)) ∧ (∀ sensors, LeavesFuses s (execDieTempSample sensors s)) ∧
    LeavesFuses s (execSafeStateEntry s) := by
  simp only [execVinSample, execShedStageLeave, execRailSample, execPowerSample, execDieTempSample, execSafeStateEntry]
  and_intros
  all_goals
    intros
    (repeat' split) <;> simp

/-- The commands of the management sessions. -/
theorem leavesFuses_session (s : State) :
    (∀ d, LeavesFuses s (execToaHello d s)) ∧ (∀ d, LeavesFuses s (execToaAuth d s)) ∧ (∀ d, LeavesFuses s (execToaRead d s)) ∧
    (∀ d, LeavesFuses s (execToaSubscribe d s)) ∧ (∀ d, LeavesFuses s (execToaEvack d s)) ∧ (∀ d, LeavesFuses s (execToaPing d s)) ∧
    (∀ d, LeavesFuses s (execToaClose d s)) ∧ (∀ session, LeavesFuses s (execEventSend session s)) ∧
    (∀ session seq, LeavesFuses s (execEventResend session seq s)) ∧ (∀ session, LeavesFuses s (execAuthTimeout session s)) ∧
    (∀ session seq, LeavesFuses s (execReassemblyTimeout session seq s)) ∧ (∀ session, LeavesFuses s (execSessionIdleTimeout session s)) := by
  simp only [execToaRead, execToaSubscribe, execToaEvack, execToaPing, execToaClose, execEventSend, execEventResend, execAuthTimeout,
    execReassemblyTimeout, execSessionIdleTimeout]
  and_intros
  all_goals
    intros
    (repeat' split) <;> simp [apply_ite State.fuses, sessionMsg_leaves, sessionReq_fuses]

/-- The commands of the events, the configuration and the reset. -/
theorem leavesFuses_event (s : State) :
    LeavesFuses s (execEventRaise s) ∧ LeavesFuses s (execEventCommit s) ∧ (∀ ok, LeavesFuses s (execConfigDone ok s)) := by
  simp only [execEventRaise, execEventCommit, execConfigDone]
  and_intros
  all_goals
    intros
    (repeat' split) <;> simp

/-- The commands of the security functions. -/
theorem leavesFuses_security (s : State) :
    LeavesFuses s (execAttestReportReady s) ∧ LeavesFuses s (execDebugExpire s) ∧ (∀ h, LeavesFuses s (execEntropyFail h s)) := by
  simp only [execAttestReportReady, execDebugExpire, execEntropyFail]
  and_intros
  all_goals
    intros
    (repeat' split) <;> simp

/-- The commands of the power-on and the boot. -/
theorem leavesFuses_boot (s : State) :
    LeavesFuses s (execPowerOn s) ∧ LeavesFuses s (execHoldupCharged s) ∧ LeavesFuses s (execResetNAssert s) ∧
    LeavesFuses s (execResetNRelease s) ∧ LeavesFuses s (execFlashExtRelease s) ∧
    (∀ kernelOk, LeavesFuses s (execBootRomStart kernelOk s)) ∧ LeavesFuses s (execFirmwareStart s) ∧
    (∀ rep, LeavesFuses s (execSelftestItem rep s)) ∧ LeavesFuses s (execSelftestTimeout s) := by
  simp only [execPowerOn, execHoldupCharged, execResetNAssert, execResetNRelease, execFlashExtRelease, execBootRomStart, execFirmwareStart,
    execSelftestItem, execSelftestTimeout]
  and_intros
  all_goals
    intros
    (repeat' split) <;> simp

/-- The commands of the black box and the firmware slots, and the module's other signals. -/
theorem leavesFuses_record (s : State) :
    (∀ fail0 fail1, LeavesFuses s (execBlackboxWritten fail0 fail1 s)) ∧ (∀ ok, LeavesFuses s (execFwSlotEraseDone ok s)) ∧
    LeavesFuses s (execInputFallWhileCharging s) ∧ (∀ f, LeavesFuses s (execManagementPortFrame f s)) ∧
    (∀ up, LeavesFuses s (execMgmtBlockLock up s)) ∧ (∀ inlet outlet, LeavesFuses s (execCoolantSample inlet outlet s)) ∧
    (∀ code, LeavesFuses s (execTestAccessPort code s)) ∧ LeavesFuses s (execFlashExtNAssert s) ∧
    (∀ slot ok0 ok1, LeavesFuses s (execBackgroundEraseDone slot ok0 ok1 s)) := by
  simp only [execBlackboxWritten, execFwSlotEraseDone, execInputFallWhileCharging, execManagementPortFrame, execMgmtBlockLock, execCoolantSample,
    execTestAccessPort, execFlashExtNAssert, execBackgroundEraseDone]
  and_intros
  all_goals
    intros
    (repeat' split) <;> simp

/-! Each command by what it can do to the fuses. -/

/-- The outcome is a next state, with the fuses of `s` moved one way at the most. -/
def Fused (s : State) (o : Host.Outcome State Fault Refusal) : Prop := ∃ t, o = .next t ∧ s.fuses.Moves t.fuses

@[simp] theorem fused_next (s t : State) : Fused s (.next t) ↔ s.fuses.Moves t.fuses := by
  simp [Fused]

theorem LeavesFuses.fused {s : State} {o : Host.Outcome State Fault Refusal} (h : LeavesFuses s o) : Fused s o := by
  obtain ⟨t, next, same⟩ := h
  exact ⟨t, next, .inl same⟩

theorem fused_put (s : State) (q : OdReq) (idx sub : Nat) (b : List Byte) : Fused s (.next (s.put q idx sub b)) :=
  ⟨_, rfl, put_moves s q idx sub b⟩

theorem fused_execExpectedPeerWrite (s : State) (q : OdReq) (p : Fin 40) (w : PeerWrite) : Fused s (execExpectedPeerWrite q p w s) := by
  cases w with
  | peer v => exact fused_put ..
  | key b => exact fused_put ..

theorem fused_execFlagClear (s : State) (q : OdReq) (v : Word) (coset : List (FlagUnit × BitVec 4)) :
    Fused s (execFlagClear q v coset s) :=
  ⟨_, rfl, request_moves ⟨fun t => (leavesFuses_actFlagClear t v coset).moves, fun _ _ t => leavesFuses_actFlagClear t v coset⟩ s q 0 _⟩

theorem fused_execFwSlotData (s : State) (q : OdReq) (b : List Byte) (ok : Bool) : Fused s (execFwSlotData q b ok s) :=
  ⟨_, rfl, request_moves ⟨fun t => (leavesFuses_actFwSlotData t b ok).moves, fun _ _ t => leavesFuses_actFwSlotData t b ok⟩ s q 0 b⟩

/-- A control core's load reads objects; its store may write one (R415). -/
theorem fused_window (s : State) :
    (∀ cpu off width, Fused s (execOdWindowLoad cpu off width s)) ∧ (∀ cpu off width v, Fused s (execOdWindowStore cpu off width v s)) ∧
    (∀ cpu v, Fused s (execWindowCommit cpu v s)) ∧
    (∀ cpu a off width v ecc err, Fused s (execControlCoreAccess cpu a off width v ecc err s)) := by
  unfold execOdWindowLoad execOdWindowStore execWindowCommit execControlCoreAccess
  and_intros
  all_goals
    intros
    (repeat' split) <;> simp

theorem fused_execToaWrite (s : State) (d : Datagram) : Fused s (execToaWrite d s) := by
  refine ⟨_, rfl, sessionMsg_fuses (P := s.fuses.Moves) (.refl _) (fun t x b ht => ?_) d 0x11⟩
  exact ht ▸ sessionReq_moves t x d true b

theorem fused_execPktObjreq (s : State) (p : Fin 40) (pk : Packet) : Fused s (execPktObjreq p pk s) := by
  refine ⟨_, rfl, pktServe_fuses (P := s.fuses.Moves) (.refl _) p pk [0x04] fun q t ht => ?_⟩
  exact fmAccept_fuses (by rw [ht]; exact .refl _) q fun u hu => (hu.trans ht) ▸ serveObj_moves u q

/-- Every command moves the fuses one way at the most: a write of an object, or a service of one, may burn some; no other command does. -/
theorem fused_exec (i : Instr) (s : State) : Fused s (exec i s) := by
  cases i
  case loadSchedule | startSchedule | stopSchedule | placeEpochAdvance | hbmBandSet | portEnable | portDisable | portRetrain | sliceSet |
      sliceStop | optPrepare | optCommit | trainStepSet | huskMapLoad | huskInit | huskOpen | huskFold | huskSeal | huskRestore |
      huskRebuild | huskDeclareLost | huskResume | actionLogAppend | clockReselect | regionClkenWrite | hubClkenWrite |
      ctlCoreEnableWrite | clockOutSelWrite | odWrite | eventPost | configSave | configErase | deviceReset | attestNonce | svnRaise |
      ownerCommit | jobKey | jobRelease | jobImageListWrite | debugUnlock | debugLock | blackBoxWrite | blackBoxSelect | fwSlotErase |
      fwActivate =>
    exact fused_put ..
  case expectedPeerWrite => exact fused_execExpectedPeerWrite ..
  case flagClear => exact fused_execFlagClear ..
  case fwSlotData => exact fused_execFwSlotData ..
  case odWindowLoad | odWindowStore | windowCommit | controlCoreAccess =>
    obtain ⟨load, store, commit, access⟩ := fused_window s
    simp only [exec, load, store, commit, access]
  case toaWrite => exact fused_execToaWrite ..
  case pktObjreq => exact fused_execPktObjreq ..
  all_goals
    refine LeavesFuses.fused ?_
    simp only [exec, leavesFuses_matrix, leavesFuses_vector, leavesFuses_sequencer, leavesFuses_stream, leavesFuses_schedule,
      leavesFuses_window, leavesFuses_memory, leavesFuses_link, leavesFuses_handshake, leavesFuses_packet, leavesFuses_training,
      leavesFuses_husk, leavesFuses_clock, leavesFuses_power, leavesFuses_session, leavesFuses_event, leavesFuses_security,
      leavesFuses_boot, leavesFuses_record]

/-- Settles O57: a tick of the time base burns nothing, and every command is `fused_exec`. -/
theorem fusesMoveOneWay : Obligations.FusesMoveOneWay := by
  intro s t h
  unfold step at h
  split at h
  next =>
    obtain rfl := Host.Outcome.next.inj h
    exact .inl (State.timeTick_keeps s).2
  next i rest _ =>
    obtain ⟨u, next, moves⟩ := fused_exec i { s with pending := rest }
    obtain rfl := Host.Outcome.next.inj (h.symm.trans next)
    exact moves

/-- Each move of the fuses keeps them legal: a burn while fewer than four slots are burnt, and a release of the last slot burnt, once (R449). -/
theorem FuseSt.Moves.legal {f g : FuseSt} (h : f.Moves g) (legal : f.Legal) : g.Legal := by
  obtain ⟨few, nodup, burnt⟩ := legal
  rcases h with rfl | ⟨room, d, rfl⟩ | ⟨some_, unreleased, rfl⟩ | ⟨n, -, rfl⟩
  · exact ⟨few, nodup, burnt⟩
  · refine ⟨by simpa [FuseSt.burn] using room, nodup, fun r hr => ?_⟩
    simpa [FuseSt.burn] using Nat.lt_succ_of_lt (burnt r hr)
  · have last : f.slots.length - 1 < f.slots.length := Nat.sub_one_lt (by simpa using some_)
    refine ⟨few, List.nodup_append.mpr ⟨nodup, List.nodup_singleton _, fun a ha b hb => ?_⟩, fun r hr => ?_⟩
    · obtain rfl := List.mem_singleton.mp hb
      exact fun same => unreleased (same ▸ ha)
    · rcases List.mem_append.mp hr with old | new
      · exact burnt r old
      · exact List.mem_singleton.mp new ▸ last
  · exact ⟨few, nodup, burnt⟩

/-- Settles O58: each move that O57 allows keeps the fuses legal. -/
theorem fusesStayLegal : Obligations.FusesStayLegal := fun s t h => (fusesMoveOneWay s t h).legal

end Sys2Proof.Machine

/-! SUPPORT. The command that writes one object (R412): when its write is refused, and what an accepted one does. -/

namespace Sys2Proof.Machine

/-- The object `o` alone has its index, may be written at sub-index `sub` with the bytes `b`, and the action log takes no note of it
(R376, R412). -/
structure Obj.Takes (o : Obj) (sub : Nat) (b : List Byte) : Prop where
  object : objectsAt o.idx = [o]
  sub : o.lo ≤ sub ∧ sub ≤ o.hi
  unbanked : banked o.idx = false
  writable : o.acc ≠ .ro
  fits : o.ty.fits b.length = true
  unlogged : loggedObj o.idx (decide (o.acc = .act)) = false

/-- The command writes the bytes `b` to sub-index `sub` of the object `o`, which does `act`. -/
structure WritesObject (i : Instr) (q : OdReq) (o : Obj) (sub : Nat) (b : List Byte) (act : State → Act) : Prop where
  takes : o.Takes sub b
  runs : ∀ s, exec i s = .next (s.request q o.idx sub b act)

/-- A command that is the write of its object by the index. -/
theorem writesObject_of_put {i : Instr} {q : OdReq} {o : Obj} {sub : Nat} {b : List Byte} {act : State → Act} (takes : o.Takes sub b)
    (runs : ∀ s, exec i s = .next (s.put q o.idx sub b)) (does : ∀ t : State, t.objAct q.cpu o.idx sub b = act t) :
    WritesObject i q o sub b act := by
  refine ⟨takes, fun s => ?_⟩
  rw [runs, State.put]
  simp only [does]

@[simp] theorem noteAct_noteAct (s : State) (acc : OAcc) (idx sub m n : Nat) :
    (s.noteAct acc idx sub m).noteAct acc idx sub n = s.noteAct acc idx sub n := by
  unfold State.noteAct
  split <;> simp

/-- A module that a request reaches has no reset waiting for its record (R428). -/
theorem State.admits.resetWait {s : State} {q : OdReq} {idx : Nat} {b : List Byte} (h : s.admits q idx b) : s.boot.resetWait = none := by
  obtain ⟨answers, -, -⟩ := h
  simp only [State.odAnswers, Bool.and_eq_true, Option.isNone_iff_eq_none] at answers
  exact answers.2

namespace WritesObject

variable {i : Instr} {q : OdReq} {o : Obj} {sub : Nat} {b : List Byte} {act : State → Act} (w : WritesObject i q o sub b act)
  {s : State} (h : s.admits q o.idx b)
include w h

/-- The outcome of an admitted write: INVALID, STATE, or its effect, on the state that has noted the write (R412). -/
theorem exec_eq : exec i s = .next (
    let s0 := s.noteAct o.acc o.idx sub 0
    if (act s0).inv then (((act s0).rej.getD s0).noteAct o.acc o.idx sub 3).answer q 3
    else if (act s0).bad then (((act s0).rej.getD s0).noteAct o.acc o.idx sub 2).answer q 2
    else (act s0).eff.answer q 0) := by
  obtain ⟨⟨object, ⟨lo, hi⟩, unbanked, writable, fits, unlogged⟩, runs⟩ := w
  rw [runs, request_cases act h (by simp [object]) unbanked (objOf_of_single object lo hi) writable fits]
  simp [unlogged]

theorem acts {P : State → Prop} (hinv : (act (s.noteAct o.acc o.idx sub 0)).inv = false)
    (hbad : (act (s.noteAct o.acc o.idx sub 0)).bad = false) (hP : P (act (s.noteAct o.acc o.idx sub 0)).eff) : Acts i q s P :=
  ⟨_, by rw [w.exec_eq h]; simp only [hinv, hbad]; rfl, _, rfl, hP⟩

theorem invalid (hinv : (act (s.noteAct o.acc o.idx sub 0)).inv = true) (hrej : (act (s.noteAct o.acc o.idx sub 0)).rej = none) :
    Gives i s (fun t => t = (s.noteAct o.acc o.idx sub 3).answer q 3) :=
  ⟨_, by rw [w.exec_eq h], by simp [hinv, hrej]⟩

theorem refused (hinv : (act (s.noteAct o.acc o.idx sub 0)).inv = false) (hbad : (act (s.noteAct o.acc o.idx sub 0)).bad = true)
    (hrej : (act (s.noteAct o.acc o.idx sub 0)).rej = none) : Gives i s (fun t => t = (s.noteAct o.acc o.idx sub 2).answer q 2) :=
  ⟨_, by rw [w.exec_eq h], by simp [hinv, hbad, hrej]⟩

end WritesObject

/-- The value of a one-byte object is the byte written. -/
theorem ofLe_leBytes1 (v : BitVec 8) : ofLe (leBytes 1 v.toNat) = v.toNat := by
  rw [ofLe_leBytes]
  exact Nat.mod_eq_of_lt v.isLt

end Sys2Proof.Machine

/-! SUPPORT. Resets from inside the device wait for their record (R461, R466, R485), and the settlement of O48. -/

namespace Sys2Proof.Machine

section
variable (q : OdReq) (v : BitVec 8)

theorem writes_deviceReset : WritesObject (.deviceReset q v) q ⟨0x0202, 0, 0, .u8, .act⟩ 0 (leBytes 1 v.toNat) (actDeviceReset · v.toNat) :=
  writesObject_of_put ⟨by decide, by decide, rfl, nofun, rfl, by decide⟩ (fun _ => rfl)
    (fun t => congrArg (actDeviceReset t) (ofLe_leBytes1 v))

theorem writes_debugLock : WritesObject (.debugLock q v) q ⟨0x0C34, 0, 0, .u8, .act⟩ 0 (leBytes 1 v.toNat) actDebugLock :=
  writesObject_of_put ⟨by decide, by decide, rfl, nofun, rfl, by decide⟩ (fun _ => rfl) (fun _ => rfl)

end

/-- A reset that finds no other waiting begins a record with cause RESET, and waits for it (R466, R485). -/
theorem resetBegin_waits {s : State} (hwait : s.boot.resetWait = none) (hfen : (s.hub 0).fenced = false) (hbox : s.box.writing = none)
    (cause : Nat) : s.resetBegin cause = { s with
      boot := { s.boot with resetWait := some cause }, box := { s.box with writing := some (5, s.boxBytes 5 s.box.next) } } := by
  simp [State.resetBegin, State.boxRecord, State.boxBegin, hwait, hfen, hbox]

/-- With the north hub fenced no record can be written, and the reset acts at once (R17, R466). -/
theorem resetBegin_fenced {s : State} (hwait : s.boot.resetWait = none) (hfen : (s.hub 0).fenced = true) (cause : Nat) :
    s.resetBegin cause = s.cold .on cause := by
  simp [State.resetBegin, hwait, hfen]

/-- Settles O48, by what `State.resetBegin` does with and without the north hub. -/
theorem resetsWaitForTheirRecord : Obligations.ResetsWaitForTheirRecord := by
  refine ⟨fun q v s h => ⟨?reset, ?fenced, ?invalid⟩, fun q v s h hfen hbox => ?lock, fun s hup hopen => ⟨?early, ?expired⟩⟩
  case reset =>
    rintro rfl hfen hbox
    exact (writes_deviceReset q 0xA5).acts h rfl rfl (resetBegin_waits (s := s.noteAct .act 0x0202 0 0) h.resetWait hfen hbox 2)
  case fenced =>
    rintro rfl hfen
    exact (writes_deviceReset q 0xA5).acts h rfl rfl (resetBegin_fenced (s := s.noteAct .act 0x0202 0 0) h.resetWait hfen 2)
  case invalid =>
    intro hv
    refine (writes_deviceReset q v).invalid h (decide_eq_true fun e => hv ?_) rfl
    exact BitVec.eq_of_toNat_eq e
  case lock => exact (writes_debugLock q v).acts h rfl rfl (resetBegin_waits (s := s.noteAct .act 0x0C34 0 0) h.resetWait hfen hbox 3)
  case early =>
    intro hlt
    exact ⟨_, rfl, by simp [Nat.not_le.mpr hlt]⟩
  case expired =>
    intro hle hwait hfen hbox
    exact ⟨_, rfl, by simp [hup, hopen, hle, resetBegin_waits hwait hfen hbox 3]⟩

end Sys2Proof.Machine

/-! SUPPORT. Ports that go DOWN while no neighbour is lost (R279, R384, R388, R451, R461): what else of the module changes. -/

namespace Sys2Proof.Machine

/-- The ports of a list are DOWN and the others keep their states; the traffic of the ports that left UP has stopped, an image that ran
may have, and the TSC may be aligned no more. -/
structure Downed (s t : State) (ps : List Nat) : Prop where
  frame : t = { s with
    life := t.life, lifeSince := t.lifeSince, cores := t.cores, bars := t.bars, sched := t.sched, mem := t.mem, ports := t.ports, hubs := t.hubs,
    landings := t.landings, fab := t.fab, log := t.log, husk := t.husk, align := t.align, freeCtr := t.freeCtr }
  port : ∀ d, (t.port d).st = if d ∈ ps then 1 else (s.port d).st
  image : t.sched.st = s.sched.st ∨ (s.sched.st = 3 ∧ t.sched.st = 5)

theorem PortSt.QueuesOnly.st {q r : PortSt} (h : q.QueuesOnly r) : r.st = q.st := by
  unfold PortSt.QueuesOnly at h
  rw [h]

theorem WorkOnly.downed {s t : State} (h : WorkOnly s t) : Downed s t [] :=
  ⟨by rw [h.frame], fun d => by simpa using (h.port d).st, h.image⟩

theorem Downed.trans {s t u : State} {ps qs : List Nat} (h : Downed s t ps) (g : Downed t u qs) : Downed s u (ps ++ qs) := by
  refine ⟨by rw [g.frame, h.frame], fun d => ?_, ?_⟩
  · rw [g.port, h.port]
    by_cases hp : d ∈ ps <;> by_cases hq : d ∈ qs <;> simp [hp, hq]
  · have first := h.image
    have second := g.image
    omega

theorem unalign_frame (s : State) (cause : Nat) : s.unalign cause = { s with
    align := { s.align with aligned := false, good := 0 }, log := (s.unalign cause).log } := by
  unfold State.unalign
  extract_lets _ s1
  split
  · obtain ⟨g, posted⟩ := post_eq s1 0x0304 1 0x604 [cause]
    rw [posted]
  · rfl

theorem downed_unalign (s : State) (cause : Nat) : Downed s (s.unalign cause) [] := by
  rw [unalign_frame]
  exact ⟨rfl, fun d => by simp [State.port], .inl rfl⟩

/-- A port that is set DOWN once its traffic has stopped. -/
theorem downed_updPort {s t : State} {p : Nat} {f g : PortSt → PortSt} (h : WorkOnly (s.updPort p f) t) (hg : ∀ q, (g q).st = 1) :
    Downed s (t.updPort p g) [p] := by
  refine ⟨congrArg (fun u : State => { u with ports := (t.updPort p g).ports }) h.downed.frame, fun d => ?_, h.image⟩
  by_cases hd : d = p
  · simp [hd, hg]
  · rw [port_updPort_of_ne t hd, (h.port d).st, port_updPort_of_ne s hd]
    simp [hd]

/-- A port that goes DOWN for another cause than the loss of its signal or its peer (R279, R365). -/
theorem downed_portDown (s : State) (p : Nat) {cause : Nat} (h1 : cause ≠ 1) (h2 : cause ≠ 2) : Downed s (s.portDown p cause) [p] := by
  unfold State.portDown
  extract_lets old s1 s2 s3 s4
  have down : Downed s s2 [p] := by
    unfold s2 s1
    split
    · exact downed_updPort (leaveUp_work s p cause false) fun _ => rfl
    · refine ⟨rfl, fun d => ?_, .inl rfl⟩
      by_cases hd : d = p <;> simp [hd]
  have unaligned : Downed s s3 [p] := by
    unfold s3
    split
    · exact down.trans (downed_unalign s2 2)
    · exact down
  have unchecked : s4 = s3 := if_neg (by omega)
  rw [unchecked]
  exact unaligned.trans (WorkOnly.refl s3).lifeRefresh.downed

theorem downed_forEach (s : State) (ps : List Nat) {cause : Nat} (h1 : cause ≠ 1) (h2 : cause ≠ 2) :
    Downed s (s.forEach ps (fun s p => s.portDown p cause)) ps := by
  induction ps generalizing s with
  | nil => exact (WorkOnly.refl s).downed
  | cons p ps ih => exact (downed_portDown s p h1 h2).trans (ih (s.portDown p cause))

/-- The ports that `Downed` names, when they are those of a kind. -/
theorem Downed.port_of {s t : State} {f : Nat → Bool} (h : Downed s t (allPorts.filter f)) {p : Nat} (hp : p < 40) (hf : f p = true) :
    (t.port p).st = 1 := by
  rw [h.port, if_pos]
  exact List.mem_filter.mpr ⟨List.mem_range.mpr hp, hf⟩

end Sys2Proof.Machine

/-! SUPPORT. Clock sources (R381 to R387) and the lock of the PLL (R388, R403), and the settlement of O38. -/

namespace Sys2Proof.Machine

/-! The reference. -/

theorem changeRef_frame (s : State) (r : Nat) : s.changeRef r = { s with
    clock := { s.clock with active := r, holdover := true }, align := { s.align with aligned := false, good := 0 },
    log := (s.changeRef r).log } := by
  unfold State.changeRef
  rw [unalign_frame]
  rfl

theorem bestRef_congr {s t : State} (hgood : t.clock.good = s.clock.good) (hmax : t.clock.refMax = s.clock.refMax) : t.bestRef = s.bestRef := by
  simp only [State.bestRef, hgood, hmax]

/-- Below READY a locked PLL is on the best source or a better one than that (R384). -/
theorem moveUp_spec (s : State) : s.moveUp.tsc = s.tsc ∧ s.moveUp.clock.good = s.clock.good ∧
    s.moveUp.clock.refMax = s.clock.refMax ∧ s.moveUp.clock.locked = s.clock.locked ∧ (2 ≤ s.life → s.moveUp = s) ∧ (s.life < 2 → s.clock.locked = true → s.moveUp.clock.active = max s.clock.active s.moveUp.bestRef) := by
  unfold State.moveUp
  split
  next h =>
    obtain ⟨below, locked, behind⟩ := h
    rw [changeRef_frame]
    exact ⟨rfl, rfl, rfl, rfl, fun h => absurd below (by omega), fun _ _ => (Nat.max_eq_right (Nat.le_of_lt behind)).symm⟩
  next h => exact ⟨rfl, rfl, rfl, rfl, fun _ => rfl, fun below locked => (Nat.max_eq_left (by simp_all)).symm⟩

/-- A source that qualifies is good, and the PLL moves up to it below READY (R384). -/
def State.qualified (s : State) (b : BitVec 3) : State := (s.updClock (fun k => { k with good := k.good ||| b })).moveUp

theorem qualified_spec (s : State) (b : BitVec 3) : (s.qualified b).clock.good = s.clock.good ||| b ∧
    (2 ≤ s.life → s.qualified b = { s with clock := { s.clock with good := s.clock.good ||| b } }) ∧
    (s.life < 2 → s.clock.locked = true → (s.qualified b).clock.active = max s.clock.active (s.qualified b).bestRef) := by
  obtain ⟨-, good, -, -, ready, below⟩ := moveUp_spec (s.updClock (fun k => { k with good := k.good ||| b }))
  exact ⟨good, ready, below⟩

/-- The module at its first lock (R385, R403). -/
def State.firstLock (s : State) : State := (({ s with tsc := 0 }).updClock (fun k => { k with locked := true, active := 0 })).moveUp

theorem firstLock_spec (s : State) : s.firstLock.tsc = 0 ∧ s.firstLock.clock.locked = true ∧
    s.firstLock.clock.active = (if s.life < 2 then s.bestRef else 0) ∧ s.firstLock.clock.good = s.clock.good := by
  have first := moveUp_spec (({ s with tsc := 0 }).updClock (fun k => { k with locked := true, active := 0 }))
  obtain ⟨tsc, good, max, locked, ready, below⟩ := first
  refine ⟨tsc, locked, ?_, good⟩
  split
  next h =>
    refine (below h rfl).trans ((Nat.zero_max _).trans ?_)
    exact bestRef_congr (s := s) good max
  next h => exact congrArg (fun u => u.clock.active) (ready (Nat.not_lt.mp h))

/-! The monitors. -/

/-- What one operation of a list keeps, all of them keep. -/
theorem forEach_keeps {α : Type} {P : State → Prop} {s : State} (h : P s) (xs : List α) {f : State → α → State}
    (hf : ∀ u x, P u → P (f u x)) : P (s.forEach xs f) :=
  List.foldlRecOn xs f h (fun u kept x _ => hf u x kept)

theorem nmiAll_frame (s : State) : s.nmiAll = { s with cpus := s.nmiAll.cpus } := by
  unfold State.nmiAll
  refine forEach_keeps (P := fun u => u = { s with cpus := u.cpus }) rfl _ (fun u c kept => ?_)
  split
  · exact congrArg (fun v : State => { v with cpus := u.cpus.upd {} c (fun k => { k with nmi := true }) }) kept
  · exact kept

/-- A crystal that fails is not good and counts from the start; the one in force gives way to the internal oscillator in holdover
(R386, R387). -/
theorem crystalFails_spec (s : State) : (s.sourceFails 1).clock.good.getLsbD 1 = false ∧
    (s.sourceFails 1).clock.failCount = (s.clock.failCount + 1) % 2 ^ 32 ∧ (s.sourceFails 1).clock.xtalRun = 0 ∧
    (s.sourceFails 1).clock.active = (if s.clock.active = 1 then 0 else s.clock.active) ∧
    (s.clock.active = 1 → (s.sourceFails 1).clock.holdover = true ∧ (s.sourceFails 1).align.aligned = false) := by
  have gone : ∀ g : BitVec 3, (g &&& ~~~2#3).getLsbD 1 = false := by decide
  unfold State.sourceFails
  extract_lets was s1 s2
  have clock : s1.clock = { s.clock.anew 1 with
      good := s.clock.good &&& ~~~2#3, failCount := (s.clock.failCount + 1) % 2 ^ 32 } := rfl
  obtain ⟨g, posted⟩ := post_eq s2 0x0301 2 0x600 [1, s2.clock.active]
  rw [posted]
  by_cases h : s.clock.active = 1
  · have fell : s2 = (s1.changeRef 0).nmiAll := by simp [s2, was, h]
    rw [fell, nmiAll_frame, changeRef_frame]
    exact ⟨gone _, rfl, rfl, (if_pos h).symm, fun _ => ⟨rfl, rfl⟩⟩
  · have stays : s2 = s1 := if_neg (Ne.symm h)
    rw [stays]
    exact ⟨gone _, rfl, rfl, (if_neg h).symm, fun hc => absurd hc h⟩

/-! Lock. -/

/-- The module when lock returns (R388). -/
def State.lockReturn (s : State) (us : Nat) : State :=
  let s1 := s.updClock (fun k => { k with locked := true, lost := false, holdover := false, outLow := decide (s.life = 5) })
  let s2 := s1.stopImage 4
  let s3 := s2.forEach (allPorts.filter (fun p => decide (2 ≤ (s2.port p).st))) (fun s p => s.portDown p 5)
  let s4 := (s3.unalign 4).updClock (fun k => { k with unlockCount := (k.unlockCount + 1) % 2 ^ 32 })
  s4.post 0x0302 3 0x601 [us]

theorem exec_pllLockReturn {s : State} (hlost : s.clock.lost = true) (us : Nat) : exec (.pllLockReturn us) s = .next (s.lockReturn us) :=
  if_neg (by simp [hlost])

theorem lockReturn_spec (s : State) (us : Nat) : (s.lockReturn us).clock.locked = true ∧ (s.lockReturn us).clock.lost = false ∧
    (s.lockReturn us).clock.unlockCount = (s.clock.unlockCount + 1) % 2 ^ 32 ∧
    (s.lockReturn us).sched.st = (if s.sched.st = 3 then 5 else s.sched.st) ∧
    ∀ p, p < 40 → 2 ≤ (s.port p).st → ((s.lockReturn us).port p).st = 1 := by
  unfold State.lockReturn
  extract_lets s1 s2 s3 s4
  have stopped : WorkOnly s1 s2 := (WorkOnly.refl s1).stopImage 4
  have down : Downed s2 s3 _ := downed_forEach s2 _ (by decide) (by decide)
  have image : s2.sched.st = if s.sched.st = 3 then 5 else s.sched.st := st_stopImage s1 4
  have clock : s3.clock = s1.clock := by rw [down.frame, stopped.frame]
  obtain ⟨g, posted⟩ := post_eq s4 0x0302 3 0x601 [us]
  have unaligned : s4 = { s3 with
      align := s4.align, log := s4.log, clock := { s1.clock with unlockCount := (s1.clock.unlockCount + 1) % 2 ^ 32 } } := by
    unfold s4
    rw [unalign_frame, State.updClock, clock]
  rw [posted, unaligned]
  refine ⟨rfl, rfl, rfl, ?_, fun p hp hup => ?_⟩
  · have moved := down.image
    show s3.sched.st = _
    split at image <;> split <;> omega
  · refine down.port_of hp (decide_eq_true ?_)
    rw [(stopped.port p).st]
    exact hup

/-! ClockReselect (R384). -/

theorem writes_clockReselect (q : OdReq) (v : BitVec 8) :
    WritesObject (.clockReselect q v) q ⟨0x0302, 0, 0, .u8, .act⟩ 0 (leBytes 1 v.toNat) actClockReselect :=
  writesObject_of_put ⟨by decide, by decide, rfl, nofun, rfl, by decide⟩ (fun _ => rfl) (fun _ => rfl)

theorem clockReselect_spec (s : State) : (actClockReselect s).eff.clock.active = s.bestRef ∧ (actClockReselect s).eff.clock.good = s.clock.good ∧
    ∀ p, p < 40 → (s.port p).st = 2 → ((actClockReselect s).eff.port p).st = 1 := by
  unfold actClockReselect
  extract_lets s1
  have down : Downed s s1 _ := downed_forEach s _ (by decide) (by decide)
  have clock : s1.clock = s.clock := by rw [down.frame]
  have best : s1.bestRef = s.bestRef := bestRef_congr (by rw [clock]) (by rw [clock])
  have ports : ∀ p, p < 40 → (s.port p).st = 2 → (s1.port p).st = 1 := fun p hp h2 => down.port_of hp (decide_eq_true h2)
  dsimp only
  split
  next same => exact ⟨same.symm.trans best, by rw [clock], ports⟩
  next =>
    rw [changeRef_frame]
    have good : s1.clock.good = s.clock.good := by rw [clock]
    exact ⟨best, good, ports⟩

end Sys2Proof.Machine

/-! SUPPORT. The settlement of O38. -/

namespace Sys2Proof.Machine

/-- The windows between two sources (R382, R383, R386), each by its sources and by what is qualified. -/
theorem clockWindows (s : State) (n : Nat) (d x i : Bool) (hp : s.powered = true) :
    exec (.clockWindow .xtal .iosc n d x i) s = .next (
      if s.clock.good.getLsbD 1 = true then (if within n 1024 31 = true then s else s.disagree x i)
      else s.updClock (fun k => k.xtalWindow n)) ∧
    (s.clock.good.getLsbD 1 = true → s.clock.trimmed = true → s.clock.good.getLsbD 0 = false →
      exec (.clockWindow .iosc .xtal n d x i) s = .next (s.updClock (fun k =>
        if within n 1024 31 = false then { k with ioscRun := 0 }
        else if 65536 ≤ k.ioscRun + n then { k with ioscRun := 0, good := k.good ||| 1 } else { k with ioscRun := k.ioscRun + n }))) ∧
    (s.clock.good.getLsbD 1 = true → exec (.clockWindow .rack .xtal n d x i) s = .next (
      if s.clock.good.getLsbD 2 = true then (if within n 3200 32 = true ∧ d = true then s else s.sourceFails 2)
      else s.updClock (fun k => k.rackWindow n d))) := by
  refine ⟨?_, fun h1 ht h0 => ?_, fun h1 => ?_⟩
  · simp only [exec, execClockWindow, hp, Bool.not_true, Bool.false_eq_true, if_false]
    exact (apply_ite Host.Outcome.next _ _ _).symm
  · simp only [exec, execClockWindow, hp, h1, ht, h0, Bool.not_true, Bool.or_self, Bool.false_eq_true, if_false]
    cases within n 1024 31
    · rfl
    · by_cases hrun : 65536 ≤ s.clock.ioscRun + n <;> simp [State.updClock, hrun]
  · simp only [exec, execClockWindow, hp, h1, Bool.not_true, Bool.false_eq_true, if_false, Bool.and_eq_true]
    exact (apply_ite Host.Outcome.next _ _ _).symm

/-- Settles O38: sources by `qualified_spec` and `crystalFails_spec`, the lock by `firstLock_spec` and `lockReturn_spec`. -/
theorem clocksQualifyAndFail : Obligations.ClocksQualifyAndFail := by
  intro s k clock good
  refine ⟨fun hp ht => ?trim, fun hp hl hlost => ?first, fun hp h1 => ?crystal, fun hp h1 h2 => ?rack, fun n d x i hp => ?windows,
    fun q v h hrun hports => ?reselect, fun hl => ?edges, fun hl hg => ?relock, fun hl => ?unlock, fun us hlost => ?back⟩
  case trim => exact ⟨_, congrArg Host.Outcome.next (if_pos (by simp_all [k])), rfl⟩
  case first => exact ⟨_, congrArg Host.Outcome.next (if_pos (by simp_all [k])), firstLock_spec s⟩
  case crystal =>
    refine ⟨fun hrun => ?_, fun hrun => ?_⟩
    · exact ⟨_, congrArg Host.Outcome.next (if_pos (by simp_all [k])), qualified_spec s 2⟩
    · have short : decide (65536 ≤ s.clock.xtalRun + 1055) = false := decide_eq_false (Nat.not_le.mpr hrun)
      exact ⟨_, congrArg Host.Outcome.next (if_neg (by rw [short, Bool.and_false]; nofun)), rfl⟩
  case rack =>
    refine ⟨fun hseen hlong => ?_, fun hnot => ?_⟩
    · exact ⟨_, congrArg Host.Outcome.next (if_pos (by simp_all [k])), qualified_spec s 4⟩
    · refine ⟨_, congrArg Host.Outcome.next (if_neg ?_), rfl⟩
      rcases hnot with unseen | short <;> simp_all [k]
  case windows =>
    obtain ⟨crystal, iosc, rack⟩ := clockWindows s n d x i hp
    have outside : within n 1024 31 = false → ¬ within n 1024 31 = true := fun hw => by rw [hw]; nofun
    refine ⟨fun h1 hw => ⟨_, crystal, ?_⟩, fun h1 hw => ⟨_, crystal, ?_⟩, fun h1 hw h2 => ⟨_, crystal, ?_⟩, fun h1 => ⟨_, crystal, ?_⟩,
      fun h1 ht h0 => ⟨_, iosc h1 ht h0, rfl⟩, fun h1 h2 => ⟨_, rack h1, ?_⟩, fun h1 h2 => ⟨_, rack h1, ?_⟩⟩
    · rw [if_pos h1, if_pos hw]
    · rw [if_pos h1, if_neg (outside hw)]
    · have fails : s.disagree x i = s.sourceFails 1 := if_neg (by rw [h2]; nofun)
      rw [if_pos h1, if_neg (outside hw), fails]
      exact crystalFails_spec s
    · rw [if_neg (by rw [h1]; nofun)]
      rfl
    · rw [if_neg (by rw [h2]; nofun)]
      rfl
    · rw [if_pos h2]
  case reselect =>
    have calm : (actClockReselect (s.noteAct .act 0x0302 0 0)).bad = false := by
      simp only [actClockReselect, Bool.or_eq_false_iff, decide_eq_false_iff_not, List.any_eq_false, decide_eq_true_eq]
      exact ⟨hrun, fun p hp => Nat.not_lt.mpr (hports p (List.mem_range.mp hp))⟩
    exact (writes_clockReselect q v).acts h rfl calm (clockReselect_spec _)
  case edges => exact ⟨_, congrArg Host.Outcome.next (if_pos hl), rfl⟩
  case relock => exact ⟨_, congrArg Host.Outcome.next (if_pos (by simp_all [k])), rfl⟩
  case unlock => exact ⟨_, congrArg Host.Outcome.next (if_pos hl), rfl⟩
  case back => exact ⟨_, exec_pllLockReturn hlost us, lockReturn_spec s us⟩

end Sys2Proof.Machine

/-! SUPPORT. What the work of an image leaves as it is: the enables and the fences of the hubs (R17, R392, R393), the state of the supplies (R395), and the
pauses of the matrix engines (R396, R397). The collective sequencers, the stop of an image, the matrix and the vector engine. -/

namespace Sys2Proof.Machine

/-- What stands whatever an image does. -/
structure Standing where
  clken : Nat → BitVec 16
  cpuEn : Nat → BitVec 8
  fenced : Nat → Bool
  power : PowerSt
  paused : Nat → Bool

def State.standing (s : State) : Standing :=
  { clken := fun n => (s.hub n).clken, cpuEn := fun n => (s.hub n).cpuEn, fenced := fun n => (s.hub n).fenced, power := s.power,
    paused := fun c => (s.core c).mxePaused }

section
variable (s : State)

theorem standing_of_units {s t : State} (hubs : t.hubs = s.hubs) (cores : t.cores = s.cores) (power : t.power = s.power) :
    t.standing = s.standing := by
  simp only [State.standing, State.hub, State.core, hubs, cores, power]

theorem MemOnly.standing {s t : State} (h : MemOnly s t) : t.standing = s.standing :=
  standing_of_units (by rw [h]) h.cores (by rw [h])

theorem FlagsOnly.standing {s t : State} (h : FlagsOnly s t) : t.standing = s.standing := by
  have clken : ∀ n, (t.hub n).clken = (s.hub n).clken := fun n => (congrArg HubSt.clken (h.hub n) :)
  have cpuEn : ∀ n, (t.hub n).cpuEn = (s.hub n).cpuEn := fun n => (congrArg HubSt.cpuEn (h.hub n) :)
  have fenced : ∀ n, (t.hub n).fenced = (s.hub n).fenced := fun n => (congrArg HubSt.fenced (h.hub n) :)
  have paused : ∀ c, (t.core c).mxePaused = (s.core c).mxePaused := fun c => (congrArg CoreSt.mxePaused (h.core c) :)
  have power : t.power = s.power := (congrArg State.power h.frame :)
  simp only [State.standing, clken, cpuEn, fenced, paused, power]

@[simp] theorem standing_forEach {α : Type} (xs : List α) {f : State → α → State} (hf : ∀ u x, (f u x).standing = u.standing) :
    (s.forEach xs f).standing = s.standing :=
  List.foldlRecOn (motive := fun u => u.standing = s.standing) xs f rfl (fun u kept x _ => (hf u x).trans kept)

/-! Units. -/

@[simp] theorem standing_updCore (c : Nat) {f : CoreSt → CoreSt} (hf : ∀ k, (f k).mxePaused = k.mxePaused) :
    (s.updCore c f).standing = s.standing := by
  have paused : ∀ d, ((s.updCore c f).core d).mxePaused = (s.core d).mxePaused := by
    intro d
    by_cases same : d = c <;> simp [same, hf]
  simp only [State.standing, paused]
  rfl

@[simp] theorem standing_updPort (p : Nat) (f : PortSt → PortSt) : (s.updPort p f).standing = s.standing := rfl
@[simp] theorem standing_updRegion (r : Nat) (f : RegionSt → RegionSt) : (s.updRegion r f).standing = s.standing := rfl
@[simp] theorem standing_setFab (x : FabSt) : State.standing { s with fab := x } = s.standing := rfl

/-- A change of a hub that leaves its enables and its fence. -/
theorem standing_updHub (n : Nat) {f : HubSt → HubSt}
    (hf : ∀ k, (f k).clken = k.clken ∧ (f k).cpuEn = k.cpuEn ∧ (f k).fenced = k.fenced) : (s.updHub n f).standing = s.standing := by
  have kept : ∀ d, ((s.updHub n f).hub d).clken = (s.hub d).clken ∧ ((s.updHub n f).hub d).cpuEn = (s.hub d).cpuEn ∧
      ((s.updHub n f).hub d).fenced = (s.hub d).fenced := by
    intro d
    by_cases same : d = n <;> simp [hub_updHub, same, hf]
  have clken := fun d => (kept d).1
  have cpuEn := fun d => (kept d).2.1
  have fenced := fun d => (kept d).2.2
  simp only [State.standing, clken, cpuEn, fenced]
  rfl

@[simp] theorem standing_updColl (n : Nat) (f : CollSt → CollSt) : (s.updColl n f).standing = s.standing :=
  standing_updHub s n fun _ => ⟨rfl, rfl, rfl⟩

@[simp] theorem standing_post (code sev src : Nat) (args : List Nat) : (s.post code sev src args).standing = s.standing :=
  (memOnly_post s code sev src args).standing

@[simp] theorem standing_devRead (o n : Nat) : (s.devRead o n).1.standing = s.standing := (memOnly_devRead s o n).standing

@[simp] theorem standing_devWrite (o : Nat) (bs : List Byte) : (s.devWrite o bs).standing = s.standing := (memOnly_devWrite s o bs).standing

@[simp] theorem standing_flagCycle (u : FlagUnit) (clr set : BitVec 4) : (s.flagCycle u clr set).standing = s.standing :=
  (onlyFlag_flagCycle s u clr set).1.standing

@[simp] theorem standing_raiseFlags (u : FlagUnit) (set : BitVec 4) : (s.raiseFlags u set).standing = s.standing := by
  unfold State.raiseFlags
  split <;> simp

@[simp] theorem standing_flagEnable (u : FlagUnit) : (s.flagEnable u).standing = s.standing := by
  unfold State.flagEnable
  extract_lets p
  split
  · rfl
  · rw [standing_flagCycle, (FlagsOnly.setFlagReg s u _).standing]

/-! The stop of the image (R137). -/

@[simp] theorem standing_lifeRefresh : s.lifeRefresh.standing = s.standing := by
  unfold State.lifeRefresh
  split
  · obtain ⟨n, since, g, moved⟩ := setLife_eq s (if s.sched.st = 3 ∨ s.sched.st = 5 then 4 else if s.joinedCond then 3 else 2)
    rw [moved]
    rfl
  · rfl

@[simp] theorem standing_setSched (n : Nat) : (s.setSched n).standing = s.standing := by
  obtain ⟨m, since, g, moved⟩ := setSched_eq s n
  rw [moved]
  rfl

@[simp] theorem standing_endSegment (c endk : Nat) : (s.endSegment c endk).standing = s.standing := by
  unfold State.endSegment
  extract_lets q n o
  split
  · rfl
  · simp [apply_ite State.standing]

@[simp] theorem standing_haltSeq (fcode c : Nat) : (s.haltSeq fcode c).standing = s.standing := by
  unfold State.haltSeq
  extract_lets q
  split <;> simp

@[simp] theorem standing_steCancel (c : Nat) : (s.steCancel c).standing = s.standing := by
  unfold State.steCancel
  extract_lets s1 gone _ s2 adm
  have withdrawn : s1.standing = s.standing := standing_forEach s _ (fun u r => standing_updRegion u r _)
  clear_value s1
  have forgotten : s2.standing = s1.standing := standing_of_units rfl rfl rfl
  refine (standing_updCore s2 c ?_).trans (forgotten.trans withdrawn)
  exact fun _ => rfl

@[simp] theorem standing_abandonCore (c : Nat) : (s.abandonCore c).standing = s.standing := by
  unfold State.abandonCore
  extract_lets xs s1 s2 s3
  have drained : s1.standing = s.standing := standing_updCore s c fun _ => rfl
  have raised : s2.standing = s1.standing := by
    unfold s2
    split
    · exact standing_raiseFlags s1 _ _
    · rfl
  have left : s3.standing = s2.standing := standing_updCore s2 c fun _ => rfl
  have counted : State.standing { s3 with freeCtr := s.freeCtr + 1 + 16 * 12288 } = s3.standing := standing_of_units rfl rfl rfl
  rw [standing_steCancel, counted, left, raised, drained]

@[simp] theorem standing_freePackets (code : Nat) (ps : List (Nat × Packet)) : (s.freePackets code ps).standing = s.standing :=
  standing_forEach s ps (fun _ _ => rfl)

@[simp] theorem standing_collDo (n : Nat) (f : CollSt → CollSt) : (s.collDo n f).standing = s.standing := by
  simp [State.collDo]

@[simp] theorem standing_collForget (n : Nat) : (s.collForget n).standing = s.standing := rfl

@[simp] theorem standing_haltImage (fcode : Nat) : (s.haltImage fcode).standing = s.standing := by
  unfold State.haltImage
  extract_lets cs s1 s2 _ s3
  have halted : s1.standing = s.standing := standing_forEach s cs (fun u c => standing_haltSeq u fcode c)
  have abandoned : s2.standing = s1.standing := standing_forEach s1 cs (fun u c => standing_abandonCore u c)
  have marked : s3.standing = s2.standing := rfl
  simp [State.collStop, marked, abandoned, halted]

@[simp] theorem standing_stopImage (fcode : Nat) : (s.stopImage fcode).standing = s.standing := by
  unfold State.stopImage
  split <;> simp

/-! Local memory and packets. -/

@[simp] theorem standing_localWrite (w o : Nat) (bs : List Byte) (hint : Nat) : (s.localWrite w o bs hint).1.standing = s.standing := by
  unfold State.localWrite
  split
  · split
    · rfl
    · exact (memOnly_memWrite s w _ bs hint noErr).standing
  · split
    · rfl
    · split
      · exact standing_updCore s _ fun _ => rfl
      · rfl
  · rfl

/-- A read that meets no error in a scratchpad. -/
@[simp] theorem standing_localRead (w o n hint : Nat) : (s.localRead w o n hint []).1.standing = s.standing := by
  unfold State.localRead
  split
  · split
    · rfl
    · extract_lets r
      have read : r.1.standing = s.standing := (memOnly_memRead s w _ n hint noErr).standing
      split <;> exact read
  · split
    · rfl
    · split <;> rfl
  · rfl

@[simp] theorem standing_gateAdd (o n : Nat) : (s.gateAdd o n).standing = s.standing := by
  unfold State.gateAdd State.gateDo
  extract_lets r
  split
  · rfl
  · have read : r.1.standing = s.standing := standing_devRead s o 8
    split <;> simp [read]

@[simp] theorem standing_queueAt (port : Nat) (p : Packet) (entry : Bool) : (s.queueAt port p entry).standing = s.standing := rfl

@[simp] theorem standing_sendPkt (p : Packet) : (s.sendPkt p).1.standing = s.standing := by
  unfold State.sendPkt
  extract_lets code
  (repeat' split) <;> rfl

@[simp] theorem standing_newTxn (o : TxnOwner) (port txn : Nat) : (s.newTxn o port txn).standing = s.standing := rfl

/-! The operations of the sequencer (R312, R318 to R325). -/

@[simp] theorem standing_collFail (n status : Nat) : (s.collFail n status).standing = s.standing := by
  unfold State.collFail
  extract_lets k s1 _ s2
  have counted : s2.standing = s.standing := (standing_of_units (t := s2) (s := s1) rfl rfl rfl).trans (standing_updColl s n _)
  split
  · rfl
  · simp [counted]

@[simp] theorem standing_redFlags (n : Nat) (fl : Flags) : (s.redFlags n fl).standing = s.standing := standing_raiseFlags s _ fl

@[simp] theorem standing_collSend (n step dst f : Nat) (scaled : Bool) (xs : List Nat) :
    (s.collSend n step dst f scaled xs).standing = s.standing := by
  unfold State.collSend
  extract_lets d
  split
  · simp
  · exact standing_forEach s _ (fun u b => standing_queueAt u _ _ _)

@[simp] theorem standing_collRead (n o f len : Nat) : (s.collRead n o f len).1.standing = s.standing := by
  simp [State.collRead]

@[simp] theorem standing_collAdd (n lo : Nat) (vs : List Nat) : (s.collAdd n lo vs).standing = s.standing := by
  simp [State.collAdd]

@[simp] theorem standing_collTake (n lo mode : Nat) (p : Packet) : (s.collTake n lo mode p).standing = s.standing := by
  simp [State.collTake, apply_ite State.standing]

@[simp] theorem standing_moveWrite (n dst off : Nat) (bs : List Byte) : (s.moveWrite n dst off bs).standing = s.standing := by
  simp only [State.moveWrite]
  split <;> simp

@[simp] theorem standing_collMove (n dst src units : Nat) : (s.collMove n dst src units).standing = s.standing := by
  unfold State.collMove
  extract_lets r q
  have read : r.1.standing = s.standing := standing_localRead s _ _ _ _
  split
  · simp [read]
  · split
    · have written : q.1.standing = r.1.standing := standing_localWrite r.1 _ _ _ _
      split <;> simp [read, written]
    · rw [standing_forEach _ _ (fun u i => by split <;> simp), read]

@[simp] theorem standing_collGate (n g : Nat) : (s.collGate n g).standing = s.standing := by
  unfold State.collGate
  split
  · simp
  · dsimp only
    split <;> simp

@[simp] theorem standing_collPop (n : Nat) : (s.collPop n).standing = s.standing := standing_updColl s n _

@[simp] theorem standing_collWrite (n off : Nat) (xs : List Nat) : (s.collWrite n off xs).standing = s.standing := by
  simp only [State.collWrite]
  split <;> simp

@[simp] theorem standing_collMoveOn (n : Nat) : (s.collMoveOn n).1.standing = s.standing := by
  simp only [State.collMoveOn]
  (repeat' split) <;> simp

@[simp] theorem standing_collRun (n fuel : Nat) : (s.collRun n fuel).standing = s.standing := by
  induction fuel generalizing s with
  | zero => rfl
  | succ fuel ih =>
    unfold State.collRun
    extract_lets r
    have moved : r.1.standing = s.standing := standing_collMoveOn s n
    split
    · exact (ih r.1).trans moved
    · exact moved

@[simp] theorem standing_collGo (n : Nat) : (s.collGo n).standing = s.standing := by
  unfold State.collGo
  extract_lets k
  split <;> simp

end

end Sys2Proof.Machine

/-! SUPPORT. The settlement of O39. -/

namespace Sys2Proof.Machine

/-! The objects of the standing and of the clock output (R392, R402). -/

section
variable (q : OdReq)

theorem writes_regionClkEn (r : Fin 24) (v : BitVec 8) : WritesObject (.regionClkenWrite q r v) q ⟨0x0310, 1, 24, .u8, .rw⟩ (r.val + 1)
    (leBytes 1 v.toNat) (fun t => actRegionClkEn t r v.toNat) :=
  writesObject_of_put ⟨by decide, ⟨Nat.le_add_left _ _, r.isLt⟩, rfl, nofun, rfl, by decide⟩ (fun _ => rfl)
    (fun t => congrArg (actRegionClkEn t r) (ofLe_leBytes1 v))

theorem writes_hubClkEn (h : Fin 2) (v : BitVec 16) : WritesObject (.hubClkenWrite q h v) q ⟨0x0311, 1, 2, .u16, .rw⟩ (h.val + 1)
    (leBytes 2 v.toNat) (fun t => actHubClkEn t h v.toNat) :=
  writesObject_of_put ⟨by decide, ⟨Nat.le_add_left _ _, h.isLt⟩, rfl, nofun, rfl, by decide⟩ (fun _ => rfl)
    (fun t => congrArg (actHubClkEn t h) ((ofLe_leBytes 2 _).trans (Nat.mod_eq_of_lt v.isLt)))

theorem writes_ctlCoreEnable (h : Fin 2) (v : BitVec 8) : WritesObject (.ctlCoreEnableWrite q h v) q ⟨0x0312, 1, 2, .u8, .rw⟩ (h.val + 1)
    (leBytes 1 v.toNat) (fun t => actCtlCoreEnable t (q.cpu.map Fin.val) h v.toNat) :=
  writesObject_of_put ⟨by decide, ⟨Nat.le_add_left _ _, h.isLt⟩, rfl, nofun, rfl, by decide⟩ (fun _ => rfl)
    (fun t => congrArg (actCtlCoreEnable t (q.cpu.map Fin.val) h) (ofLe_leBytes1 v))

theorem writes_clockOutSel (v : Word) : WritesObject (.clockOutSelWrite q v) q ⟨0x0306, 0, 0, .u32, .rw⟩ 0 (leBytes 4 v.toNat)
    (actClockOutSel · v) := by
  refine writesObject_of_put ⟨by decide, by decide, rfl, nofun, rfl, by decide⟩ (fun _ => rfl) (fun t => ?_)
  have value : BitVec.ofNat 32 (ofLe (leBytes 4 v.toNat)) = v := by
    rw [ofLe_leBytes, Nat.mod_eq_of_lt (b := 256 ^ 4) v.isLt, BitVec.ofNat_toNat, BitVec.setWidth_eq]
  exact congrArg (actClockOutSel t) value

end

/-! Accepted writes. -/

/-- What an accepted write of HubClkEn does to a hub in use. -/
def State.setHubClkEn (s : State) (h v : Nat) : State :=
  let s1 := s.updHub h (fun k => { k with clken := BitVec.ofNat 16 v })
  let s2 := if v.testBit 0 && !(s.hub h).clken.toNat.testBit 0 then s1.flagEnable (.hub (if h = 0 then 0 else 1)) else s1
  let s3 := if h = 0 ∧ v.testBit 5 = false then { s2 with mgmt := { s2.mgmt with linkUp := false } } else s2
  s3.collGo h

theorem setHubClkEn_spec (s : State) (h v : Nat) : ((s.setHubClkEn h v).hub h).clken = BitVec.ofNat 16 v ∧
    ((s.setHubClkEn h v).hub h).cpuEn = (s.hub h).cpuEn := by
  have enabled : (s.setHubClkEn h v).standing = (s.updHub h (fun k => { k with clken := BitVec.ofNat 16 v })).standing := by
    unfold State.setHubClkEn
    extract_lets s1 s2 _ s3
    have cleared : s2.standing = s1.standing := (apply_ite State.standing _ _ _).trans (by simp)
    have linked : s3.standing = s2.standing := (apply_ite State.standing _ _ _).trans (ite_self _)
    rw [standing_collGo, linked, cleared]
  have clken := congrFun (congrArg Standing.clken enabled) h
  have cpuEn := congrFun (congrArg Standing.cpuEn enabled) h
  simp only [State.standing, hub_updHub, if_pos] at clken cpuEn
  exact ⟨clken, cpuEn⟩

theorem hubClkEn_eff {s : State} {h : Nat} (hfen : (s.hub h).fenced = false) (v : Nat) : (actHubClkEn s h v).eff = s.setHubClkEn h v :=
  if_neg (by rw [hfen]; nofun)

theorem hubClkEn_calm {s : State} {h v : Nat} (hclears : ∀ i, clears (s.hub h).clken.toNat v i = false) : (actHubClkEn s h v).bad = false := by
  simp [actHubClkEn, hclears]

theorem ctlCoreEnable_calm {s : State} {q : OdReq} {h v : Nat} (h0 : clears (s.hub h).cpuEn.toNat v 0 = false)
    (hown : ∀ c, q.cpu = some c → c.val / 8 = h → clears (s.hub h).cpuEn.toNat v (c.val % 8) = false) :
    (actCtlCoreEnable s (q.cpu.map Fin.val) h v).bad = false := by
  simp only [actCtlCoreEnable, h0, Bool.false_and, Bool.false_or]
  cases hc : q.cpu with
  | none => rfl
  | some c =>
    by_cases same : c.val / 8 = h
    · simp [hown c hc same]
    · simp [same]

/-- Settles O39: the levels by the branches of R390, the standing by what refuses them. -/
theorem levelsAndEnables : Obligations.LevelsAndEnables := by
  refine ⟨fun d s hlost => ?levels, fun q s => ⟨fun r v h hle hne hclr => ?region, fun h v hadm hle hsouth hclears hfen => ?hub,
    fun h v hadm h0 hown hfen => ?ctl, fun v h hinv hclk => ?out⟩⟩
  case levels =>
    intro k r sets
    have updated : ∀ f : DieSt → DieSt, sets (f k) (s.updDie d f) := fun f =>
      ⟨rfl, by simp [k], fun e he => by simp [he], rfl⟩
    refine ⟨fun hp => ?_, fun hramp => ?_⟩
    · by_cases same : r = k.target
      · refine ⟨s, ?_, ?_⟩
        · simp [exec, execLevelRequest, r, k] at same ⊢
          simp [same]
        · rw [if_pos same]
          exact ⟨rfl, rfl, fun _ _ => rfl, rfl⟩
      · have goes : (!s.powered || s.clock.lost || decide (r = k.target)) = false := by simp [hp, hlost, same]
        rw [if_neg same]
        by_cases up : k.level ≤ r
        · refine ⟨_, (if_neg (by rw [goes]; nofun)).trans (if_pos up), ?_⟩
          rw [if_pos up]
          exact updated _
        · refine ⟨_, (if_neg (by rw [goes]; nofun)).trans (if_neg up), ?_⟩
          rw [if_neg up]
          exact updated _
    · have goes : (!k.ramping || s.clock.lost) = false := by simp [hramp, hlost]
      have step := (if_neg (by rw [goes]; nofun) : exec (.railSetpointReached d) s = _)
      by_cases reached : k.level ≤ k.target
      · refine ⟨_, step.trans ((if_neg fun h => Nat.not_lt.mpr reached h.2).trans (if_neg (Nat.not_lt.mpr reached))), ?_⟩
        rw [if_pos reached]
        exact updated _
      · rw [if_neg reached]
        by_cases byLevel : k.byLevel = true
        · refine ⟨_, step.trans (if_pos ⟨byLevel, Nat.lt_of_not_le reached⟩), ?_⟩
          rw [if_pos byLevel]
          exact updated _
        · refine ⟨_, step.trans ((if_neg fun h => byLevel h.1).trans (if_pos (Nat.lt_of_not_le reached))), ?_⟩
          rw [if_neg byLevel]
          exact updated _
  case region =>
    have calm : (actRegionClkEn s r v.toNat).bad = false := by simp [actRegionClkEn, hclr]
    have legal : (actRegionClkEn s r v.toNat).inv = false := by simp [actRegionClkEn, hne, Nat.not_lt.mpr hle]
    have effect : OnlyRegion s (actRegionClkEn s r v.toNat).eff r ∧
        (actRegionClkEn s r v.toNat).eff.region r = { s.region r with clken := BitVec.ofNat 2 v.toNat } :=
      ⟨⟨rfl, fun d hd => by simp [actRegionClkEn, hd]⟩, by simp [actRegionClkEn]⟩
    exact (writes_regionClkEn q r v).acts h legal calm effect
  case hub =>
    have legal : (actHubClkEn s h v.toNat).inv = false := by
      have south : (h : Nat) = 1 → v.toNat ≤ 31 := fun e => hsouth (Fin.ext e)
      simp only [actHubClkEn, Bool.or_eq_false_iff, Bool.and_eq_false_iff, decide_eq_false_iff_not]
      omega
    have bits := setHubClkEn_spec s h v.toNat
    rw [BitVec.ofNat_toNat, BitVec.setWidth_eq, ← hubClkEn_eff hfen] at bits
    exact (writes_hubClkEn q h v).acts hadm legal (hubClkEn_calm hclears) bits
  case ctl =>
    have effect : (actCtlCoreEnable s (q.cpu.map Fin.val) h v.toNat).eff = s.updHub h (fun k => { k with cpuEn := BitVec.ofNat 8 v.toNat }) :=
      if_neg (by rw [hfen]; nofun)
    have only : OnlyHub s (s.updHub h (fun k => { k with cpuEn := BitVec.ofNat 8 v.toNat })) h := ⟨rfl, fun d hd => by simp [hub_updHub, hd]⟩
    have written := (writes_ctlCoreEnable q h v).acts (P := fun u => OnlyHub s u h ∧ u.hub h = { s.hub h with cpuEn := v }) hadm rfl
      (ctlCoreEnable_calm h0 hown)
    exact written (effect ▸ ⟨only, by simp [hub_updHub]⟩)
  case out =>
    exact (writes_clockOutSel q v).acts h hinv (by simp [actClockOutSel, State.noteAct, hclk]) rfl

end Sys2Proof.Machine

/-! SUPPORT. The matrix and the vector engine leave the standing of the module as it is (R68 to R112). -/

namespace Sys2Proof.Machine

section
variable (s : State) (c : Nat)

@[simp] theorem standing_updMxe (f : MxeSt → MxeSt) : (s.updMxe c f).standing = s.standing := standing_updCore s c fun _ => rfl

@[simp] theorem standing_updVxe (f : VxeSt → VxeSt) : (s.updVxe c f).standing = s.standing := standing_updCore s c fun _ => rfl

@[simp] theorem standing_spadWrite (a : Nat) (bs : List Byte) : (s.spadWrite c a bs).standing = s.standing :=
  standing_updCore s c fun _ => rfl

@[simp] theorem standing_spadEcc (word : Nat) (e : Ecc) : (s.spadEcc c word e).standing = s.standing := by
  cases e with
  | clean => rfl
  | single => exact (standing_of_units rfl rfl rfl).trans (standing_updCore s c (f := fun k => { k with ceCnt := min (k.ceCnt + 1) 0xFFFF }) fun _ => rfl)
  | double =>
    have marked : (s.updCore c (fun k => { k with ue := true })).standing = s.standing := standing_updCore s c fun _ => rfl
    simp [State.spadEcc, marked]

@[simp] theorem standing_spadReadEcc (a n : Nat) (ecc : List (Nat × Ecc)) : (s.spadReadEcc c a n ecc).standing = s.standing :=
  List.foldlRecOn (motive := fun u => u.standing = s.standing) _ _ rfl (fun u kept e _ => (standing_spadEcc u c e.1 e.2).trans kept)

theorem standing_readThen (rs : List (Nat × Nat)) (ecc : List (Nat × Ecc)) {f : State → State} (hf : ∀ u, (f u).standing = u.standing) :
    (s.readThen c rs ecc f).standing = s.standing := by
  unfold State.readThen
  extract_lets s1
  have read : s1.standing = s.standing :=
    List.foldlRecOn (motive := fun u => u.standing = s.standing) _ _ rfl (fun u kept r _ => (standing_spadReadEcc u c _ _ ecc).trans kept)
  split
  · rw [hf, read]
  · exact read

/-! The matrix engine. -/

@[simp] theorem standing_doLoad (i a : Nat) (ecc : List (Nat × Ecc)) : (s.doLoad c i a ecc).standing = s.standing :=
  standing_readThen s c _ ecc fun u => standing_updMxe u c _

@[simp] theorem standing_doMerge (i a : Nat) (ecc : List (Nat × Ecc)) : (s.doMerge c i a ecc).standing = s.standing := by
  refine standing_readThen s c _ ecc fun u => ?_
  dsimp only
  split <;> simp

@[simp] theorem standing_arrPop : (s.arrPop c).standing = s.standing := standing_updMxe s c _

@[simp] theorem standing_arrRun (fuel : Nat) : (State.arrRun fuel s c).standing = s.standing := by
  induction fuel generalizing s with
  | zero => rfl
  | succ fuel ih =>
    unfold State.arrRun
    dsimp only
    (repeat' split) <;> simp [ih]

@[simp] theorem standing_pushRow (d : Drain) : (s.pushRow c d).standing = s.standing := by
  simp only [State.pushRow]
  split <;> simp

@[simp] theorem standing_pump (fuel : Nat) : (State.pump fuel s c).standing = s.standing := by
  induction fuel generalizing s with
  | zero => rfl
  | succ fuel ih =>
    unfold State.pump
    dsimp only
    (repeat' split) <;> simp [ih]

@[simp] theorem standing_mxeRun : (s.mxeRun c).standing = s.standing := by
  unfold State.mxeRun
  split <;> simp

/-! The vector engine. -/

@[simp] theorem standing_vxDone (r f : Nat) (xs : List (Nat × Flags)) : (s.vxDone c r f xs).standing = s.standing := by
  simp only [State.vxDone]
  split <;> simp

@[simp] theorem standing_vxFlags (fl : Flags) : (s.vxFlags c fl).standing = s.standing := by
  simp only [State.vxFlags]
  split <;> simp

@[simp] theorem standing_vxPopOne (i : VxItem) : (vxPopOne s c i).standing = s.standing := by
  simp [vxPopOne]

@[simp] theorem standing_vxRunFn (i : VxItem) : (vxRunFn s c i).standing = s.standing := by
  simp only [vxRunFn]
  split <;> simp

@[simp] theorem standing_vxRunOne (i : VxItem) : (vxRunOne s c i).standing = s.standing := by
  unfold vxRunOne
  split
  · rfl
  · split
    case h_1 => exact standing_readThen s c _ i.ecc fun u => standing_updVxe u c _
    case h_3 => exact standing_forEach s _ fun u k => standing_spadWrite u c _ _
    case h_15 => exact standing_vxRunFn s c i
    all_goals simp [vxRunSt, vxRunBin, vxRunFma, vxRunCvt, vxRunQnt, vxRunDqnt, vxRunRow, vxRunWelf, vxRunWmrg, vxRunWred, vxRunWfin]

@[simp] theorem standing_vxRun (fuel : Nat) : (State.vxRun fuel s c).standing = s.standing := by
  induction fuel generalizing s with
  | zero => rfl
  | succ fuel ih =>
    unfold State.vxRun
    dsimp only
    (repeat' split) <;> simp [ih]

end

end Sys2Proof.Machine

/-! SUPPORT. Pauses (R396, R397), shed stages (R396) and temperatures (R399, R400), and the settlement of O40. -/

namespace Sys2Proof.Machine

/-! Pauses. -/

/-- Does the matrix engine of a core pause for the stage or for its die's rail? -/
def PowerSt.pauses (p : PowerSt) (c : Nat) : Bool := decide (2 ≤ p.stage) || (p.dies.get {} (dieOf c)).railPause

theorem standing_pauseCore (s : State) (c : Nat) : (s.pauseCore c).standing =
    { s.standing with paused := fun d => if d = c then s.power.pauses c else s.standing.paused d } := by
  unfold State.pauseCore
  extract_lets mp vp k s1 s2
  have paused : s1.standing = { s.standing with paused := fun d => if d = c then s.power.pauses c else s.standing.paused d } := by
    have core : ∀ d, (s1.core d).mxePaused = if d = c then s.power.pauses c else (s.core d).mxePaused := by
      intro d
      by_cases same : d = c <;> simp [s1, mp, same, PowerSt.pauses, State.die]
    simp only [State.standing, core]
    rfl
  have matrix : s2.standing = s1.standing := (apply_ite State.standing _ _ _).trans (by simp)
  rw [← paused, ← matrix]
  split <;> simp

theorem standing_pauseCores (s : State) (cs : List Nat) : (s.forEach cs State.pauseCore).standing =
    { s.standing with paused := fun d => if d ∈ cs then s.power.pauses d else s.standing.paused d } := by
  induction cs generalizing s with
  | nil => rfl
  | cons c cs ih =>
    have power : (s.pauseCore c).power = s.power := congrArg Standing.power (standing_pauseCore s c)
    refine (ih (s.pauseCore c)).trans ?_
    rw [standing_pauseCore, power]
    refine congrArg (fun f => ({ s.standing with paused := f } : Standing)) (funext fun d => ?_)
    by_cases last : d ∈ cs <;> by_cases first : d = c <;> simp [last, first]

@[simp] theorem power_pauseRefresh (s : State) : s.pauseRefresh.power = s.power := by
  unfold State.pauseRefresh
  generalize allCores = cs
  exact congrArg Standing.power (standing_pauseCores s cs)

theorem mxePaused_pauseRefresh (s : State) {c : Nat} (hc : c < 136) : (s.pauseRefresh.core c).mxePaused = s.power.pauses c := by
  have every : c ∈ allCores := List.mem_range.mpr hc
  unfold State.pauseRefresh
  generalize allCores = cs at every ⊢
  exact (congrFun (congrArg Standing.paused (standing_pauseCores s cs)) c).trans (if_pos every)

/-! Shed stages. -/

@[simp] theorem power_post (s : State) (code sev src : Nat) (args : List Nat) : (s.post code sev src args).power = s.power := by
  rw [memOnly_post s code sev src args]

theorem power_flushBegin (s : State) : s.flushBegin.power = s.power := by
  unfold State.flushBegin
  split <;> rfl

theorem power_boxRecord (s : State) (cause : Nat) : (s.boxRecord cause).power = s.power := by
  unfold State.boxRecord
  (repeat' split) <;> rfl

theorem power_enterStage (s : State) (cause k : Nat) :
    ∃ n, (s.enterStage cause k).power = { s.power with stage := k, shedCount := n } := by
  unfold State.enterStage
  extract_lets s1 s2 s3
  have entered : s1.power = { s.power with stage := k, shedCount := if k = 1 then (s.power.shedCount + 1) % 2 ^ 32 else s.power.shedCount } :=
    power_post _ _ _ _ _
  have paused : s2.power = s1.power := (apply_ite State.power _ _ _).trans (by simp)
  have flushed : s3.power = s2.power := (apply_ite State.power _ _ _).trans (by simp [power_flushBegin])
  have recorded : (if k = 5 then s3.boxRecord cause else s3).power = s3.power := (apply_ite State.power _ _ _).trans (by simp [power_boxRecord])
  exact ⟨_, recorded.trans (flushed.trans (paused.trans entered))⟩

/-- The stages entered, one after the other, end in the last. -/
theorem power_enterStages (s : State) (cause : Nat) (ks : List Nat) : ∃ n, (s.forEach ks (fun s i => s.enterStage cause (i + 1))).power =
    { s.power with stage := (ks.map (· + 1)).getLastD s.power.stage, shedCount := n } := by
  induction ks generalizing s with
  | nil => exact ⟨_, rfl⟩
  | cons k ks ih =>
    obtain ⟨m, first⟩ := power_enterStage s cause (k + 1)
    obtain ⟨n, rest⟩ := ih (s.enterStage cause (k + 1))
    refine ⟨n, rest.trans ?_⟩
    rw [first]
    cases ks <;> rfl

/-- The stages from `a` on below `k` end in the later of the two. -/
theorem stages_last : ∀ a < 5, ∀ k ≤ 5, (((List.range 5).filter (fun i => decide (a ≤ i ∧ i < k))).map (· + 1)).getLastD a = max a k := by
  decide

theorem power_enterTo (s : State) {k : Nat} (hk : k ≤ 5) (cause : Nat) :
    ∃ n, (s.enterTo k cause).power = { s.power with stage := max s.power.stage k, shedCount := n } := by
  unfold State.enterTo
  split
  next h =>
    have stays : max s.power.stage k = s.power.stage := by omega
    exact ⟨_, by rw [stays]⟩
  next h =>
    obtain ⟨n, entered⟩ := power_enterStages s cause ((List.range 5).filter (fun i => decide (s.power.stage ≤ i ∧ i < k)))
    exact ⟨n, by rw [entered, stages_last _ (Nat.lt_of_not_le h) k hk]⟩

/-- What stage a supply sample leads to, once it is counted. -/
theorem vinStage_le (mv : Nat) : vinStage mv ≤ 4 := by
  unfold vinStage
  (repeat' split) <;> omega

/-! Supply samples. -/

/-- A supply sample as it is counted (R395, R396, R398). -/
def PowerSt.sampled (p : PowerSt) (mv : Nat) : PowerSt :=
  { p with
    vin := mv, low := if mv < 30000 then p.low + 1 else 0, high := if 63000 < mv then p.high + 1 else 0,
    good := (List.range 4).map (fun i => if leaveMv (i + 1) ≤ mv then p.good.getD i 0 + 1 else 0), sinceLeave := p.sinceLeave + 1 }

/-- The stage that a supply sample asks for. -/
def PowerSt.asks (p : PowerSt) (mv : Nat) : Nat := if 11 ≤ (p.sampled mv).high ∨ 11 ≤ (p.sampled mv).low then 5 else vinStage mv

theorem exec_vinSample {s : State} (hup : s.busUp = true) (mv : Nat) : ∃ t n, exec (.vinSample mv) s = .next t ∧
    t.power = { s.power.sampled mv with stage := max s.power.stage (s.power.asks mv), shedCount := n } := by
  have counted := (if_neg (by rw [hup]; nofun) : exec (.vinSample mv) s = _)
  have entered : ∀ k ≤ 5, ∀ cause, ∃ n, ((s.updPower (·.sampled mv)).enterTo k cause).power =
      { s.power.sampled mv with stage := max s.power.stage k, shedCount := n } := fun k hk cause => power_enterTo _ hk cause
  unfold PowerSt.asks
  by_cases high : 11 ≤ (s.power.sampled mv).high
  · obtain ⟨n, five⟩ := entered 5 le_rfl 2
    exact ⟨_, n, counted.trans (congrArg _ (if_pos high)), five.trans (by rw [if_pos (.inl high)])⟩
  · by_cases low : 11 ≤ (s.power.sampled mv).low
    · obtain ⟨n, five⟩ := entered 5 le_rfl 1
      exact ⟨_, n, counted.trans (congrArg _ ((if_neg high).trans (if_pos low))), five.trans (by rw [if_pos (.inr low)])⟩
    · obtain ⟨n, stage⟩ := entered (vinStage mv) ((vinStage_le mv).trans (by decide)) 1
      exact ⟨_, n, counted.trans (congrArg _ ((if_neg high).trans (if_neg low))), stage.trans (by rw [if_neg (not_or.mpr ⟨high, low⟩)])⟩

/-! Temperatures. -/

theorem frame_trans {s t u : State} (h : t = { s with power := t.power }) (g : u = { t with power := u.power }) :
    u = { s with power := u.power } := by
  rw [g, h]

/-- The samples of a die with no sensor critical (R399). -/
theorem dieSample_calm {s : State} {ts : List Int} (h : ∀ x ∈ ts, x < 110000) (d : Nat) :
    s.dieSample d ts = { s with power := (s.dieSample d ts).power } ∧ (s.dieSample d ts).power.stage = s.power.stage ∧
    (∀ e, (s.dieSample d ts).power.temps.get 0 e = if e = d then maxTemp ts else s.power.temps.get 0 e) ∧
    ∀ e, e < 4 → (s.dieSample d ts).die e = if e = d then { s.die e with therm := throttleNext (s.die e).therm (maxTemp ts) } else s.die e := by
  have none_hot : (List.range ts.length).filter (fun i => decide (110000 ≤ ts.getD i 0)) = [] := by
    simp only [List.filter_eq_nil_iff, List.mem_range, decide_eq_true_eq]
    intro i hi
    have cool := h _ (List.getElem_mem hi)
    rw [← List.getD_eq_getElem ts 0 hi] at cool
    omega
  unfold State.dieSample
  extract_lets hotNow crit t s1 s2
  have cool : crit = false := by simp only [crit, hotNow, none_hot, List.map_nil, List.any_nil]
  have kept : ∀ e, s1.die e = s.die e := fun _ => rfl
  rw [cool, Bool.false_and, if_neg (by nofun)]
  have counted : s1 = { s with power := s1.power } ∧ s1.power.stage = s.power.stage ∧
      ∀ e, s1.power.temps.get 0 e = if e = d then maxTemp ts else s.power.temps.get 0 e :=
    ⟨rfl, rfl, fun e => by simp [s1, t, State.updPower, SMap.get_set]⟩
  obtain ⟨frame, stage, temps⟩ := counted
  by_cases hd : d < 4
  · have throttled : s2 = s1.updDie d (fun k => { k with therm := throttleNext k.therm t }) := if_pos hd
    rw [throttled]
    refine ⟨rfl, stage, temps, fun e _ => ?_⟩
    rw [die_updDie, kept, kept]
    by_cases same : e = d
    · subst same
      rfl
    · rw [if_neg same, if_neg same]
  · have other : s2 = s1 := if_neg hd
    rw [other]
    refine ⟨frame, stage, temps, fun e he => ?_⟩
    rw [kept, if_neg fun same : e = d => hd (same ▸ he)]

/-- The samples of several dies with no sensor critical. -/
theorem dieSamples_calm {s : State} {ts : List (List Int)} (h : ∀ l ∈ ts, ∀ x ∈ l, x < 110000) {ds : List Nat} (nodup : ds.Nodup) :
    let t := s.forEach ds (fun s d => s.dieSample d (ts.getD d []))
    t = { s with power := t.power } ∧ t.power.stage = s.power.stage ∧
    (∀ e, t.power.temps.get 0 e = if e ∈ ds then maxTemp (ts.getD e []) else s.power.temps.get 0 e) ∧
    ∀ e, e < 4 → t.die e = if e ∈ ds then { s.die e with therm := throttleNext (s.die e).therm (maxTemp (ts.getD e [])) } else s.die e := by
  induction ds generalizing s with
  | nil => exact ⟨rfl, rfl, fun _ => rfl, fun _ _ => rfl⟩
  | cons d ds ih =>
    obtain ⟨fresh, nodup⟩ := List.nodup_cons.mp nodup
    have cool : ∀ x ∈ ts.getD d [], x < 110000 := by
      rw [List.getD_eq_getElem?_getD]
      cases hl : ts[d]? with
      | none => nofun
      | some l => exact h l (List.mem_of_getElem? hl)
    obtain ⟨frame, stage, temps, die⟩ := dieSample_calm (s := s) cool d
    obtain ⟨frame', stage', temps', die'⟩ := ih (s := s.dieSample d (ts.getD d [])) nodup
    refine ⟨?_, stage'.trans stage, fun e => (temps' e).trans ?_, fun e he => (die' e he).trans ?_⟩
    · exact frame_trans frame frame'
    · rw [temps]
      by_cases same : e = d
      · simp [same, fresh]
      · simp [same]
    · rw [die e he]
      by_cases same : e = d
      · simp [same, fresh]
      · simp [same]

theorem mem_sampled (ts : List (List Int)) {d : Nat} (hd : d < 6) :
    d ∈ (List.range 6).filter (fun d => !(ts.getD d []).isEmpty) ↔ ts.getD d [] ≠ [] := by
  rw [List.mem_filter, List.mem_range, Bool.not_eq_true', List.isEmpty_eq_false_iff]
  exact and_iff_right hd

/-- The one die of a sample. -/
theorem sampled_single : ∀ d < 6, (List.range 6).filter (fun e => decide (e = d)) = [d] := by decide

/-- A sensor critical for the second time (R400). -/
theorem dieSample_critical {s : State} {d i : Nat} {ts : List Int} {x : Int} (hi : ts[i]? = some x) (hx : 110000 ≤ x)
    (hot : d * 16 + i ∈ s.power.hot) : (s.dieSample d ts).power.stage = max s.power.stage 5 ∧
    (s.dieSample d ts).power.temps.get 0 d = maxTemp ts := by
  unfold State.dieSample
  extract_lets hotNow crit t s1 s2
  obtain ⟨short, value⟩ := List.getElem?_eq_some_iff.mp hi
  have now : d * 16 + i ∈ hotNow := by
    refine List.mem_map.mpr ⟨i, List.mem_filter.mpr ⟨List.mem_range.mpr short, ?_⟩, rfl⟩
    rw [List.getD_eq_getElem ts 0 short, value]
    exact decide_eq_true hx
  have again : crit = true := List.any_eq_true.mpr ⟨_, now, List.contains_iff_mem.mpr hot⟩
  have counted : s2.power.stage = s.power.stage ∧ s2.power.temps.get 0 d = t := by
    unfold s2
    split <;> exact ⟨rfl, by simp [s1, State.updDie, State.updPower, SMap.get_set]⟩
  obtain ⟨stage, temp⟩ := counted
  simp only [again, Bool.true_and]
  split
  next below =>
    obtain ⟨n, entered⟩ := power_enterTo (s2.post 0x0402 3 (d * 256 + 0xFF) [d, unsigned 32 t]) (le_refl 5) 3
    rw [State.critical, entered, power_post]
    exact ⟨congrArg (max · 5) stage, temp⟩
  next above => exact ⟨stage.trans (by simp_all), temp⟩

/-! Samples that are no event. -/

theorem exec_railSample {s : State} (hup : s.busUp = true) (d : Fin 4) (mv : Nat) : ∃ s1 : State, exec (.railSample d mv) s = .next s1.pauseRefresh ∧
    s1 = s.updDie d (fun k => { k with
      rail := mv, railGood := if 97 * setPoint (s.die d).level ≤ 100 * mv then k.railGood + 1 else 0,
      railReq := decide (100 * mv < 95 * setPoint (s.die d).level) ||
        (k.railReq && !decide (1001 ≤ if 97 * setPoint (s.die d).level ≤ 100 * mv then k.railGood + 1 else 0)),
      railPause := decide (100 * mv < 90 * setPoint (s.die d).level) ||
        (k.railPause && !decide (1001 ≤ if 97 * setPoint (s.die d).level ≤ 100 * mv then k.railGood + 1 else 0)) }) :=
  ⟨_, if_neg (by rw [hup]; nofun), rfl⟩

/-- Settles O40, by what `State.enterTo` and `State.pauseRefresh` keep of the supplies. -/
theorem supplyAndTemperature : Obligations.SupplyAndTemperature := by
  intro s hup
  have awake : (!s.busUp) = true → False := by rw [hup]; nofun
  refine ⟨fun mv hlo hhi => ?good, fun mv hbad => ?bad, fun mv hlow hfew => ?low, fun h1 h4 hgood hsince => ?leave, fun d mv => ?rail,
    fun mw => ?power, fun ts hcool => ?cool, fun ts d i x hd hi hx hhot hone => ?critical, fun a b => ?coolant, fun h5 hrec hflush => ?safe⟩
  case good =>
    obtain ⟨t, n, runs, power⟩ := exec_vinSample hup mv
    have asked : s.power.asks mv = vinStage mv := if_neg (by simp [PowerSt.sampled, Nat.not_lt.mpr hlo, Nat.not_lt.mpr hhi])
    refine ⟨t, runs, ?_⟩
    dsimp only
    rw [power, asked]
    exact ⟨rfl, if_neg (Nat.not_lt.mpr hlo), if_neg (Nat.not_lt.mpr hhi), rfl⟩
  case bad =>
    obtain ⟨t, n, runs, power⟩ := exec_vinSample hup mv
    have asked : s.power.asks mv = 5 := by
      refine if_pos ?_
      rcases hbad with ⟨low, many⟩ | ⟨high, many⟩
      · exact .inr (by simp only [PowerSt.sampled, low, if_true]; omega)
      · exact .inl (by simp only [PowerSt.sampled, high, if_true]; omega)
    refine ⟨t, runs, ?_⟩
    dsimp only
    rw [power, asked]
    exact ⟨rfl, rfl⟩
  case low =>
    obtain ⟨t, n, runs, power⟩ := exec_vinSample hup mv
    have asked : s.power.asks mv = 4 := by
      have few : ¬ (11 ≤ (s.power.sampled mv).high ∨ 11 ≤ (s.power.sampled mv).low) := by
        simp only [PowerSt.sampled, hlow, if_true, if_neg (show ¬ 63000 < mv by omega)]
        omega
      exact (if_neg few).trans (if_pos (by omega))
    refine ⟨t, runs, ?_⟩
    dsimp only
    rw [power, asked]
    exact ⟨rfl, if_pos hlow, rfl⟩
  case leave => exact ⟨_, if_pos ⟨h1, h4, hup, hgood, hsince⟩, power_pauseRefresh _⟩
  case rail =>
    obtain ⟨s1, runs, sampled⟩ := exec_railSample hup d mv
    have die : ∀ e, s1.pauseRefresh.die e = s1.die e := fun e => by simp only [State.die, power_pauseRefresh]
    have stage : s1.pauseRefresh.power.stage = s.power.stage := by rw [power_pauseRefresh, sampled]; rfl
    have lower : ∀ n : Nat, (!decide (1001 ≤ n)) = decide (n < 1001) := fun n => by rw [← decide_not]; simp
    refine ⟨_, runs, ?_, fun e he => ?_, stage, fun c hc => ?_⟩
    · rw [die, sampled, die_updDie, if_pos rfl]
      simp only [lower]
    · rw [die, sampled, die_updDie, if_neg he]
    · rw [mxePaused_pauseRefresh s1 hc, ← stage, die, power_pauseRefresh]
      rfl
  case power =>
    refine ⟨_, if_neg awake, rfl, rfl, fun high hrise hcap => ?_, fun low avg hfall hcap => ?_, fun low avg => ?_⟩
    · exact if_pos (by simp only [Bool.and_eq_true, decide_eq_true_eq]; exact ⟨⟨high, by omega⟩, hcap⟩)
    · refine (if_neg ?_).trans (if_pos ?_)
      · rw [decide_eq_false low]; nofun
      · rw [decide_eq_false low, decide_eq_true avg, decide_eq_true hcap, decide_eq_true (show 1000 ≤ s.power.sinceFall + 1 by omega)]; rfl
    · refine (if_neg ?_).trans (if_neg ?_)
      · rw [decide_eq_false low]; nofun
      · rw [decide_eq_false (Nat.not_lt.mpr avg), Bool.and_false]; nofun
  case cool =>
    have kept := dieSamples_calm (s := s) hcool ((List.nodup_range (n := 6)).filter (fun d => !(ts.getD d []).isEmpty))
    obtain ⟨frame, stage, temps, die⟩ := kept
    refine ⟨_, if_neg awake, frame, stage, fun d hd hne => ?_, fun d hd => ?_⟩
    · exact (temps d).trans (if_pos ((mem_sampled ts hd).mpr hne))
    · rw [die d hd, ← ite_not]
      exact if_congr (not_iff_comm.mp (mem_sampled ts (d := d) (by omega)).symm) rfl rfl
  case critical =>
    have only : (List.range 6).filter (fun e => !(ts.getD e []).isEmpty) = [d] := by
      rw [← sampled_single d hd]
      refine List.filter_congr fun e _ => ?_
      by_cases same : e = d
      · subst same
        have some_ : (ts.getD e []).isEmpty = false := List.isEmpty_eq_false_iff.mpr fun empty => by rw [empty] at hi; exact absurd hi (by simp)
        rw [some_, decide_eq_true rfl]
        rfl
      · rw [hone e same, decide_eq_false same]
        rfl
    refine ⟨_, if_neg awake, ?_⟩
    rw [only]
    exact dieSample_critical hi hx hhot
  case coolant => exact ⟨_, congrArg Host.Outcome.next (if_pos hup), rfl⟩
  case safe =>
    have free : (s.hub 0).fenced = true ∨ (s.box.writing.isNone ∧ s.box.waiting.isNone) := hrec.imp id fun ⟨w, q⟩ => by simp [w, q]
    exact ⟨_, if_pos ⟨h5, hup, free, hflush⟩, rfl, rfl, rfl, rfl, rfl, rfl, rfl⟩

end Sys2Proof.Machine

/-! SUPPORT. Requests to the object dictionary in the order of R412, and the settlement of O41. -/

namespace Sys2Proof.Machine

/-- A write by its index answers with the status of `State.odRequest`. -/
theorem exec_odWrite {s : State} (h : s.odAnswers = true) (q : OdReq) (i : BitVec 16) (j : BitVec 8) (b : List Byte) :
    exec (.odWrite q i j b) s = .next ((s.odWrite q i.toNat j.toNat b).1.answer q (s.odWrite q i.toNat j.toNat b).2) := by
  exact congrArg Host.Outcome.next (request_answer h)

/-- The write of an object that is there (R412). -/
theorem odWrite_object {s : State} {q : OdReq} {idx sub : Nat} {o : Obj} (hthere : ¬ (objectsAt idx = [] ∨ (banked idx = true ∧ q.cpu = none)))
    (hobj : objOf idx sub = some o) (b : List Byte) : s.odWrite q idx sub b =
      if denied q.role true idx then (s.noteAct o.acc idx sub 7, 7)
      else if o.acc = .ro then (s, 1)
      else if !o.ty.fits b.length then (s.noteAct o.acc idx sub 6, 6)
      else s.odApply o idx sub b (fun t => t.objAct q.cpu idx sub b) := by
  unfold State.odWrite State.odRequest
  rw [if_neg hthere, hobj]

/-- A write to StallLimit (R142, R413). -/
theorem odWrite_stallLimit {s : State} {q : OdReq} {b : List Byte} (hlen : b.length = 4) (hrole : denied q.role true 0x0607 = false) :
    s.odWrite q 0x0607 0 b =
      if ofLe b = 0 ∨ 60000000 < ofLe b then (s, 3)
      else if admitted s.life 0x0607 b = false then (s, 2)
      else ({ s with sched := { s.sched with stallLimit := ofLe b } }, 0) := by
  have object : objOf 0x0607 0 = some ⟨0x0607, 0, 0, .u32, .rw⟩ := by decide
  have there : ¬ (objectsAt 0x0607 = [] ∨ (banked 0x0607 = true ∧ q.cpu = none)) := by
    rw [not_or]
    exact ⟨by decide, fun h => absurd h.1 (by decide)⟩
  have fits : (OTy.u32).fits b.length = true := by rw [hlen]; rfl
  rw [odWrite_object there object, if_neg (by rw [hrole]; nofun), if_neg (by nofun), fits]
  have value : ∀ t : State, t.objAct q.cpu 0x0607 0 b =
      { inv := decide (ofLe b = 0 ∨ 60000000 < ofLe b), eff := { t with sched := { t.sched with stallLimit := ofLe b } } } := fun _ => rfl
  have unlogged : loggedObj 0x0607 (decide (OAcc.rw = .act)) = false := by decide
  simp only [State.odApply, State.noteAct, value, unlogged]
  by_cases legal : ofLe b = 0 ∨ 60000000 < ofLe b <;> cases admitted s.life 0x0607 b <;> simp [legal]

/-- Settles O41, by the branches of `State.odRequest`. -/
theorem objectWrites : Obligations.ObjectWrites := by
  intro q i j b s hans idx sub absent
  have runs := exec_odWrite hans q i j b
  have outcome : ∀ t st, s.odWrite q idx sub b = (t, st) → Gives (.odWrite q i j b) s (fun u => u = t.answer q st) :=
    fun t st h => ⟨_, runs, by rw [h]⟩
  refine ⟨fun hnone => outcome _ _ (if_pos hnone), fun hthere hobj => outcome _ _ ?sub, fun o hthere hobj => ?object, fun hidx hsub hlen hrole => ?stall⟩
  case sub =>
    refine (if_neg hthere).trans ?_
    rw [hobj]
  case object =>
    have asked := odWrite_object (s := s) hthere hobj b
    refine ⟨fun hden => outcome _ _ (asked.trans (if_pos hden)), fun hden hro => outcome _ _ ?_, fun hden hrw hfit => outcome _ _ ?_⟩
    · rw [asked, if_neg (by rw [hden]; nofun), if_pos hro]
    · rw [asked, if_neg (by rw [hden]; nofun), if_neg hrw, hfit]
      rfl
  case stall =>
    rw [hidx] at hrole
    have asked := odWrite_stallLimit (s := s) hlen hrole
    rw [hidx, hsub] at outcome
    intro legal
    refine ⟨fun hlegal => outcome _ _ ?_, fun hlegal hadm => outcome _ _ ?_, fun hlegal hadm => outcome _ _ ?_⟩
    · rw [asked, if_pos (by omega)]
    · rw [hidx] at hadm
      rw [asked, if_neg (by omega), if_pos hadm]
    · rw [hidx] at hadm
      rw [asked, if_neg (by omega), if_neg (by rw [hadm]; nofun)]

end Sys2Proof.Machine

/-! SUPPORT. The window of a control core (R415, R416), and the settlement of O42. -/

namespace Sys2Proof.Machine

section
variable (s : State) (c : Fin 16)

theorem exec_odWindowLoad {off : BitVec 40} {rel : Nat} (hruns : s.cpuRuns c = true) (hplace : placeOf off.toNat = .od rel) (width : Nat) :
    exec (.odWindowLoad c off width) s = .next (s.windowRead c rel width) := by
  refine (if_neg (by rw [hruns]; nofun)).trans ?_
  rw [hplace]

theorem exec_odWindowStore {off : BitVec 40} {rel : Nat} (hruns : s.cpuRuns c = true) (hplace : placeOf off.toNat = .od rel) (width : Nat)
    (v : BitVec 64) : exec (.odWindowStore c off width v) s = .next (s.windowPut c rel width v) := by
  refine (if_neg (by rw [hruns]; nofun)).trans ?_
  rw [hplace]

theorem exec_windowCommit (hruns : s.cpuRuns c = true) (hans : s.odAnswers = true) (n : Word) :
    exec (.windowCommit c n) s = .next (s.windowCommit c n.toNat) := by
  refine congrArg Host.Outcome.next ((if_pos hruns).trans ?_)
  have object : objOf 0x0D71 0 = some ⟨0x0D71, 0, 0, .u32, .wo⟩ := by decide
  have value : (BitVec.ofNat 64 n.toNat).toNat % 2 ^ 32 = n.toNat := by
    rw [BitVec.toNat_ofNat]
    omega
  unfold State.windowPut
  dsimp only [slotOf]
  rw [if_pos hans, show 0x0D710000 / 65536 = 0x0D71 from rfl, show 0x0D710000 / 256 % 256 = 0 from rfl, object]
  exact congrArg (s.windowCommit c) value

/-- What a window write leaves: its status, and no bus error. -/
theorem windowDone_frame (st : Nat) : s.windowDone c st = { s with cpus := (s.windowDone c st).cpus } ∧
    (∀ d, d ≠ c.val → (s.windowDone c st).cpu d = s.cpu d) ∧ (s.windowDone c st).cpu c = { s.cpu c with status := st, bus := false, value := 0 } :=
  ⟨rfl, fun d hd => by simp [State.windowDone, State.cpuOut, hd], by simp [State.windowDone, State.cpuOut]⟩

theorem status_windowDone (st : Nat) : ((s.windowDone c st).cpu c).status = st ∧ ((s.windowDone c st).cpu c).bus = false := by
  obtain ⟨-, -, done⟩ := windowDone_frame s c st
  rw [done]
  exact ⟨rfl, rfl⟩

variable (rel width : Nat)

/-- A load that an object answers. -/
theorem windowRead_answers (hnat : naturally (rel % 256) width = true) (hans : s.odAnswers = true)
    (hobj : (objOf (rel / 65536) (rel / 256 % 256)).isSome = true) :
    let slot := rel / 65536 * 256 + rel / 256 % 256
    let val := if rel % 256 ≠ 0 ∧ (s.cpu c).latchSlot = some slot then (s.cpu c).latch
      else (s.odRead (cpuReq c) (rel / 65536) (rel / 256 % 256)).2.2
    s.windowRead c rel width = (if rel % 256 = 0 then s.updCpu c (fun k => { k with latchSlot := some slot, latch := val }) else s).cpuOut c false
      (ofLe (slice val (rel % 256) width)) := by
  have some_ : (objOf (rel / 65536) (rel / 256 % 256)).isNone = false := by simpa [Option.isSome_iff_ne_none] using hobj
  unfold State.windowRead
  dsimp only [slotOf]
  simp only [hnat, hans, some_, Bool.not_true, Bool.or_self, Bool.false_eq_true, if_false, Bool.and_eq_true, decide_eq_true_eq]

theorem windowRead_faults (h : naturally (rel % 256) width = false ∨ s.odAnswers = false ∨ objOf (rel / 65536) (rel / 256 % 256) = none) :
    s.windowRead c rel width = s.cpuOut c true 0 := by
  refine if_pos ?_
  rcases h with h | h | h <;> simp [h]

theorem windowPut_faults (h : s.odAnswers = false ∨ objOf (rel / 65536) (rel / 256 % 256) = none) (v : BitVec 64) :
    s.windowPut c rel width v = s.cpuOut c true 0 := by
  have silent : (if s.odAnswers then objOf (rel / 65536) (rel / 256 % 256) else none) = none := by
    rcases h with h | h <;> simp [h]
  unfold State.windowPut
  dsimp only [slotOf]
  rw [silent]

/-- A store to a scalar. -/
theorem windowPut_scalar {o : Obj} {w : Nat} (hans : s.odAnswers = true) (hobj : objOf (rel / 65536) (rel / 256 % 256) = some o)
    (hw : o.ty.width = some w) (v : BitVec 64) : s.windowPut c rel width v =
      if rel % 256 ≠ 0 ∨ width ≠ w then s.windowDone c 6
      else if rel / 65536 = 0x0D71 then s.windowCommit c (v.toNat % 2 ^ 32)
      else (s.odWrite (cpuReq c) (rel / 65536) (rel / 256 % 256) (leBytes w v.toNat)).1.windowDone c
        (s.odWrite (cpuReq c) (rel / 65536) (rel / 256 % 256) (leBytes w v.toNat)).2 := by
  unfold State.windowPut
  dsimp only [slotOf]
  rw [if_pos hans, hobj]
  dsimp only
  rw [hw]

/-- A store to a longer object. -/
theorem windowPut_long {o : Obj} (hans : s.odAnswers = true) (hobj : objOf (rel / 65536) (rel / 256 % 256) = some o)
    (hw : o.ty.width = none) (v : BitVec 64) : s.windowPut c rel width v =
      if naturally (rel % 256) width = false then s.windowDone c 6
      else
        let slot := rel / 65536 * 256 + rel / 256 % 256
        let old := if (s.cpu c).staged = some slot then (s.cpu c).stage else []
        (s.updCpu c (fun k => { k with staged := some slot, stage := old.sets 0 (rel % 256) (leBytes width v.toNat) })).windowDone c 0 := by
  unfold State.windowPut
  dsimp only [slotOf]
  rw [if_pos hans, hobj]
  dsimp only
  rw [hw]
  cases naturally (rel % 256) width <;> rfl

end

/-- Settles O42, by what `State.windowRead`, `State.windowPut` and `State.windowCommit` do. -/
theorem windowAccesses : Obligations.WindowAccesses := by
  intro c off width v s hruns
  refine ⟨fun rel hplace => ?_, fun n hans => ?_⟩
  · intro idx sub byte slot k val
    have load := exec_odWindowLoad s c hruns hplace width
    have store := exec_odWindowStore s c hruns hplace width v
    refine ⟨fun hnat hans hobj => ⟨_, load, ?latched⟩, fun hfault => ⟨_, load, windowRead_faults s c rel width hfault⟩,
      fun hfault => ⟨_, store, windowPut_faults s c rel width hfault v⟩, fun o hans hobj => ?stores⟩
    case latched =>
      rw [windowRead_answers s c rel width hnat hans hobj]
      by_cases first : rel % 256 = 0
      · simp only [first, if_true]
        refine ⟨rfl, fun d hd => by simp [State.cpuOut, hd], ?_⟩
        simp [State.cpuOut, k, byte, first, val, slot, idx, sub]
      · simp only [first, if_false]
        refine ⟨rfl, fun d hd => by simp [State.cpuOut, hd], ?_⟩
        simp [State.cpuOut, k, byte, first, val, slot, idx, sub]
    case stores =>
      have scalar := fun w hw => windowPut_scalar s c rel width (w := w) hans hobj hw v
      have long := fun hw => windowPut_long s c rel width hans hobj hw v
      refine ⟨fun w hw hne h0 hwidth => ?_, fun w hw hbad => ?_, fun hlong hnat => ?_, fun hlong hnat => ?_⟩
      · intro r
        have written : s.windowPut c rel width v = r.1.windowDone c r.2 := (scalar w hw).trans ((if_neg (by omega)).trans (if_neg hne))
        obtain ⟨status, bus⟩ := status_windowDone r.1 c r.2
        exact ⟨_, store, written, by rw [written, status], by rw [written, bus]⟩
      · exact ⟨_, store, (scalar w hw).trans (if_pos hbad)⟩
      · exact ⟨_, store, (long hlong).trans (if_pos hnat)⟩
      · have staged := windowDone_frame (s.updCpu c (fun k => { k with
          staged := some slot,
          stage := (if (s.cpu c).staged = some slot then (s.cpu c).stage else []).sets 0 byte (leBytes width v.toNat) })) c 0
        obtain ⟨frame, others, own⟩ := staged
        refine ⟨_, store, ?_⟩
        rw [(long hlong).trans (if_neg (show ¬ naturally byte width = false by rw [hnat]; nofun))]
        refine ⟨frame, fun d hd => (others d hd).trans (by simp [hd]), own.trans ?_⟩
        rw [cpu_updCpu, if_pos rfl]
  · intro u
    have commit := exec_windowCommit s c hruns hans n
    refine ⟨fun hlong => ⟨_, commit, if_pos hlong⟩, fun hle hnone => ⟨_, commit, ?_⟩, fun slot hle hslot => ⟨_, commit, ?_⟩⟩
    · refine (if_neg (Nat.not_lt.mpr hle)).trans ?_
      rw [hnone]
    · have done : s.windowCommit c n.toNat = _ := (if_neg (Nat.not_lt.mpr hle)).trans (by rw [hslot])
      exact ⟨done, by rw [done]; exact (status_windowDone _ c _).1⟩

end Sys2Proof.Machine

/-! SUPPORT. The messages of a session (R418 to R425), and the settlement of O43. -/

namespace Sys2Proof.Machine

section
variable {s : State} {d : Datagram} {x : Session} {b : List Byte} {typ : Nat}

/-- A session that writes its entry again writes it once. -/
theorem putSession_putSession (s : State) {y z : Session} (h : z.id = y.id) : (s.putSession y).putSession z = s.putSession z := by
  unfold State.putSession State.updMg
  simp only [List.map_map]
  have entry : (fun w => if w.id = z.id then z else w) ∘ (fun w => if w.id = y.id then y else w) = fun w : Session => if w.id = z.id then z else w := by
    funext w
    by_cases same : w.id = y.id <;> simp [h, same]
  rw [entry]

/-- A session that has written its entry ends as it would have. -/
theorem dropSession_putSession (s : State) (y : Session) : (s.putSession y).dropSession y.id = s.dropSession y.id := by
  have kept : ∀ xs : List Session, (xs.map (fun w => if w.id = y.id then y else w)).filter (fun w => decide (w.id ≠ y.id)) =
      xs.filter (fun w => decide (w.id ≠ y.id)) := by
    intro xs
    induction xs with
    | nil => rfl
    | cons w ws ih => by_cases same : w.id = y.id <;> simp_all
  exact congrArg (fun xs => ({ s with mgmt := { s.mgmt with sessions := xs } } : State)) (kept s.mgmt.sessions)

theorem id_of_session {id : Nat} {half : Bool} (h : s.session id half = some x) : x.id = id := by
  have found := List.find?_some h
  simp only [Bool.and_eq_true, decide_eq_true_eq] at found
  exact found.1.1

/-- A message that a session hears acts on the session with its idle time anew (R420, R423). -/
theorem sessionMsg_heard (h : s.hears d typ x b) (act : State → Session → List Byte → State) :
    s.sessionMsg d typ act = act (s.putSession (x.heard s.tsc)) (x.heard s.tsc) b := by
  obtain ⟨on, htyp, ok, found, opened, hseq⟩ := h
  unfold State.sessionMsg
  rw [if_neg (by simp [on, htyp]), if_neg (by simp [ok]), found]
  dsimp only
  rw [opened]
  exact if_neg hseq

/-- A message of no open session is discarded and counted (R420). -/
theorem sessionMsg_stranger (hon : s.mgmtOn = true) (hok : s.dgramOk d = true) (hnone : s.session d.session false = none) (htyp : d.typ = typ)
    (act : State → Session → List Byte → State) : s.sessionMsg d typ act = s.mgmtDrop := by
  unfold State.sessionMsg
  rw [if_neg (by simp [hon, htyp]), if_neg (by simp [hok]), hnone]

/-- A repeat of a served SEQ sends the kept RESULT again (R421). -/
theorem sessionReq_repeat {p : Nat × Datagram} (hseq : x.high ≤ d.seq + 15) (hdone : x.done.find? (fun p => decide (p.1 = d.seq)) = some p)
    (write : Bool) : s.sessionReq x d write b = s.tell { p.2 with client := d.client, cport := d.cport } := by
  unfold State.sessionReq
  rw [if_neg (Nat.not_lt.mpr hseq), hdone]

/-- A new SEQ is served, and its RESULT sent and kept (R421, R425). -/
theorem sessionReq_serves {write : Bool} (hseq : x.high ≤ d.seq + 15) (hdone : x.done.find? (fun p => decide (p.1 = d.seq)) = none)
    (hshape : reqShape write b = true) : s.sessionReq x d write b =
      let r := s.serveBody { role := x.role, cpu := none } write b
      let g := backTo (r.1.seal x 0x12 d.seq r.2) d
      let h := max x.high d.seq
      (r.1.putSession { x with high := h, done := ((d.seq, g) :: x.done).filter (fun p => decide (h ≤ p.1 + 15)) }).tell g := by
  unfold State.sessionReq
  rw [if_neg (Nat.not_lt.mpr hseq), hdone]
  exact if_neg (by rw [hshape]; nofun)

theorem exec_toaRead (h : d.session ≠ 0) : exec (.toaRead d) s = .next (s.sessionMsg d 0x10 (fun s x b => s.sessionReq x d false b)) :=
  if_neg fun both => h both.1

end

/-- The unacknowledged events of a session after EVACK (R435). -/
theorem mem_acknowledged (sent : List (Nat × Nat × List Nat × Datagram)) (a n e : Nat) :
    (∃ m ∈ (sent.map (fun m => (m.1, m.2.1, m.2.2.1.filter (fun e => decide (a < e)), m.2.2.2))).filter (fun m => !m.2.2.1.isEmpty),
      m.1 = n ∧ e ∈ m.2.2.1) ↔ (∃ m ∈ sent, m.1 = n ∧ e ∈ m.2.2.1) ∧ a < e := by
  constructor
  · rintro ⟨m, hm, hn, he⟩
    obtain ⟨hm, -⟩ := List.mem_filter.mp hm
    obtain ⟨m', hm', rfl⟩ := List.mem_map.mp hm
    obtain ⟨he, ha⟩ := List.mem_filter.mp he
    exact ⟨⟨m', hm', hn, he⟩, of_decide_eq_true ha⟩
  · rintro ⟨⟨m, hm, hn, he⟩, ha⟩
    have left : e ∈ m.2.2.1.filter (fun e => decide (a < e)) := List.mem_filter.mpr ⟨he, decide_eq_true ha⟩
    refine ⟨_, List.mem_filter.mpr ⟨List.mem_map.mpr ⟨m, hm, rfl⟩, ?_⟩, hn, left⟩
    rw [Bool.not_eq_true', List.isEmpty_eq_false_iff]
    exact List.ne_nil_of_mem left

/-- Settles O43, by `sessionMsg_heard` and what each message does for its session. -/
theorem sessionRequestsAndMessages : Obligations.SessionRequestsAndMessages := by
  refine ⟨⟨fun d x b s h hne hseq => ?read, fun d s hon htyp hzero hok htag hlen => ?plain, fun d x b s h hseq => ?write⟩,
    fun d x b s => ?others⟩
  case read =>
    intro y u
    have heard := (exec_toaRead (s := s) hne).trans (congrArg Host.Outcome.next (sessionMsg_heard h _))
    refine ⟨fun p hp => ⟨_, heard, sessionReq_repeat (x := y) hseq hp false⟩, fun hnew hlen => ⟨_, heard, ?_⟩⟩
    have shape : reqShape false b = true := decide_eq_true hlen
    refine (sessionReq_serves (x := y) (write := false) hseq hnew shape).trans ?_
    exact congrArg (State.tell · _) (putSession_putSession s (y := y) rfl)
  case plain =>
    refine ⟨_, (if_pos ⟨hzero, htyp⟩).trans ((if_neg (by rw [hon]; nofun)).trans (if_neg ?_)), rfl⟩
    have shape : reqShape false d.body = true := decide_eq_true hlen
    simp [hok, htag, shape]
  case write =>
    intro y u
    have heard : exec (.toaWrite d) s = _ := congrArg Host.Outcome.next (sessionMsg_heard h (fun s x b => s.sessionReq x d true b))
    refine ⟨fun p hp => ⟨_, heard, sessionReq_repeat (x := y) hseq hp true⟩, fun hnew hlong hlen => ⟨_, heard, ?_⟩⟩
    have shape : reqShape true b = true := by simp only [reqShape, if_true, decide_eq_true hlong, decide_eq_true hlen, Bool.and_self]
    exact sessionReq_serves (x := y) (write := true) hseq hnew shape
  case others =>
    intro y
    refine ⟨fun h => ⟨_, congrArg Host.Outcome.next (sessionMsg_heard h _), rfl⟩,
      fun h hlen hsev => ⟨_, congrArg Host.Outcome.next (sessionMsg_heard h _), ?_⟩,
      fun h hlen => ⟨_, congrArg Host.Outcome.next (sessionMsg_heard h _), ?_⟩,
      fun h => ⟨_, congrArg Host.Outcome.next (sessionMsg_heard h _), ?_⟩, fun hon hok hnone => ⟨fun htyp => ?_, fun htyp => ?_⟩⟩
    · exact (if_neg (by omega)).trans (putSession_putSession s (y := y) rfl)
    · refine ⟨_, (if_neg (not_not.mpr hlen)).trans (putSession_putSession s (y := y) rfl), rfl, fun n e => ?_⟩
      exact mem_acknowledged x.sent (beAt b 0 8) n e
    · obtain ⟨-, -, -, found, -, -⟩ := h
      have same : y.id = d.session := id_of_session (x := x) found
      exact (dropSession_putSession s y).trans (congrArg s.dropSession same)
    · exact ⟨_, rfl, sessionMsg_stranger hon hok hnone htyp _⟩
    · exact ⟨_, rfl, sessionMsg_stranger hon hok hnone htyp _⟩

end Sys2Proof.Machine

/-! SUPPORT. Event delivery (R435) and the frames of the management port (R417), and the settlement of O45. -/

namespace Sys2Proof.Machine

section
variable {s : State} {id : Nat} {x : Session} (hon : s.mgmtOn = true) (hopen : s.session id false = some x)
include hon hopen

theorem exec_eventSend (hsub : x.subscribed = true) : exec (.eventSend id) s = .next (s.sendEvents x) := by
  show execEventSend id s = _
  unfold execEventSend
  rw [if_pos hon, hopen]
  exact congrArg Host.Outcome.next (if_pos hsub)

theorem exec_eventResend {seq : Nat} {m : Nat × Nat × List Nat × Datagram}
    (hdue : x.sent.find? (fun m => decide (m.1 = seq ∧ m.2.1 + 250 * msTicks ≤ s.tsc)) = some m) :
    exec (.eventResend id seq) s = .next ((s.putSession { x with
      sent := x.sent.map (fun y => if y.1 = seq then (y.1, s.tsc, y.2.2) else y) }).tell { m.2.2.2 with client := x.client, cport := x.cport }) := by
  show execEventResend id seq s = _
  unfold execEventResend
  rw [if_pos hon, hopen]
  dsimp only
  rw [hdue]

end

theorem exec_managementPortFrame {s : State} {f : MgmtFrame} (hon : s.mgmtOn = true) (hlen : f.len ≤ 1518) :
    (∀ a, f.kind = .neighbourSolicit a → exec (.managementPortFrame f) s = .next
      (if s.ownAddr a && s.reachesAddr f.client then s.emit (.advert f.client a) else s)) ∧
    ∀ b, f.kind = .echoRequest b → exec (.managementPortFrame f) s = .next
      (if s.ownAddr f.host && s.reachesAddr f.client then s.emit (.echo f.client b) else s) := by
  have taken := (if_neg (by rw [hon]; nofun)).trans (if_neg (Nat.not_lt.mpr hlen)) (a := exec (.managementPortFrame f) s)
  refine ⟨fun a kind => taken.trans ?_, fun b kind => taken.trans ?_⟩ <;> rw [kind]

/-- Settles O45, by the branches of `State.sendEvents` and of the port's frames. -/
theorem eventsAreDelivered : Obligations.EventsAreDelivered := by
  refine ⟨fun id x s hon hopen hsub => ?send, fun id seq x m s hon hopen hdue => ?resend, fun f s hon => ?frame⟩
  case send =>
    intro waiting start es
    refine ⟨fun hfull => ⟨_, exec_eventSend hon hopen hsub, if_pos hfull⟩, fun l hroom hlast hseq => ⟨_, exec_eventSend hon hopen hsub, ?_⟩⟩
    refine (if_neg (Nat.not_le.mpr hroom)).trans ?_
    rw [hlast]
    exact if_neg hseq
  case resend => exact ⟨_, exec_eventResend hon hopen hdue, rfl⟩
  case frame =>
    refine ⟨fun hlong => ⟨_, (if_neg (by rw [hon]; nofun)).trans (if_pos hlong), rfl⟩, fun hlen hreach => ?_⟩
    obtain ⟨solicit, echo⟩ := exec_managementPortFrame (s := s) hon hlen
    exact ⟨fun a kind hown => ⟨_, solicit a kind, if_pos (by rw [hown, hreach]; rfl)⟩,
      fun b kind hown => ⟨_, echo b kind, if_pos (by rw [hown, hreach]; rfl)⟩⟩

end Sys2Proof.Machine

/-! SUPPORT. The event log (R431, R432) and EventPost (R436), and the settlement of O46. -/

namespace Sys2Proof.Machine

theorem firstEv_cons (e : Ev) (es : List Ev) : firstEv (e :: es) = some (match firstEv es with
    | none => e
    | some x => if x.key < e.key then x else e) := by
  rw [firstEv]
  cases firstEv es with
  | none => rfl
  | some x => exact (apply_ite some _ _ _).symm

/-- The event that `firstEv` takes is one of the list with the smallest key. -/
theorem firstEv_least {es : List Ev} {e : Ev} (h : firstEv es = some e) : e ∈ es ∧ ∀ x ∈ es, e.key ≤ x.key := by
  induction es generalizing e with
  | nil => nomatch h
  | cons a as ih =>
    rw [firstEv_cons] at h
    obtain rfl := Option.some.inj h
    cases hrest : firstEv as with
    | none =>
      have empty : as = [] := by
        cases as with
        | nil => rfl
        | cons b bs => rw [firstEv_cons] at hrest; nomatch hrest
      simp [empty]
    | some x =>
      obtain ⟨hx, least⟩ := ih hrest
      dsimp only
      split
      next behind => exact ⟨List.mem_cons_of_mem _ hx, List.forall_mem_cons.mpr ⟨Nat.le_of_lt behind, least⟩⟩
      next before =>
        refine ⟨List.mem_cons_self, List.forall_mem_cons.mpr ⟨le_rfl, fun y hy => ?_⟩⟩
        exact (Nat.not_lt.mp before).trans (least y hy)

/-- An event below every other of its list is the one taken. -/
theorem firstEv_of_unique {es : List Ev} {e : Ev} (he : e ∈ es) (h : ∀ x ∈ es, x ≠ e → e.key < x.key) : firstEv es = some e := by
  obtain ⟨a, as, rfl⟩ := List.exists_cons_of_ne_nil (List.ne_nil_of_mem he)
  obtain ⟨x, hx⟩ : ∃ x, firstEv (a :: as) = some x := ⟨_, firstEv_cons a as⟩
  obtain ⟨hmem, least⟩ := firstEv_least hx
  by_contra hne
  have other : x ≠ e := fun same => hne (same ▸ hx)
  exact absurd (least e he) (Nat.not_le.mpr (h x hmem other))

/-- With room in the log a commit loses no record (R432). -/
theorem commitEv_room {s : State} (h : s.log.next - s.log.oldest < 8192) (e : Ev) : s.commitEv e = { s with log := { s.log with
    next := s.log.next + 1, recs := s.log.recs.set {} (s.log.next % 8192) { e with evseq := s.log.next } } } := by
  have room : decide (8192 ≤ s.log.next - s.log.oldest) = false := decide_eq_false (Nat.not_le.mpr h)
  simp [State.commitEv, room]

/-- What a commit leaves in the log (R431, R432). -/
theorem commitEv_log (s : State) (e : Ev) : s.commitEv e = { s with log := (s.commitEv e).log } ∧
    (s.commitEv e).log.held = s.log.held ∧ (s.commitEv e).log.next = s.log.next + 1 ∧
    (s.commitEv e).log.recs.get {} (s.log.next % 8192) = { e with evseq := s.log.next } ∧
    (8192 ≤ s.log.next - s.log.oldest → (s.commitEv e).log.oldest = s.log.oldest + 1) := by
  unfold State.commitEv
  extract_lets k old full lost n s1
  have record : s1.log.recs.get {} (s.log.next % 8192) = { e with evseq := s.log.next } := by simp [s1, k, SMap.get_set]
  have moved : 8192 ≤ s.log.next - s.log.oldest → s1.log.oldest = s.log.oldest + 1 := fun passed => if_pos (decide_eq_true passed)
  split
  · unfold State.post
    split <;> exact ⟨rfl, rfl, rfl, record, moved⟩
  · exact ⟨rfl, rfl, rfl, record, moved⟩

/-! EventPost. -/

theorem writes_eventPost (q : OdReq) {b : List Byte} (hlen : b.length = 44) :
    WritesObject (.eventPost q b) q ⟨0x0D03, 0, 0, .blob 44, .act⟩ 0 b (actEventPost · b) :=
  writesObject_of_put ⟨by decide, by decide, rfl, nofun, decide_eq_true hlen, by decide⟩ (fun _ => rfl) (fun _ => rfl)

theorem State.admits.running {s : State} {q : OdReq} {idx : Nat} {b : List Byte} (h : s.admits q idx b) : s.clock.lost = false := by
  obtain ⟨answers, -, -⟩ := h
  simp only [State.odAnswers, State.busUp, Bool.and_eq_true, Bool.not_eq_true'] at answers
  exact answers.1.1.2

/-- Settles O46, by `commitEv_log` and the event that `firstEv` takes. -/
theorem eventsReachTheLog : Obligations.EventsReachTheLog := by
  refine ⟨fun e rest s hraised hrun => ⟨fun hlate hroom => ?late, fun hheld => ?held⟩,
    fun e s he hleast hrun => ⟨fun hearly => ?early, fun hdue => ?due⟩, fun q b s h hlen => ⟨fun hbad => ?invalid, fun hcode hsev hres => ?posted⟩⟩
  case late =>
    have raise : exec .eventRaise s = .next (({ s with log := { s.log with raised := rest } }).commitEv { e with late := true }) := by
      show execEventRaise s = _
      unfold execEventRaise
      rw [if_neg (by rw [hrun]; nofun), hraised]
      exact if_pos hlate
    exact ⟨_, raise, commitEv_room (s := { s with log := { s.log with raised := rest } }) hroom _⟩
  case held =>
    have raise : exec .eventRaise s = .next { s with log := { s.log with raised := rest, held := s.log.held ++ [e] } } := by
      show execEventRaise s = _
      unfold execEventRaise
      rw [if_neg (by rw [hrun]; nofun), hraised]
      exact if_neg (Nat.not_lt.mpr hheld)
    exact ⟨_, raise, rfl⟩
  case early =>
    have commit : exec .eventCommit s = .next s := by
      show execEventCommit s = _
      unfold execEventCommit
      rw [firstEv_of_unique he hleast]
      exact if_neg fun due => Nat.not_le.mpr hearly due.1
    exact ⟨_, commit, rfl⟩
  case due =>
    have commit : exec .eventCommit s = .next (({ s with log := { s.log with held := s.log.held.erase e } }).commitEv e) := by
      show execEventCommit s = _
      unfold execEventCommit
      rw [firstEv_of_unique he hleast]
      exact if_pos ⟨hdue, hrun⟩
    obtain ⟨frame, held, next, record, passed⟩ := commitEv_log { s with log := { s.log with held := s.log.held.erase e } } e
    refine ⟨_, commit, frame, held, next, record, fun hroom => ?_, passed⟩
    rw [commitEv_room (s := { s with log := { s.log with held := s.log.held.erase e } }) hroom]
    exact ⟨rfl, rfl, rfl⟩
  case invalid =>
    refine (writes_eventPost q hlen).invalid h ?_ rfl
    simp only [actEventPost, Bool.or_eq_true, decide_eq_true_eq]
    tauto
  case posted =>
    have legal : (actEventPost (s.noteAct .act 0x0D03 0 0) b).inv = false := by
      simp [actEventPost, hsev, hres, Nat.not_lt.mpr hcode]
    refine (writes_eventPost q hlen).acts h legal rfl ((if_neg ?_).trans ?_)
    · exact fun lost => Bool.false_ne_true (h.running.symm.trans lost)
    · rw [List.map_map]
      rfl

end Sys2Proof.Machine

/-! SUPPORT. Reads of boot flash after writes and erasures of other ranges (R467). -/

namespace Sys2Proof.SMap

/-- Tables that agree on a range read the same there. -/
theorem gets_congr {α : Type} {d : α} {m m' : SMap α} {a n : Nat} (h : ∀ k, a ≤ k → k < a + n → m.get d k = m'.get d k) :
    m.gets d a n = m'.gets d a n := by
  induction n generalizing a with
  | zero => rfl
  | succ n ih =>
    unfold gets
    rw [h a le_rfl (by omega), ih fun k hlo hhi => h k (by omega) (by omega)]

/-- A range that reads as unlisted. -/
theorem gets_eq_replicate {α : Type} {d e : α} {m : SMap α} {a n : Nat} (h : ∀ k, a ≤ k → k < a + n → m.get d k = e) :
    m.gets d a n = List.replicate n e := by
  induction n generalizing a with
  | zero => rfl
  | succ n ih =>
    unfold gets
    rw [h a le_rfl (by omega), ih fun k hlo hhi => h k (by omega) (by omega), List.replicate_succ]

end Sys2Proof.SMap

namespace Sys2Proof.Machine

section
variable (s : State) {dev off n dev' off' n' : Nat}

theorem flashRead_flashWrite_of_out {bs : List Byte} (h : flashKey dev' off' + n' ≤ flashKey dev off ∨ flashKey dev off + bs.length ≤ flashKey dev' off') :
    (s.flashWrite dev off bs).flashRead dev' off' n' = s.flashRead dev' off' n' :=
  SMap.gets_congr fun k hlo hhi => get_flashWrite_of_out s dev off k bs (by omega)

theorem get_flashErase (k : Nat) : (s.flashErase dev off n).flash.bytes.get 0xFF k =
    if flashKey dev off ≤ k ∧ k < flashKey dev off + n then 0xFF else s.flash.bytes.get 0xFF k := by
  unfold State.flashErase
  simp only [SMap.get_drop, decide_eq_true_eq]

theorem flashRead_flashErase_of_out (h : flashKey dev' off' + n' ≤ flashKey dev off ∨ flashKey dev off + n ≤ flashKey dev' off') :
    (s.flashErase dev off n).flashRead dev' off' n' = s.flashRead dev' off' n' :=
  SMap.gets_congr fun k hlo hhi => (get_flashErase s k).trans (if_neg (by omega))

theorem flashRead_flashErase (hlo : flashKey dev off ≤ flashKey dev' off') (hhi : flashKey dev' off' + n' ≤ flashKey dev off + n) :
    (s.flashErase dev off n).flashRead dev' off' n' = List.replicate n' 0xFF :=
  SMap.gets_eq_replicate fun k _ _ => (get_flashErase s k).trans (if_pos (by omega))

theorem flashErased_flashErase : (s.flashErase dev off n).flashErased dev off n = true := by
  simp only [State.flashErased, State.flashErase, SMap.drop, Bool.not_eq_true', List.any_eq_false, decide_eq_true_eq]
  intro x hx
  have out := (List.mem_filter.mp hx).2
  simpa only [Bool.not_eq_true', decide_eq_false_iff_not] using out

end

/-- The module differs in the bytes of its flash only. -/
def FlashOnly (s t : State) : Prop := t = { s with flash := { s.flash with bytes := t.flash.bytes } }

theorem FlashOnly.trans {s t u : State} (h : FlashOnly s t) (g : FlashOnly t u) : FlashOnly s u := by
  unfold FlashOnly at h g ⊢
  rw [g, h]

theorem flashOnly_flashWrite (s : State) (dev off : Nat) (bs : List Byte) : FlashOnly s (s.flashWrite dev off bs) := rfl

theorem flashOnly_flashErase (s : State) (dev off n : Nat) : FlashOnly s (s.flashErase dev off n) := rfl

theorem flashOnly_forEach {α : Type} (s : State) (xs : List α) {f : State → α → State} (hf : ∀ u x, FlashOnly u (f u x)) :
    FlashOnly s (s.forEach xs f) :=
  List.foldlRecOn (motive := FlashOnly s) xs f rfl (fun u kept x _ => kept.trans (hf u x))

/-! The records (R429). -/

section
variable (s : State) (b : List Byte)

theorem flashOnly_eraseRecords : FlashOnly s s.eraseRecords :=
  flashOnly_forEach s _ fun u d => (flashOnly_flashErase u d _ _).trans (flashOnly_flashErase _ d _ _)

theorem flashOnly_writeRecords : FlashOnly s (s.writeRecords b) :=
  (flashOnly_eraseRecords s).trans (flashOnly_forEach _ _ fun u d => (flashOnly_flashWrite u d _ _).trans (flashOnly_flashWrite _ d _ _))

/-- Both devices hold both records. -/
theorem flashRead_writeRecords {b : List Byte} (hlen : b.length = 2100) {d : Nat} (hd : d < 2) :
    (s.writeRecords b).flashRead d 0x1810000 75 = b.take 75 ∧ (s.writeRecords b).flashRead d 0x1820000 2025 = b.drop 75 := by
  have written : s.writeRecords b = (((s.eraseRecords.flashWrite 0 0x1810000 (b.take 75)).flashWrite 0 0x1820000 (b.drop 75)).flashWrite
    1 0x1810000 (b.take 75)).flashWrite 1 0x1820000 (b.drop 75) := by
    simp only [State.writeRecords, State.forEach, List.foldl_cons, List.foldl_nil, cfgOff, secOff, cfgLen]
  have short : (b.take 75).length = 75 := by rw [List.length_take]; omega
  have long : (b.drop 75).length = 2025 := by rw [List.length_drop]; omega
  have first : ∀ (u : State) (e : Nat), (u.flashWrite e 0x1810000 (b.take 75)).flashRead e 0x1810000 75 = b.take 75 := by
    intro u e
    have same := flashRead_flashWrite u e 0x1810000 (b.take 75)
    rwa [short] at same
  have second : ∀ (u : State) (e : Nat), (u.flashWrite e 0x1820000 (b.drop 75)).flashRead e 0x1820000 2025 = b.drop 75 := by
    intro u e
    have same := flashRead_flashWrite u e 0x1820000 (b.drop 75)
    rwa [long] at same
  have apart : ∀ (u : State) (e o : Nat) (bs : List Byte) (e' o' n' : Nat),
      (e' * 2 ^ 26 + o' + n' ≤ e * 2 ^ 26 + o ∨ e * 2 ^ 26 + o + bs.length ≤ e' * 2 ^ 26 + o') →
      (u.flashWrite e o bs).flashRead e' o' n' = u.flashRead e' o' n' := fun u e o bs e' o' n' h => flashRead_flashWrite_of_out u h
  rw [written]
  obtain rfl | rfl : d = 0 ∨ d = 1 := by omega
  · exact ⟨by rw [apart _ _ _ _ _ _ _ (by omega), apart _ _ _ _ _ _ _ (by omega), apart _ _ _ _ _ _ _ (by omega), first],
      by rw [apart _ _ _ _ _ _ _ (by omega), apart _ _ _ _ _ _ _ (by omega), second]⟩
  · exact ⟨by rw [apart _ _ _ _ _ _ _ (by omega), first], second _ _⟩

/-- Both areas of both devices are erased. -/
theorem flashRead_eraseRecords {d : Nat} (hd : d < 2) {i : Nat} (hi : i < 0x10000) :
    s.eraseRecords.flashRead d (0x1810000 + i) 1 = [0xFF] ∧ s.eraseRecords.flashRead d (0x1820000 + i) 1 = [0xFF] := by
  have erased : s.eraseRecords = (((s.flashErase 0 0x1810000 0x10000).flashErase 0 0x1820000 0x10000).flashErase
    1 0x1810000 0x10000).flashErase 1 0x1820000 0x10000 := by
    simp only [State.eraseRecords, State.forEach, List.foldl_cons, List.foldl_nil, cfgOff, secOff, areaLen]
  have within : ∀ (u : State) (e o : Nat), (u.flashErase e o 0x10000).flashRead e (o + i) 1 = [0xFF] := fun u e o =>
    flashRead_flashErase u (by unfold flashKey; omega) (by unfold flashKey; omega)
  have apart : ∀ (u : State) (e o e' o' : Nat), (e' * 2 ^ 26 + o' + 1 ≤ e * 2 ^ 26 + o ∨ e * 2 ^ 26 + o + 0x10000 ≤ e' * 2 ^ 26 + o') →
      (u.flashErase e o 0x10000).flashRead e' o' 1 = u.flashRead e' o' 1 := fun u e o e' o' h => flashRead_flashErase_of_out u h
  rw [erased]
  obtain rfl | rfl : d = 0 ∨ d = 1 := by omega
  · exact ⟨by rw [apart _ _ _ _ _ (by omega), apart _ _ _ _ _ (by omega), apart _ _ _ _ _ (by omega), within],
      by rw [apart _ _ _ _ _ (by omega), apart _ _ _ _ _ (by omega), within]⟩
  · exact ⟨by rw [apart _ _ _ _ _ (by omega), within], within _ _ _⟩

end

/-! What ends a save or an erasure (R429). -/

/-- A save or an erasure is over, with its result. -/
def State.cfgEnds (s : State) (result : Nat) : State := { s with flash := { s.flash with cfgBusy := none, cfgResult := result } }

section
variable {s : State} {job : Option (List Byte)} (hup : s.busUp = true) (hjob : s.flash.cfgBusy = some job)
include hup hjob

theorem exec_configDone (ok : Bool) : exec (.configDone ok) s = .next (
    if (s.hub 0).fenced then s.cfgEnds 1
    else if ok then job.elim (s.cfgEnds 0).eraseRecords (s.cfgEnds 0).writeRecords
    else ((s.cfgEnds 1).freeBytes (cfgLen + secLen)).1.writeRecords ((s.cfgEnds 1).freeBytes (cfgLen + secLen)).2) := by
  have begun : (if s.busUp then s.flash.cfgBusy else none) = some job := (if_pos hup).trans hjob
  show execConfigDone ok s = _
  unfold execConfigDone
  split
  next h => rw [begun] at h; nomatch h
  next job' h =>
    obtain rfl : job = job' := Option.some.inj (begun.symm.trans h)
    have ended : ∀ n, s.updFlash (fun f => { f with cfgBusy := none, cfgResult := n }) = s.cfgEnds n := fun _ => rfl
    simp only [ended]
    cases (s.hub 0).fenced <;> cases ok <;> cases job <;> simp

end

end Sys2Proof.Machine

/-! SUPPORT. The firmware slots (R443, R469, R487), and the settlement of O47. -/

namespace Sys2Proof.Machine

section
variable (q : OdReq) (v : BitVec 8) (b : List Byte)

theorem writes_configSave : WritesObject (.configSave q v) q ⟨0x0203, 0, 0, .u8, .act⟩ 0 (leBytes 1 v.toNat) actConfigSave :=
  writesObject_of_put ⟨by decide, by decide, rfl, nofun, rfl, by decide⟩ (fun _ => rfl) (fun _ => rfl)

theorem writes_configErase : WritesObject (.configErase q v) q ⟨0x0204, 0, 0, .u8, .act⟩ 0 (leBytes 1 v.toNat) actConfigErase :=
  writesObject_of_put ⟨by decide, by decide, rfl, nofun, rfl, by decide⟩ (fun _ => rfl) (fun _ => rfl)

theorem writes_fwSlotErase : WritesObject (.fwSlotErase q v) q ⟨0x0E81, 0, 0, .u8, .act⟩ 0 (leBytes 1 v.toNat) actFwSlotErase :=
  writesObject_of_put ⟨by decide, by decide, rfl, nofun, rfl, by decide⟩ (fun _ => rfl) (fun _ => rfl)

theorem writes_fwSlotData {b : List Byte} (hlen : b.length = 256) (ok : Bool) :
    WritesObject (.fwSlotData q b ok) q ⟨0x0E83, 0, 0, .blob 256, .act⟩ 0 b (actFwSlotData · b ok) :=
  ⟨⟨by decide, by decide, rfl, nofun, decide_eq_true hlen, by decide⟩, fun _ => rfl⟩

theorem writes_fwActivate : WritesObject (.fwActivate q v) q ⟨0x0E84, 0, 0, .u8, .act⟩ 0 (leBytes 1 v.toNat) actFwActivate :=
  writesObject_of_put ⟨by decide, by decide, rfl, nofun, rfl, by decide⟩ (fun _ => rfl) (fun _ => rfl)

end

/-- What a save or an erasure that ends well leaves. -/
theorem ends_flashOnly {s t : State} (h : FlashOnly (s.cfgEnds 0) t) : t = { s with flash := t.flash } ∧
    t.flash = { s.flash with bytes := t.flash.bytes, cfgBusy := none, cfgResult := 0 } := by
  unfold FlashOnly at h
  exact ⟨by rw [h]; rfl, by rw [h]; rfl⟩

/-! The ends of an erasure (R487). -/

/-- The erasure of the inactive slot is over, with its result. -/
def State.fwEnds (s : State) (result : Nat) : State := { s with flash := { s.flash with fwErasing := false, fwResult := result } }

theorem exec_fwSlotEraseDone {s : State} (herase : s.flash.fwErasing = true) (hup : s.busUp = true) (ok : Bool) :
    exec (.fwSlotEraseDone ok) s = .next (
      if (s.hub 0).fenced then s.fwEnds 1
      else if ok then (s.fwEnds 0).flashErase s.flash.fwTarget 0 slotLen
      else ((s.fwEnds 1).freeBytes slotLen).1.flashWrite s.flash.fwTarget 0 ((s.fwEnds 1).freeBytes slotLen).2) := by
  have ended : ∀ n, s.updFlash (fun f => { f with fwErasing := false, fwResult := n }) = s.fwEnds n := fun _ => rfl
  show execFwSlotEraseDone ok s = _
  unfold execFwSlotEraseDone
  rw [if_neg (by rw [herase, hup]; nofun)]
  simp only [ended]
  cases (s.hub 0).fenced <;> cases ok <;> simp

theorem flashOnly_freeBytes_write (s : State) (n dev off : Nat) : (s.freeBytes n).1.flashWrite dev off (s.freeBytes n).2 =
    { s with
      freeCtr := s.freeCtr + n,
      flash := { s.flash with bytes := ((s.freeBytes n).1.flashWrite dev off (s.freeBytes n).2).flash.bytes } } := rfl

/-! A page (R487). -/

theorem flashRead_of_bytes {s t : State} (h : t.flash.bytes = s.flash.bytes) (dev off n : Nat) : t.flashRead dev off n = s.flashRead dev off n := by
  rw [State.flashRead, State.flashRead, h]

theorem flash_fwResult {s t : State} (h : t.flash = { s.flash with bytes := t.flash.bytes }) (n : Nat) :
    (t.updFlash (fun f => { f with fwResult := n })).flash =
      { s.flash with bytes := (t.updFlash (fun f => { f with fwResult := n })).flash.bytes, fwResult := n } :=
  congrArg (fun f : FlashSt => { f with fwResult := n }) h

section
variable {s : State} {b : List Byte}

theorem fwSlotData_good (hlen : b.length = 256) (hfen : (s.hub 0).fenced = false) :
    (actFwSlotData s b true).eff.flashRead s.flash.fwTarget s.flash.fwOffset 256 = b ∧
    (actFwSlotData s b true).eff.flash = { s.flash with
      bytes := (actFwSlotData s b true).eff.flash.bytes, fwOffset := s.flash.fwOffset + 256, fwResult := 0 } := by
  have programs : (actFwSlotData s b true).eff = (s.flashWrite s.flash.fwTarget s.flash.fwOffset b).updFlash (fun f => { f with
      fwOffset := s.flash.fwOffset + 256, fwResult := 0 }) := (if_neg (by rw [hfen]; nofun)).trans (if_pos rfl)
  have read := flashRead_flashWrite s s.flash.fwTarget s.flash.fwOffset b
  rw [hlen] at read
  rw [programs]
  refine ⟨Eq.trans ?_ read, rfl⟩
  exact flashRead_of_bytes rfl _ _ _

theorem fwSlotData_bad (hfen : (s.hub 0).fenced = false) :
    (actFwSlotData s b false).eff.flash = { s.flash with bytes := (actFwSlotData s b false).eff.flash.bytes, fwResult := 1 } := by
  have fails : (actFwSlotData s b false).eff = ((s.freeBytes 256).1.flashWrite s.flash.fwTarget s.flash.fwOffset (s.freeBytes 256).2).updFlash
      (fun f => { f with fwResult := 1 }) := (if_neg (by rw [hfen]; nofun)).trans (if_neg nofun)
  have written := congrArg State.flash (flashOnly_freeBytes_write s 256 s.flash.fwTarget s.flash.fwOffset)
  rw [fails]
  exact flash_fwResult written 1

/-! Activation (R443, R469). -/

/-- The boot selectors of both devices name a slot. -/
def State.selectSlot (s : State) (slot : Nat) : State :=
  s.forEach [0, 1] (fun s d => (s.flashErase d selOff 0x1000).flashWrite d selOff (leBytes 1 slot))

theorem flashOnly_selectSlot (s : State) (slot : Nat) : FlashOnly s (s.selectSlot slot) :=
  flashOnly_forEach s _ fun u d => (flashOnly_flashErase u d _ _).trans (flashOnly_flashWrite _ d _ _)

theorem flashRead_selectSlot (s : State) (slot : Nat) {d : Nat} (hd : d < 2) : (s.selectSlot slot).flashRead d 0x1800000 1 = leBytes 1 slot := by
  have selected : s.selectSlot slot = (((s.flashErase 0 0x1800000 0x1000).flashWrite 0 0x1800000 (leBytes 1 slot)).flashErase
      1 0x1800000 0x1000).flashWrite 1 0x1800000 (leBytes 1 slot) := by
    simp only [State.selectSlot, State.forEach, List.foldl_cons, List.foldl_nil, selOff]
  have one : ∀ (u : State) (e : Nat), (u.flashWrite e 0x1800000 (leBytes 1 slot)).flashRead e 0x1800000 1 = leBytes 1 slot := fun u e =>
    flashRead_flashWrite u e 0x1800000 (leBytes 1 slot)
  rw [selected]
  obtain rfl | rfl : d = 0 ∨ d = 1 := by omega
  · rw [flashRead_flashWrite_of_out _ (.inl (by unfold flashKey; omega)), flashRead_flashErase_of_out _ (.inl (by unfold flashKey; omega)), one]
  · exact one _ 1

theorem flash_post (s : State) (code sev src : Nat) (args : List Nat) : (s.post code sev src args).flash = s.flash := by
  rw [memOnly_post s code sev src args]

theorem fwActivate_good (hfen : (s.hub 0).fenced = false) (hok : s.fwOk s.flash.fwTarget = true) :
    (actFwActivate s).eff.flash = { s.flash with bytes := (actFwActivate s).eff.flash.bytes, fwResult := 0 } ∧
    ∀ d, d < 2 → (actFwActivate s).eff.flashRead d 0x1800000 1 = leBytes 1 s.flash.fwTarget := by
  have activates : (actFwActivate s).eff = ((s.selectSlot s.flash.fwTarget).updFlash (fun f => { f with fwResult := 0 })).post 0x0E03 1
      (srcHub 0 0x55) [s.flash.fwTarget, fwSvn (s.fwHdr s.flash.fwTarget)] := (if_neg (by rw [hfen]; nofun)).trans (if_pos hok)
  have flash : (actFwActivate s).eff.flash = { (s.selectSlot s.flash.fwTarget).flash with fwResult := 0 } := by
    rw [activates, flash_post]
    rfl
  refine ⟨?_, fun d hd => ?_⟩
  · rw [flash, flashOnly_selectSlot s s.flash.fwTarget]
  · have bytes : (actFwActivate s).eff.flash.bytes = (s.selectSlot s.flash.fwTarget).flash.bytes := by rw [flash]
    exact (flashRead_of_bytes bytes d 0x1800000 1).trans (flashRead_selectSlot s _ hd)

end

/-- Settles O47, by what the writes and the erasures leave in flash. -/
theorem flashRecordsAndSlots : Obligations.FlashRecordsAndSlots := by
  refine ⟨⟨fun q v s => ⟨fun h hidle => ?save, fun h hbusy => ?saving, fun h hidle => ?erase, fun h hbusy => ?erasing⟩,
    fun s hup => ⟨fun hbusy hfen ok => ?lost, fun b hjob hlen hfen => ?saved, fun hjob hfen => ?erased, fun hbusy => ?failed⟩⟩,
    fun q v s h => ⟨fun hidle => ?slot, fun hbusy => ?busy⟩, fun ok s herase hup hfen => ?slotLost, fun ok s herase hup hfen => ?slotErased,
    fun q b ok s h hlen => ⟨fun hlong => ?long, fun hfits hbad => ?refused, fun hfits hidle herased => ?page⟩, fun q v s h hidle => ?activate⟩
  case save => exact (writes_configSave q v).acts h rfl (by simp [actConfigSave, State.noteAct, hidle]) rfl
  case saving => exact (writes_configSave q v).refused h rfl (Option.isSome_iff_ne_none.mpr hbusy) rfl
  case erase => exact (writes_configErase q v).acts h rfl (by simp [actConfigErase, State.noteAct, hidle]) rfl
  case erasing => exact (writes_configErase q v).refused h rfl (Option.isSome_iff_ne_none.mpr hbusy) rfl
  case lost =>
    obtain ⟨job, hjob⟩ := Option.ne_none_iff_exists'.mp hbusy
    exact ⟨_, exec_configDone hup hjob ok, if_pos hfen⟩
  case saved =>
    have runs : exec (.configDone true) s = .next ((s.cfgEnds 0).writeRecords b) := by
      rw [exec_configDone hup hjob true, if_neg (by rw [hfen]; nofun), if_pos rfl, Option.elim]
    obtain ⟨frame, flash⟩ := ends_flashOnly (flashOnly_writeRecords (s.cfgEnds 0) b)
    exact ⟨_, runs, frame, flash, fun d hd => flashRead_writeRecords _ hlen hd⟩
  case erased =>
    have runs : exec (.configDone true) s = .next (s.cfgEnds 0).eraseRecords := by
      rw [exec_configDone hup hjob true, if_neg (by rw [hfen]; nofun), if_pos rfl, Option.elim]
    obtain ⟨frame, flash⟩ := ends_flashOnly (flashOnly_eraseRecords (s.cfgEnds 0))
    exact ⟨_, runs, frame, flash, fun d i hd hi => flashRead_eraseRecords _ hd hi⟩
  case failed =>
    obtain ⟨job, hjob⟩ := Option.ne_none_iff_exists'.mp hbusy
    refine ⟨_, exec_configDone hup hjob false, ?_⟩
    cases (s.hub 0).fenced with
    | true => exact ⟨rfl, rfl, rfl, rfl⟩
    | false =>
      rw [if_neg nofun, if_neg nofun, flashOnly_writeRecords ((s.cfgEnds 1).freeBytes (cfgLen + secLen)).1 _]
      exact ⟨rfl, rfl, rfl, rfl⟩
  case slot => exact (writes_fwSlotErase q v).acts h rfl hidle rfl
  case busy => exact (writes_fwSlotErase q v).refused h rfl hbusy rfl
  case slotLost => exact ⟨_, exec_fwSlotEraseDone herase hup ok, if_pos hfen⟩
  case slotErased =>
    have runs := (exec_fwSlotEraseDone herase hup ok).trans (congrArg Host.Outcome.next (if_neg (by rw [hfen]; nofun)))
    cases ok with
    | true => exact ⟨_, runs.trans (congrArg Host.Outcome.next (if_pos rfl)), rfl, rfl, fun _ => flashErased_flashErase _⟩
    | false =>
      have written := flashOnly_freeBytes_write (s.fwEnds 1) slotLen s.flash.fwTarget 0
      generalize slotLen = n at runs written
      refine ⟨_, runs.trans (congrArg Host.Outcome.next (if_neg nofun)), ?_⟩
      rw [written]
      exact ⟨rfl, rfl, nofun⟩
  case long => exact (writes_fwSlotData q hlen ok).invalid h (decide_eq_true hlong) rfl
  case refused =>
    refine (writes_fwSlotData q hlen ok).refused h (decide_eq_false (Nat.not_lt.mpr hfits)) ?_ rfl
    rcases hbad with busy | full
    · exact (congrArg (· || _) busy).trans (Bool.true_or _)
    · exact (congrArg (_ || !·) full).trans (Bool.or_true _)
  case page =>
    have calm : (s.fwBusy || !s.flashErased s.flash.fwTarget s.flash.fwOffset 256) = false := by rw [hidle, herased]; rfl
    refine (writes_fwSlotData q hlen ok).acts h (decide_eq_false (Nat.not_lt.mpr hfits)) calm ⟨?_, ?_, fun hfen => ?_⟩
    · rintro rfl hfen
      exact fwSlotData_good (s := s.noteAct .act 0x0E83 0 0) hlen hfen
    · rintro rfl hfen
      exact fwSlotData_bad (s := s.noteAct .act 0x0E83 0 0) hfen
    · exact if_pos hfen
  case activate =>
    refine (writes_fwActivate q v).acts h rfl hidle ⟨fun hfen => if_pos hfen, fun hfen hbad => ?_, fun hfen hok => ?_⟩
    · refine (if_neg (by rw [show ((s.noteAct .act 0x0E84 0 0).hub 0).fenced = false from hfen]; nofun)).trans (if_neg fun hok => ?_)
      exact Bool.false_ne_true (hbad.symm.trans hok)
    · exact fwActivate_good (s := s.noteAct .act 0x0E84 0 0) hfen hok

end Sys2Proof.Machine

/-! SUPPORT. The parity engines and a port that goes DOWN leave the standing of the module as it is (R279, R359 to R372). -/

namespace Sys2Proof.Machine

section
variable (s : State)

@[simp] theorem standing_updPar (n : Nat) (f : ParSt → ParSt) : (s.updPar n f).standing = s.standing :=
  standing_updHub s n fun _ => ⟨rfl, rfl, rfl⟩

@[simp] theorem standing_setHusk (x : HuskSt) : State.standing { s with husk := x } = s.standing := rfl

@[simp] theorem standing_chunkWrite (o : Nat) (bs : List Byte) : (s.chunkWrite o bs).standing = s.standing :=
  standing_localWrite s deviceStream o bs 1

/-! Pulls and the moves of an engine. -/

@[simp] theorem standing_parError (n status entry : Nat) : (s.parError n status entry).standing = s.standing := by
  simp [State.parError]

@[simp] theorem standing_pullFailed (n m status : Nat) : (s.pullFailed n m status).standing = s.standing := by
  simp only [State.pullFailed]
  split <;> simp

@[simp] theorem standing_pullPacket (n m dev off pos len : Nat) : (s.pullPacket n m dev off pos len).standing = s.standing := by
  simp only [State.pullPacket]
  split <;> simp

@[simp] theorem standing_pull (n m dev off pos len : Nat) : (s.pull n m dev off pos len).standing = s.standing := by
  unfold State.pull
  split
  · dsimp only
    split <;> simp
  · exact standing_forEach s _ fun u k => standing_pullPacket u n m dev _ _ _

@[simp] theorem standing_entryDone (n : Nat) : (s.entryDone n).standing = s.standing := standing_updPar s n _

@[simp] theorem standing_nextEntry (n : Nat) : (s.nextEntry n).1.standing = s.standing := by
  simp only [State.nextEntry]
  (repeat' split) <;> simp

@[simp] theorem standing_initMove (n i : Nat) : (s.initMove n i).1.standing = s.standing := by
  simp only [State.initMove]
  split <;> simp

@[simp] theorem standing_foldMove (n : Nat) : (s.foldMove n).1.standing = s.standing := by
  simp only [State.foldMove]
  (repeat' split) <;> simp

@[simp] theorem standing_rebuildWrite (n len : Nat) (need er : List Nat) : (s.rebuildWrite n len need er).1.standing = s.standing := by
  unfold State.rebuildWrite
  extract_lets w opened
  split
  · simp
  · exact (standing_entryDone _ n).trans ((standing_setHusk _ _).trans (standing_chunkWrite s _ _))

@[simp] theorem standing_rebuildMove (n i : Nat) : (s.rebuildMove n i).1.standing = s.standing := by
  simp only [State.rebuildMove]
  (repeat' split) <;> simp

@[simp] theorem standing_parMove (n : Nat) : (s.parMove n).1.standing = s.standing := by
  simp only [State.parMove]
  (repeat' split) <;> simp

@[simp] theorem standing_parRun (n k : Nat) : (s.parRun n k).standing = s.standing := by
  induction k generalizing s with
  | zero => rfl
  | succ k ih =>
    simp only [State.parRun]
    split <;> simp [ih]

@[simp] theorem standing_parGo (n : Nat) : (s.parGo n).standing = s.standing := standing_parRun s n _

/-! Outstanding requests that end. -/

@[simp] theorem standing_sendAdd (c : Nat) (g : GateAdd) : (s.sendAdd c g).standing = s.standing := by
  simp only [State.sendAdd]
  split <;> simp

@[simp] theorem standing_signalFree (c : Nat) : (s.signalFree c).standing = s.standing := by
  simp only [State.signalFree, State.signalNow]
  (repeat' split) <;> simp

@[simp] theorem standing_endTxn (t : Txn) (status : Nat) : (s.endTxn t status).standing = s.standing := by
  unfold State.endTxn
  split <;> simp [State.respond, State.pullErr]

@[simp] theorem standing_failTxns (p : Nat) : (s.failTxns p).standing = s.standing := by
  simp [State.failTxns]

/-! Ports. -/

@[simp] theorem standing_leaveUp (p cause : Nat) (keep : Bool) : (s.leaveUp p cause keep).standing = s.standing := by
  unfold State.leaveUp
  extract_lets s1 _ s2 drop
  have emptied : s1.standing = s.standing := standing_updPort s p _
  have dropped : s2.standing = s1.standing := standing_of_units rfl rfl rfl
  simp [dropped, emptied]

@[simp] theorem standing_unalign (cause : Nat) : (s.unalign cause).standing = s.standing := by
  rw [unalign_frame]
  rfl

/-- A port that goes DOWN for another cause than the loss of its signal or its peer. -/
theorem standing_portDown (p : Nat) {cause : Nat} (h1 : cause ≠ 1) (h2 : cause ≠ 2) : (s.portDown p cause).standing = s.standing := by
  unfold State.portDown
  extract_lets old s1 s2 s3 s4
  have left : s1.standing = s.standing := (apply_ite State.standing _ _ _).trans (by simp)
  have down : s2.standing = s1.standing := standing_updPort s1 p _
  have unaligned : s3.standing = s2.standing := (apply_ite State.standing _ _ _).trans (by simp)
  have unchecked : s4 = s3 := if_neg (by omega)
  rw [standing_lifeRefresh, unchecked, unaligned, down, left]

theorem standing_portsDown : s.portsDown.standing = s.standing :=
  standing_forEach s _ fun u p => standing_portDown u p (by decide) (by decide)

end

theorem logHub_of_standing {s t : State} (h : t.standing = s.standing) : t.logHub = s.logHub := by
  have fence : (t.hub 0).fenced = (s.hub 0).fenced := congrFun (congrArg Standing.fenced h) 0
  rw [State.logHub, State.logHub, fence]

end Sys2Proof.Machine

/-! SUPPORT. What an answer and an event leave as they are, and the settlement of O49. -/

namespace Sys2Proof.Machine

theorem answer_frame (s : State) (q : OdReq) (st : Nat) : s.answer q st = { s with cpus := (s.answer q st).cpus } := by
  unfold State.answer
  cases q.cpu <;> rfl

theorem post_frame (s : State) (code sev src : Nat) (args : List Nat) : s.post code sev src args = { s with
    log := (s.post code sev src args).log } := by
  unfold State.post
  split <;> rfl

/-- An accepted action, for a statement that the outcome is given by cases. -/
theorem Acts.gives {i : Instr} {q : OdReq} {s : State} {P Q : State → Prop} (h : Acts i q s P) (hPQ : ∀ u, P u → Q (u.answer q 0)) :
    Gives i s Q := by
  obtain ⟨t, runs, u, answered, hP⟩ := h
  exact ⟨t, runs, answered ▸ hPQ u hP⟩

/-! Ports that go DOWN for the security block (R279, R451, R461). -/

theorem downed_portsDown (s : State) : Downed s s.portsDown (allPorts.filter (fun p => decide (2 ≤ (s.port p).st))) :=
  downed_forEach s _ (by decide) (by decide)

theorem st_portsDown {s : State} {p : Nat} (hp : p < 40) (hup : 2 ≤ (s.port p).st) : (s.portsDown.port p).st = 1 :=
  (downed_portsDown s).port_of hp (decide_eq_true hup)

/-! Actions of the security block. -/

section
variable (q : OdReq) (v : BitVec 8) (b : List Byte)

theorem writes_ownerCommit : WritesObject (.ownerCommit q v) q ⟨0x0C05, 0, 0, .u8, .act⟩ 0 (leBytes 1 v.toNat) actOwnerCommit :=
  writesObject_of_put ⟨by decide, by decide, rfl, nofun, rfl, by decide⟩ (fun _ => rfl) (fun _ => rfl)

theorem writes_svnRaise : WritesObject (.svnRaise q v) q ⟨0x0C24, 0, 0, .u8, .act⟩ 0 (leBytes 1 v.toNat) actSvnRaise :=
  writesObject_of_put ⟨by decide, by decide, rfl, nofun, rfl, by decide⟩ (fun _ => rfl) (fun _ => rfl)

theorem writes_jobKey {b : List Byte} (hlen : b.length = 40) :
    WritesObject (.jobKey q b) q ⟨0x0C10, 0, 0, .blob 40, .wo⟩ 0 b (actJobKey · b) :=
  writesObject_of_put ⟨by decide, by decide, rfl, nofun, decide_eq_true hlen, by decide⟩ (fun _ => rfl) (fun _ => rfl)

theorem writes_jobRelease : WritesObject (.jobRelease q v) q ⟨0x0C12, 0, 0, .u8, .act⟩ 0 (leBytes 1 v.toNat) actJobRelease :=
  writesObject_of_put ⟨by decide, by decide, rfl, nofun, rfl, by decide⟩ (fun _ => rfl) (fun _ => rfl)

theorem writes_jobImage {b : List Byte} (hlen : b.length = 32) (k : Fin 16) :
    WritesObject (.jobImageListWrite q k b) q ⟨0x0C13, 1, 16, .blob 32, .rw⟩ (k.val + 1) b (actJobImage · (k.val + 1) b) :=
  writesObject_of_put ⟨by decide, ⟨Nat.le_add_left _ _, k.isLt⟩, rfl, nofun, decide_eq_true hlen, by decide⟩ (fun _ => rfl) (fun _ => rfl)

theorem writes_attestNonce {b : List Byte} (hlen : b.length = 32) :
    WritesObject (.attestNonce q b) q ⟨0x0C21, 0, 0, .blob 32, .act⟩ 0 b (actAttestNonce · b) :=
  writesObject_of_put ⟨by decide, by decide, rfl, nofun, decide_eq_true hlen, by decide⟩ (fun _ => rfl) (fun _ => rfl)

theorem writes_debugUnlock : WritesObject (.debugUnlock q v) q ⟨0x0C33, 0, 0, .u8, .act⟩ 0 (leBytes 1 v.toNat) actDebugUnlock :=
  writesObject_of_put ⟨by decide, by decide, rfl, nofun, rfl, by decide⟩ (fun _ => rfl) (fun _ => rfl)

end

/-! Ownership (R451). -/

/-- The module once a voucher has burnt its fuse. -/
def State.burnt (s : State) : State :=
  if vKind s.sec.voucher = 3 then { s.updSec (fun x => { x with ownerPub := zeros 1952 }) with fuses := s.fuses.release (vSlot s.sec.voucher) }
  else { s.updSec (fun x => { x with ownerPub := x.ownerKey }) with fuses := s.fuses.burn (vNew s.sec.voucher) }

/-- What belongs to the last owner is erased. -/
def State.disowned (s : State) : State :=
  (((({ s.eraseJob with jobImages := [] } : State).setFmKey (zeros 32)).updSec (fun x => { x with credFloor := 0 })).noteMr2)

/-- What the last owner has left. -/
structure State.Bare (s : State) : Prop where
  jobKey : s.jobKey = []
  jobId : s.sec.jobId = 0
  jobImages : s.jobImages = []
  fmKey : s.sec.fmKey = zeros 32
  credFloor : s.sec.credFloor = 0

theorem disowned_bare (s : State) : s.disowned.Bare := ⟨rfl, rfl, rfl, rfl, rfl⟩

/-- Ports that go DOWN give nothing back. -/
theorem State.Bare.downed {s t : State} {ps : List Nat} (h : s.Bare) (down : Downed s t ps) : t.Bare := by
  obtain ⟨jobKey, jobId, jobImages, fmKey, credFloor⟩ := h
  have sec : t.sec = s.sec := by rw [down.frame]
  exact ⟨by rw [down.frame]; exact jobKey, by rw [sec, jobId], by rw [down.frame]; exact jobImages, by rw [sec, fmKey], by rw [sec, credFloor]⟩

theorem State.Bare.setLog {s : State} (h : s.Bare) (g : LogSt) : State.Bare { s with log := g } :=
  ⟨h.jobKey, h.jobId, h.jobImages, h.fmKey, h.credFloor⟩

theorem ports_disowned (s : State) : s.disowned.ports = s.ports := by simp [State.disowned, State.noteMr2, State.extendMr2, State.setFmKey, State.eraseJob]

theorem ports_burnt (s : State) : s.burnt.ports = s.ports := by
  unfold State.burnt
  split <;> rfl

theorem ownerCommit_eff (s : State) : (actOwnerCommit s).eff =
    s.burnt.disowned.portsDown.post 0x0C01 1 s.srcSec [vKind s.sec.voucher, vSlot s.sec.voucher] := rfl

/-- What an accepted voucher leaves of the state `s` (R451). -/
structure State.Handed (s u : State) : Prop where
  fuses : u.fuses = if vKind s.sec.voucher = 3 then { s.fuses with released := s.fuses.released ++ [vSlot s.sec.voucher] }
    else { s.fuses with slots := s.fuses.slots ++ [vNew s.sec.voucher] }
  bare : u.Bare
  ports : ∀ p, p < 40 → 2 ≤ (s.port p).st → (u.port p).st = 1

theorem handed_ownerCommit (s : State) : s.Handed (actOwnerCommit s).eff := by
  have ports : ∀ p, s.burnt.disowned.port p = s.port p := fun p => by rw [State.port, State.port, ports_disowned, ports_burnt]
  refine ⟨fuses_ownerCommit s, ?_, ?_⟩ <;> rw [ownerCommit_eff, post_frame]
  · exact ((disowned_bare s.burnt).downed (downed_portsDown s.burnt.disowned)).setLog _
  · exact fun p hp hup => st_portsDown hp (by rw [ports]; exact hup)

/-- Only the voucher, the fuses and the ports of the state before count. -/
theorem State.Handed.of_same {r s u : State} (h : r.Handed u) (hvoucher : s.sec.voucher = r.sec.voucher) (hfuses : s.fuses = r.fuses)
    (hports : s.ports = r.ports) : s.Handed u := by
  obtain ⟨fuses, bare, ports⟩ := h
  exact ⟨by rw [hvoucher, hfuses]; exact fuses, bare, fun p hp hup => ports p hp (by rwa [State.port, hports] at hup)⟩

/-! SvnRaise (R444). -/

theorem svnRaise_spec {s : State} (h : s.fuses.svnFloor < s.sec.runningSvn) :
    let u := (actSvnRaise s).eff
    u.fuses = { s.fuses with svnFloor := s.sec.runningSvn } ∧ u.sec = { s.sec with mr2 := extendMr s.sec.mr2 u.mr2Input } ∧ u.cores = s.cores ∧
    u.mem = s.mem := by
  have raised : s.fuses.raise s.sec.runningSvn = { s.fuses with svnFloor := s.sec.runningSvn } := by
    rw [FuseSt.raise, Nat.max_eq_right (Nat.le_of_lt h)]
  dsimp only [actSvnRaise]
  rw [raised, post_frame]
  exact ⟨rfl, rfl, rfl, rfl⟩

/-- Settles O49, by `handed_ownerCommit` and `svnRaise_spec`. -/
theorem ownershipMovesFuses : Obligations.OwnershipMovesFuses := by
  refine ⟨fun q v s h => ?commit, fun q v s h => ⟨fun hbelow => ?raise, fun habove => ?invalid⟩⟩
  case commit =>
    have write := writes_ownerCommit q v
    have noted : (s.noteAct .act 0x0C05 0 0).voucherOk = s.voucherOk := rfl
    cases hok : s.voucherOk with
    | false =>
      obtain ⟨t, runs, invalid⟩ := write.invalid h (by simp [actOwnerCommit, noted, hok]) rfl
      exact ⟨t, runs, fun _ => invalid, nofun, nofun⟩
    | true =>
      have legal : (actOwnerCommit (s.noteAct .act 0x0C05 0 0)).inv = false := by simp [actOwnerCommit, noted, hok]
      have busy_iff : (actOwnerCommit (s.noteAct .act 0x0C05 0 0)).bad = true ↔ s.schedBusy = true ∨ ¬ (s.husk.st = 0 ∨ s.husk.st = 12) := by
        simp only [actOwnerCommit, Bool.or_eq_true, Bool.not_eq_true', decide_eq_false_iff_not]
        exact Iff.rfl
      cases hbad : (actOwnerCommit (s.noteAct .act 0x0C05 0 0)).bad with
      | true =>
        obtain ⟨t, runs, refused⟩ := write.refused h legal hbad rfl
        exact ⟨t, runs, nofun, fun _ _ => refused, fun _ idle => absurd (busy_iff.mp hbad) idle⟩
      | false =>
        have free := fun busy => Bool.false_ne_true (hbad.symm.trans (busy_iff.mpr busy))
        have handed : s.Handed (actOwnerCommit (s.noteAct .act 0x0C05 0 0)).eff :=
          (handed_ownerCommit (s.noteAct .act 0x0C05 0 0)).of_same rfl rfl rfl
        refine (write.acts (P := s.Handed) h legal hbad handed).gives ?_
        rintro u ⟨fuses, bare, ports⟩
        rw [answer_frame]
        exact ⟨nofun, fun _ busy => absurd busy free, fun _ _ => ⟨fuses, bare.jobKey, bare.jobId, bare.jobImages, bare.fmKey, bare.credFloor, ports⟩⟩
  case raise => exact (writes_svnRaise q v).acts h (decide_eq_false (Nat.not_le.mpr hbelow)) rfl (svnRaise_spec (s := s.noteAct .act 0x0C24 0 0) hbelow)
  case invalid => exact (writes_svnRaise q v).invalid h (decide_eq_true habove) rfl

end Sys2Proof.Machine

/-! SUPPORT. The job's key, memory and images, and the settlement of O50. -/

namespace Sys2Proof.Machine

theorem core_zeroMemory (s : State) (c : Nat) : s.zeroMemory.core c = { s.core c with
    spad := [], sfu := { (s.core c).sfu with stage := [] } } := by
  unfold State.core State.zeroMemory
  simp only
  rw [SMap.get_mapV _ _ _ _ rfl]

theorem region_zeroMemory (s : State) (r : Nat) : s.zeroMemory.region r = { s.region r with sets := [], poison := [] } := by
  unfold State.region State.zeroMemory
  simp only
  rw [SMap.get_mapV _ _ _ _ rfl]

theorem jobKey_spec (s : State) (b : List Byte) : (actJobKey s b).eff = { s with
    jobKey := b.take 32, sec := { s.sec with jobId := leAt b 32 8 }, fab := { s.fab with tseq := 0, wins := [] }, log := (actJobKey s b).eff.log } := by
  dsimp only [actJobKey]
  exact post_frame _ _ _ _ _

theorem jobRelease_spec (s : State) :
    let u := (actJobRelease s).eff
    u.jobKey = [] ∧ u.sec = { s.sec with jobId := 0 } ∧ u.mem.hbm = [] ∧
      (∀ c, (u.core c).spad = [] ∧ (u.core c).vxe = (s.core c).vxe ∧ (u.core c).seq = (s.core c).seq) ∧
      (∀ r, (u.region r).sets = [] ∧ (u.region r).poison = []) ∧ u.fuses = s.fuses := by
  dsimp only [actJobRelease]
  rw [post_frame]
  refine ⟨rfl, rfl, rfl, fun c => ?_, fun r => ?_, rfl⟩
  · have zeroed : s.eraseJob.zeroMemory.core c = { s.core c with spad := [], sfu := { (s.core c).sfu with stage := [] } } := core_zeroMemory s.eraseJob c
    exact ⟨congrArg (·.spad) zeroed, congrArg (·.vxe) zeroed, congrArg (·.seq) zeroed⟩
  · have zeroed : s.eraseJob.zeroMemory.region r = { s.region r with sets := [], poison := [] } := region_zeroMemory s.eraseJob r
    exact ⟨congrArg (·.sets) zeroed, congrArg (·.poison) zeroed⟩

theorem jobImage_spec (s : State) (k : Nat) (b : List Byte) :
    let u := (actJobImage s k b).eff
    u = { s with jobImages := u.jobImages, sec := { s.sec with mr2 := u.sec.mr2 } } ∧ u.jobImages.get (zeros 32) k = b ∧
      (∀ i, i ≠ k → u.jobImages.get (zeros 32) i = s.jobImages.get (zeros 32) i) ∧ u.sec.mr2 = extendMr s.sec.mr2 u.mr2Input := by
  refine ⟨rfl, (SMap.get_set _ _ _ _ _).trans (if_pos rfl), fun i hi => (SMap.get_set _ _ _ _ _).trans (if_neg ?_), rfl⟩
  omega

/-- Settles O50, by the three actions' specifications. -/
theorem jobsTakeAndReleaseTheModule : Obligations.JobsTakeAndReleaseTheModule := by
  refine ⟨fun q b s h hlen => ⟨fun hfree => ?key, fun hbusy => ?keyRefused⟩, fun q v s h => ⟨fun hfree => ?release, fun hbusy => ?releaseRefused⟩,
    fun q k b s h hlen => ?image⟩
  case key => exact (writes_jobKey q hlen).acts h rfl hfree (jobKey_spec s b)
  case keyRefused => exact (writes_jobKey q hlen).refused h rfl hbusy rfl
  case release => exact (writes_jobRelease q v).acts h rfl hfree (jobRelease_spec (s.noteAct .act 0x0C12 0 0))
  case releaseRefused => exact (writes_jobRelease q v).refused h rfl hbusy rfl
  case image => exact (writes_jobImage q hlen k).acts h rfl rfl (jobImage_spec s (k.val + 1) b)

end Sys2Proof.Machine

/-! SUPPORT. Attestation, the debug state and the entropy sources, and the settlement of O51. -/

namespace Sys2Proof.Machine

theorem newDebugNonce_of_source {s : State} (h : s.logHub ∉ s.sec.entropyBad) : s.newDebugNonce = { s with
    rndCtr := s.rndCtr + 1, sec := { s.sec with dbgNonce := Config.random32 s.rndCtr } } := by
  have drawn : s.draw s.logHub = ({ s with rndCtr := s.rndCtr + 1 }, some (Config.random32 s.rndCtr)) := if_neg (by simpa using h)
  rw [State.newDebugNonce, drawn]
  rfl

def SecSt.withNonce (k : SecSt) (n : List Byte) : SecSt := { k with dbgNonce := n }

/-- A module whose job is erased and whose ports are DOWN opens its debug state under a token: MR2 is extended (R445, R461). -/
def State.unlocked (s : State) (token : List Byte) : State :=
  ((s.extendMr2 (token.take 96)).updSec (fun k => { k with
    dbgOpen := true, dbgScope := BitVec.ofNat 4 (leAt token 0 2), dbgEnd := s.tsc + leAt token 4 4 * secondTicks })).noteMr2

theorem unlocked_frame (s : State) (token : List Byte) : s.unlocked token = { s with sec := { s.sec with
    mr2 := (s.unlocked token).sec.mr2, dbgOpen := true, dbgScope := BitVec.ofNat 4 (leAt token 0 2),
    dbgEnd := s.tsc + leAt token 4 4 * 400000000 } } := rfl

theorem debugUnlock_eff (s : State) (htsc : s.eraseJob.portsDown.tsc = s.tsc) : (actDebugUnlock s).eff =
    ((s.eraseJob.portsDown.unlocked s.sec.dbgToken).post 0x0C02 3 s.srcSec [leAt s.sec.dbgToken 0 2, leAt s.sec.dbgToken 4 4]).newDebugNonce := by
  dsimp only [actDebugUnlock, State.unlocked]
  rw [htsc]

/-- An event and a new nonce after the debug state opened. -/
theorem newDebugNonce_unlocked {s : State} (hsource : s.logHub ∉ s.sec.entropyBad) (token : List Byte) (code sev src : Nat) (args : List Nat) :
    let u := ((s.unlocked token).post code sev src args).newDebugNonce
    u.sec.dbgNonce = Config.random32 s.rndCtr ∧ u.rndCtr = s.rndCtr + 1 ∧ u.jobKey = s.jobKey ∧ u.sec.dbgOpen = true ∧
      u.sec.dbgScope = BitVec.ofNat 4 (leAt token 0 2) ∧ u.sec.dbgEnd = s.tsc + leAt token 4 4 * 400000000 ∧ u.ports = s.ports := by
  dsimp only
  rw [post_frame, newDebugNonce_of_source (by rw [unlocked_frame]; exact hsource)]
  exact ⟨rfl, rfl, rfl, rfl, rfl, rfl, rfl⟩

/-- The debug state that a token which passes its checks opens (R461). -/
def State.DebugOpened (s u : State) : Prop :=
  u.sec.dbgNonce = Config.random32 s.rndCtr ∧ u.rndCtr = s.rndCtr + 1 ∧ u.jobKey = [] ∧ u.sec.dbgOpen = true ∧
    u.sec.dbgScope = BitVec.ofNat 4 (leAt s.sec.dbgToken 0 2) ∧ u.sec.dbgEnd = s.tsc + leAt s.sec.dbgToken 4 4 * 400000000 ∧
    ∀ p, p < 40 → 2 ≤ (s.port p).st → (u.port p).st = 1

theorem debugUnlock_spec {s : State} (hsource : s.logHub ∉ s.sec.entropyBad) : s.DebugOpened (actDebugUnlock s).eff := by
  have hub : s.eraseJob.portsDown.logHub = s.logHub := logHub_of_standing (standing_portsDown s.eraseJob)
  have down : ∀ p, p < 40 → 2 ≤ (s.port p).st → (s.eraseJob.portsDown.port p).st = 1 := fun p hp hup => st_portsDown (s := s.eraseJob) hp hup
  have frame := (downed_portsDown s.eraseJob).frame
  have key : s.eraseJob.portsDown.jobKey = [] := congrArg State.jobKey frame
  have counter : s.eraseJob.portsDown.rndCtr = s.rndCtr := congrArg (·.rndCtr) frame
  have now : s.eraseJob.portsDown.tsc = s.tsc := congrArg (·.tsc) frame
  have bad : s.eraseJob.portsDown.sec.entropyBad = s.sec.entropyBad := congrArg (·.sec.entropyBad) frame
  rw [debugUnlock_eff s now]
  generalize s.eraseJob.portsDown = u at *
  obtain ⟨nonce, drawn, keyKept, opened, scope, ending, ports⟩ := newDebugNonce_unlocked (s := u) (by rw [hub, bad]; exact hsource)
    s.sec.dbgToken 0x0C02 3 s.srcSec [leAt s.sec.dbgToken 0 2, leAt s.sec.dbgToken 4 4]
  refine ⟨by rw [nonce, counter], by rw [drawn, counter], by rw [keyKept, key], opened, scope, by rw [ending, now], fun p hp hup => ?_⟩
  rw [State.port, ports]
  exact down p hp hup

/-- What a token that is refused leaves (R461). -/
theorem debugUnlock_refused {s : State} (hsource : s.logHub ∉ s.sec.entropyBad) (q : OdReq) (st : Nat) :
    let t := (((s.noteAct .act 0x0C33 0 0).newDebugNonce).noteAct .act 0x0C33 0 st).answer q st
    t.sec = { s.sec with dbgNonce := Config.random32 s.rndCtr } ∧ t.rndCtr = s.rndCtr + 1 ∧ t.jobKey = s.jobKey ∧ t.ports = s.ports ∧
      t.actStatus.get 0 (actKey 0x0C33 0) = st := by
  dsimp only
  rw [newDebugNonce_of_source (s := s.noteAct .act 0x0C33 0 0) hsource, answer_frame]
  exact ⟨rfl, rfl, rfl, rfl, (SMap.get_set _ _ _ _ _).trans (if_pos rfl)⟩

theorem exec_attestReportReady {s : State} {n : List Byte} (hnonce : s.sec.nonce = some n) (hup : s.busUp = true) :
    exec .attestReportReady s = .next { s with sec := { s.sec with nonce := none, report := s.reportOver n } } := by
  show execAttestReportReady s = _
  unfold execAttestReportReady
  rw [hnonce]
  exact if_pos hup

section
variable {s : State} {h : Fin 2} (hup : s.busUp = true) (hclk : (s.hub h).clken.getLsbD 4 = true) (hfen : (s.hub h).fenced = false)
include hup hclk hfen

theorem exec_entropyFail : exec (.entropyFail h) s = .next ((s.updSec (fun k => { k with
    entropyFails := k.entropyFails + 1, entropyBad := if k.entropyBad.contains h.val then k.entropyBad else k.entropyBad ++ [h.val] })).post
    0x0C07 2 (srcHub h 0x53) [4 + h.val]) :=
  if_neg (by rw [hup, hclk, hfen]; nofun)

end

/-- Settles O51, by `debugUnlock_spec` and `debugUnlock_refused`. -/
theorem attestationDebugEntropy : Obligations.AttestationDebugEntropy := by
  refine ⟨fun q b s h hlen => ?nonce, fun n s hnonce hup => ⟨_, exec_attestReportReady hnonce hup, rfl⟩, fun q v s h hsource => ?unlock,
    fun h s hup hclk hfen => ⟨_, exec_entropyFail hup hclk hfen, ?fail⟩⟩
  case nonce => exact (writes_attestNonce q hlen).acts h rfl rfl rfl
  case unlock =>
    have write := writes_debugUnlock q v
    have bad_iff : (actDebugUnlock (s.noteAct .act 0x0C33 0 0)).bad = true ↔ s.sec.dbgOpen = true ∨ s.jobBusy = true :=
      Bool.or_eq_true_iff
    cases hok : s.tokenOk with
    | false =>
      have inv : (actDebugUnlock (s.noteAct .act 0x0C33 0 0)).inv = true := congrArg Bool.not hok
      obtain ⟨sec, counter, key, ports, status⟩ := debugUnlock_refused hsource q 3
      refine ⟨_, (write.exec_eq h).trans (congrArg _ (if_pos inv)), congrArg SecSt.dbgNonce sec, counter, fun _ => ⟨?_, key, ports, status⟩, nofun⟩
      exact sec.trans (congrArg s.sec.withNonce (congrArg SecSt.dbgNonce sec).symm)
    | true =>
      have inv : (actDebugUnlock (s.noteAct .act 0x0C33 0 0)).inv = false := congrArg Bool.not hok
      cases hbad : (actDebugUnlock (s.noteAct .act 0x0C33 0 0)).bad with
      | true =>
        obtain ⟨sec, counter, key, ports, status⟩ := debugUnlock_refused hsource q 2
        refine ⟨_, (write.exec_eq h).trans (congrArg _ ((if_neg (by rw [inv]; nofun)).trans (if_pos hbad))), congrArg SecSt.dbgNonce sec, counter,
          fun _ => ⟨?_, key, ports, status⟩, fun _ free => absurd (bad_iff.mp hbad) free⟩
        exact sec.trans (congrArg s.sec.withNonce (congrArg SecSt.dbgNonce sec).symm)
      | false =>
        have free : ¬ (s.sec.dbgOpen = true ∨ s.jobBusy = true) := fun busy => Bool.false_ne_true (hbad.symm.trans (bad_iff.mpr busy))
        refine (write.acts (P := s.DebugOpened) h inv hbad (debugUnlock_spec (s := s.noteAct .act 0x0C33 0 0) hsource)).gives ?_
        rintro u ⟨nonce, counter, opened⟩
        rw [answer_frame]
        exact ⟨nonce, counter, fun refused => absurd (refused.resolve_left nofun) free, fun _ _ => opened⟩
  case fail =>
    rw [post_frame]
    refine ⟨rfl, rfl, fun k => ?_⟩
    show k ∈ (if s.sec.entropyBad.contains h.val then s.sec.entropyBad else s.sec.entropyBad ++ [h.val]) ↔ _
    split
    next listed => exact ⟨.inl, fun hk => hk.elim id (· ▸ List.contains_iff_mem.mp listed)⟩
    next => rw [List.mem_append, List.mem_singleton]

end Sys2Proof.Machine

/-! SUPPORT. Records of the black box in flash (R484, R486), and the settlement of O54. -/

namespace Sys2Proof.Machine

/-! A cause arises (R483, R485). -/

section
variable {s : State} (hfen : (s.hub 0).fenced = false)
include hfen

theorem boxRecord_begins (hidle : s.box.writing = none) (c : Nat) : s.boxRecord c = { s with
    box := { s.box with writing := some (c, s.boxBytes c s.box.next) } } := by
  simp [State.boxRecord, State.boxBegin, hfen, hidle]

theorem boxRecord_waits (hbusy : s.box.writing ≠ none) (hwait : s.box.waiting = none) (c : Nat) : s.boxRecord c = { s with
    box := { s.box with waiting := some c } } := by
  obtain ⟨record, hrec⟩ := Option.ne_none_iff_exists'.mp hbusy
  simp [State.boxRecord, hfen, hrec, hwait]

end

/-! One device's copy of a record. -/

/-- Two ranges of flash that hold a record, on different devices. -/
theorem boxOff_apart {d e j k : Nat} (hj : j < 8192) (hk : k < 8192) (hde : d ≠ e) :
    flashKey d (boxOff j) + 4096 ≤ flashKey e (boxOff k) ∨ flashKey e (boxOff k) + 4096 ≤ flashKey d (boxOff j) := by
  unfold flashKey boxOff
  omega

section
variable (s : State) {d e slot : Nat} {b : List Byte}

theorem boxProgram_frame (d slot : Nat) (b : List Byte) (fail : Bool) : s.boxProgram d slot b fail = { s with
    flash := { s.flash with bytes := (s.boxProgram d slot b fail).flash.bytes }, freeCtr := (s.boxProgram d slot b fail).freeCtr } := by
  unfold State.boxProgram
  cases fail with
  | false => rfl
  | true =>
    rw [if_pos rfl, flashOnly_freeBytes_write]

theorem boxCopy_boxProgram (hlen : b.length = 4096) : (s.boxProgram d slot b false).boxCopy d slot = b := by
  have same := flashRead_flashWrite s d (boxOff slot) b
  rwa [hlen] at same

theorem boxCopy_boxProgram_of_ne (hlen : b.length = 4096) (hslot : slot < 8192) (hde : d ≠ e) (fail : Bool) :
    (s.boxProgram d slot b fail).boxCopy e slot = s.boxCopy e slot := by
  have apart := boxOff_apart hslot hslot hde.symm
  cases fail with
  | false => exact flashRead_flashWrite_of_out s (by rwa [hlen])
  | true =>
    have free : (s.freeBytes 4096).2.length = 4096 := by simp only [State.freeBytes, List.length_map, List.length_range]
    exact flashRead_flashWrite_of_out (s.freeBytes 4096).1 (by rwa [free])

/-- Both devices have been programmed with the record in progress. -/
def State.boxPrograms (s : State) (b : List Byte) (f0 f1 : Bool) : State :=
  (s.boxProgram 0 (s.box.next % 8192) b f0).boxProgram 1 (s.box.next % 8192) b f1

theorem boxPrograms_frame (b : List Byte) (f0 f1 : Bool) : s.boxPrograms b f0 f1 = { s with
    flash := { s.flash with bytes := (s.boxPrograms b f0 f1).flash.bytes }, freeCtr := (s.boxPrograms b f0 f1).freeCtr } := by
  unfold State.boxPrograms
  rw [boxProgram_frame, boxProgram_frame s]

theorem boxCopy_boxPrograms (hlen : b.length = 4096) (f0 f1 : Bool) :
    (f0 = false → (s.boxPrograms b f0 f1).boxCopy 0 (s.box.next % 8192) = b) ∧
    (f1 = false → (s.boxPrograms b f0 f1).boxCopy 1 (s.box.next % 8192) = b) := by
  have slot : s.box.next % 8192 < 8192 := Nat.mod_lt _ (by decide)
  refine ⟨?_, ?_⟩
  · rintro rfl
    exact (boxCopy_boxProgram_of_ne _ hlen slot (by decide) f1).trans (boxCopy_boxProgram s hlen)
  · rintro rfl
    exact boxCopy_boxProgram _ hlen

end

/-! A record that ends (R484). -/

/-- A device that failed is counted and told. -/
def State.boxFailed (s : State) (r d : Nat) (fail : Bool) : State :=
  if fail then ({ s with box := { s.box with failures := s.box.failures + 1 } } : State).post 0x0E02 2 (srcHub 0 0x55) (d :: w64 r) else s

theorem boxFailed_frame (s : State) (r d : Nat) (fail : Bool) : s.boxFailed r d fail = { s with
    box := { s.box with failures := s.box.failures + (if fail then 1 else 0) }, log := (s.boxFailed r d fail).log } := by
  unfold State.boxFailed
  cases fail with
  | false => rfl
  | true =>
    rw [if_pos rfl, post_frame]
    rfl

/-- The four slots after the one written that a background erase takes (R484). -/
def State.boxErasures (s : State) (slot : Nat) : List Nat :=
  ((List.range 4).map (fun i => (slot + 1 + i) % 8192)).filter (fun k =>
    !(s.flashErased 0 (boxOff k) 4096 && s.flashErased 1 (boxOff k) 4096) && !s.box.erasing.contains k)

/-- The next number follows; `ok` says that a device holds the record. -/
def State.boxNumbered (s : State) (r : Nat) (ok : Bool) : State := { s with box := { s.box with
  next := r + 1, newest := if ok then r else s.box.newest, writing := none, erasing := s.box.erasing ++ s.boxErasures (r % 8192) } }

def State.boxTold (s : State) (r c : Nat) (ok : Bool) : State := if ok then s.post 0x0E01 0 (srcHub 0 0x55) (w64 r ++ [c]) else s

def State.boxResumes (s : State) : State :=
  match s.box.waiting with
  | some c => ({ s with box := { s.box with waiting := none } } : State).boxBegin c
  | none => s

theorem boxTold_frame (s : State) (r c : Nat) (ok : Bool) : s.boxTold r c ok = { s with log := (s.boxTold r c ok).log } := by
  unfold State.boxTold
  cases ok with
  | false => rfl
  | true => exact post_frame _ _ _ _ _

theorem boxResumes_of_none {s : State} (h : s.box.waiting = none) : s.boxResumes = s := by
  unfold State.boxResumes
  rw [h]

section
variable (s : State) (c : Nat) (b : List Byte) (f0 f1 : Bool)

theorem boxDone_eq : s.boxDone c b f0 f1 =
    (((((s.boxPrograms b f0 f1).boxFailed s.box.next 0 f0).boxFailed s.box.next 1 f1).boxNumbered s.box.next (!(f0 && f1))).boxTold
      s.box.next c (!(f0 && f1))).boxResumes := rfl

/-- With no record that waits, the next number follows. -/
theorem boxDone_frame (hwait : s.box.waiting = none) : ∃ g erasing, s.boxDone c b f0 f1 = { s.boxPrograms b f0 f1 with
    log := g, box := { s.box with
      next := s.box.next + 1, newest := if f0 && f1 then s.box.newest else s.box.next,
      failures := s.box.failures + (if f0 then 1 else 0) + (if f1 then 1 else 0), writing := none, erasing := erasing } } := by
  have programmed : (s.boxPrograms b f0 f1).box = s.box := congrArg (·.box) (boxPrograms_frame s b f0 f1)
  rw [boxDone_eq]
  generalize s.boxPrograms b f0 f1 = t at *
  have counted : ∃ g, (t.boxFailed s.box.next 0 f0).boxFailed s.box.next 1 f1 = { t with
      log := g, box := { s.box with failures := s.box.failures + (if f0 then 1 else 0) + (if f1 then 1 else 0) } } :=
    ⟨_, by rw [boxFailed_frame, boxFailed_frame t, programmed]⟩
  obtain ⟨g, counted⟩ := counted
  have newest : (if (!(f0 && f1)) = true then s.box.next else s.box.newest) = if (f0 && f1) = true then s.box.newest else s.box.next := by
    cases f0 <;> cases f1 <;> rfl
  rw [counted, boxTold_frame, boxResumes_of_none]
  · exact ⟨_, _, by rw [State.boxNumbered, newest]⟩
  · exact hwait

end

/-- A record that no device will hold (R17). -/
theorem boxLost_frame (s : State) : s.boxLost.boot = s.boot ∧ s.boxLost.box.writing = none := by
  refine ⟨?_, rfl⟩
  have torn : s.boxTear.boot = s.boot := by
    unfold State.boxTear
    split <;> rfl
  exact torn

/-- What a reset that waited for the record does. -/
def State.boxEnds (s : State) : State :=
  match s.boot.resetWait with
  | some k => s.cold .on k
  | none => s

theorem boxEnds_of_none {s : State} (h : s.boot.resetWait = none) : s.boxEnds = s := by
  rw [State.boxEnds, h]

theorem boxEnds_of_some {s : State} {k : Nat} (h : s.boot.resetWait = some k) : s.boxEnds = s.cold .on k := by
  rw [State.boxEnds, h]

theorem exec_blackboxWritten {s : State} {c : Nat} {b : List Byte} (hup : s.busUp = true) (hrec : s.box.writing = some (c, b)) (f0 f1 : Bool)
    {t : State} (ht : (if (s.hub 0).fenced then s.boxLost else s.boxDone c b f0 f1) = t) (hdone : t.box.writing = none) :
    exec (.blackboxWritten f0 f1) s = .next t.boxEnds := by
  have begun : (if s.busUp then s.box.writing else none) = some (c, b) := (if_pos hup).trans hrec
  show execBlackboxWritten f0 f1 s = _
  unfold execBlackboxWritten
  rw [begun]
  dsimp only
  rw [ht, if_neg (by rw [hdone]; nofun)]
  unfold State.boxEnds
  cases t.boot.resetWait <;> rfl

theorem boxCopy_of_bytes {s t : State} (h : t.flash.bytes = s.flash.bytes) (d slot : Nat) : t.boxCopy d slot = s.boxCopy d slot :=
  flashRead_of_bytes h d (boxOff slot) 4096

/-- What the end of a record leaves, with no record that waits (R484). -/
theorem boxDone_spec {s : State} (hwait : s.box.waiting = none) (c : Nat) {b : List Byte} (hlen : b.length = 4096) (f0 f1 : Bool) :
    let t := s.boxDone c b f0 f1
    t.boot = s.boot ∧ t.fuses = s.fuses ∧ t.box.writing = none ∧ t.box.next = s.box.next + 1 ∧
      t.box.newest = (if f0 && f1 then s.box.newest else s.box.next) ∧
      t.box.failures = s.box.failures + (if f0 then 1 else 0) + (if f1 then 1 else 0) ∧
      (f0 = false → t.boxCopy 0 (s.box.next % 8192) = b) ∧ (f1 = false → t.boxCopy 1 (s.box.next % 8192) = b) := by
  obtain ⟨copy0, copy1⟩ := boxCopy_boxPrograms s hlen f0 f1
  have frame := boxPrograms_frame s b f0 f1
  have boot : (s.boxPrograms b f0 f1).boot = s.boot := congrArg (·.boot) frame
  have fuses : (s.boxPrograms b f0 f1).fuses = s.fuses := congrArg (·.fuses) frame
  obtain ⟨g, erasing, done⟩ := boxDone_frame s c b f0 f1 hwait
  dsimp only
  rw [done]
  exact ⟨boot, fuses, rfl, rfl, rfl, rfl, fun h => (boxCopy_of_bytes rfl _ _).trans (copy0 h), fun h => (boxCopy_of_bytes rfl _ _).trans (copy1 h)⟩

/-! Objects of the black box (R486, R489). -/

section
variable (q : OdReq)

theorem writes_blackBoxWrite (v : BitVec 8) : WritesObject (.blackBoxWrite q v) q ⟨0x0E04, 0, 0, .u8, .act⟩ 0 (leBytes 1 v.toNat) actBlackBoxWrite :=
  writesObject_of_put ⟨by decide, by decide, rfl, nofun, rfl, by decide⟩ (fun _ => rfl) (fun _ => rfl)

theorem writes_blackBoxSelect (r : BitVec 64) :
    WritesObject (.blackBoxSelect q r) q ⟨0x0E01, 0, 0, .u64, .rw⟩ 0 (leBytes 8 r.toNat) (actBlackBoxSelect · r.toNat) :=
  writesObject_of_put ⟨by decide, by decide, rfl, nofun, rfl, by decide⟩ (fun _ => rfl)
    (fun t => congrArg (actBlackBoxSelect t) (ofLe_leBytes_toNat r))

end

/-- A number outside the ring is INVALID. -/
theorem blackBoxSelect_inv (s : State) (n : Nat) :
    (actBlackBoxSelect s n).inv = false ↔ 1 ≤ n ∧ n ≤ s.box.newest ∧ s.box.newest < n + 8192 := by
  simp only [actBlackBoxSelect, Bool.or_eq_false_iff, decide_eq_false_iff_not, not_le, not_lt, and_assoc]
  exact and_congr_left' (Nat.pos_iff_ne_zero.symm)

/-- Status and record that a selection shows, of the two devices' copies (R486). -/
def boxShown (n : Nat) (b0 b1 : List Byte) : Nat × List Byte :=
  if boxIs b0 n && boxTagOk b0 then (0, b0) else if boxIs b1 n && boxTagOk b1 then (1, b1) else if boxIs b0 n || boxIs b1 n then (2, b0)
  else (3, zeros 4096)

theorem blackBoxSelect_eff (s : State) (n : Nat) : (actBlackBoxSelect s n).eff = { s with box := { s.box with
    select := n, status := (boxShown n (s.boxCopy 0 (n % 8192)) (s.boxCopy 1 (n % 8192))).1,
    data := (boxShown n (s.boxCopy 0 (n % 8192)) (s.boxCopy 1 (n % 8192))).2 } } := rfl

theorem boxShown_spec (n : Nat) (b0 b1 : List Byte) :
    (boxIs b0 n = true → boxTagOk b0 = true → boxShown n b0 b1 = (0, b0)) ∧
    (¬ (boxIs b0 n = true ∧ boxTagOk b0 = true) → boxIs b1 n = true → boxTagOk b1 = true → boxShown n b0 b1 = (1, b1)) ∧
    (boxIs b0 n = true → boxTagOk b0 = false → boxTagOk b1 = false → boxShown n b0 b1 = (2, b0)) ∧
    (boxIs b0 n = false → boxIs b1 n = false → boxShown n b0 b1 = (3, zeros 4096)) := by
  unfold boxShown
  refine ⟨fun is0 tag0 => ?_, fun not0 is1 tag1 => ?_, fun is0 bad0 bad1 => ?_, fun not0 not1 => ?_⟩
  · rw [is0, tag0]
    rfl
  · rw [if_neg (by rwa [Bool.and_eq_true]), is1, tag1]
    rfl
  · rw [is0, bad0, bad1, Bool.and_false, Bool.and_false]
    rfl
  · rw [not0, not1]
    rfl

/-! Background erases (R484). -/

/-- One device of a background erase. -/
def State.boxErase (s : State) (d slot : Nat) (ok : Bool) : State := if ok then s.flashErase d (boxOff slot) 4096 else s

theorem flashOnly_boxErase (s : State) (d slot : Nat) (ok : Bool) : FlashOnly s (s.boxErase d slot ok) := by
  unfold State.boxErase
  cases ok <;> rfl

theorem boxCopy_boxErase (s : State) (d slot : Nat) (ok : Bool) :
    (s.boxErase d slot ok).boxCopy d slot = if ok then List.replicate 4096 0xFF else s.boxCopy d slot := by
  unfold State.boxErase
  cases ok with
  | true => exact flashRead_flashErase s (le_refl _) (le_refl _)
  | false => rfl

theorem boxCopy_boxErase_of_ne (s : State) {d e slot : Nat} (hslot : slot < 8192) (hde : d ≠ e) (ok : Bool) :
    (s.boxErase d slot ok).boxCopy e slot = s.boxCopy e slot := by
  unfold State.boxErase
  cases ok with
  | true => exact flashRead_flashErase_of_out s (boxOff_apart hslot hslot hde.symm)
  | false => rfl

section
variable {s : State} {slot : Fin 8192} (herase : slot.val ∈ s.box.erasing) (hlock : s.clock.lost = false) (ok0 ok1 : Bool)

/-- Both devices of a background erase. -/
def State.boxErases (s : State) (slot : Nat) (ok0 ok1 : Bool) : State :=
  (s.boxErase 0 slot (ok0 && !(s.hub 0).fenced)).boxErase 1 slot (ok1 && !(s.hub 0).fenced)

include herase hlock in
theorem exec_backgroundEraseDone : exec (.backgroundEraseDone slot ok0 ok1) s = .next { s.boxErases slot ok0 ok1 with
    box := { (s.boxErases slot ok0 ok1).box with erasing := (s.boxErases slot ok0 ok1).box.erasing.erase slot.val } } :=
  (if_neg (by rw [hlock]; nofun)).trans (if_pos (List.contains_iff_mem.mpr herase))

theorem flashOnly_boxErases (s : State) (slot : Nat) (ok0 ok1 : Bool) : FlashOnly s (s.boxErases slot ok0 ok1) :=
  (flashOnly_boxErase s 0 slot _).trans (flashOnly_boxErase _ 1 slot _)

theorem boxCopy_boxErases (s : State) (slot : Fin 8192) {ok : Bool} {d : Nat} (h : (ok, d) ∈ [(ok0, 0), (ok1, 1)]) :
    (s.boxErases slot ok0 ok1).boxCopy d slot = if ok && !(s.hub 0).fenced then List.replicate 4096 0xFF else s.boxCopy d slot := by
  unfold State.boxErases
  simp only [List.mem_cons, Prod.mk.injEq, List.not_mem_nil, or_false] at h
  obtain ⟨rfl, rfl⟩ | ⟨rfl, rfl⟩ := h
  · rw [boxCopy_boxErase_of_ne _ slot.isLt (by decide), boxCopy_boxErase]
  · rw [boxCopy_boxErase, boxCopy_boxErase_of_ne _ slot.isLt (by decide)]

end

/-- Settles O54, by what records, selections and erases do with the flash. -/
theorem recordsOfTheBlackBox : Obligations.RecordsOfTheBlackBox := by
  refine ⟨fun q v s h => ⟨fun hfen => ?refused, fun hfen hidle => ?begins, fun hfen hbusy hwait => ?waits⟩,
    fun f0 f1 c b s hup hrec hlen hwait hfen => ⟨fun hreset => ?written, fun k hreset => ?resets⟩, fun f0 f1 c b s hup hrec hfen => ?lost,
    fun q r s h => ⟨fun hout => ?out, fun hin hfen => ?fenced, fun hin hfen => ?shown⟩, fun slot ok0 ok1 s herase hlock => ?erased⟩
  case refused => exact (writes_blackBoxWrite q v).refused h rfl hfen rfl
  case begins => exact (writes_blackBoxWrite q v).acts h rfl hfen (boxRecord_begins (s := s.noteAct .act 0x0E04 0 0) hfen hidle 6)
  case waits => exact (writes_blackBoxWrite q v).acts h rfl hfen (boxRecord_waits (s := s.noteAct .act 0x0E04 0 0) hfen hbusy hwait 6)
  case written =>
    obtain ⟨boot, -, idle, next, newest, failures, copies⟩ := boxDone_spec hwait c hlen f0 f1
    have kept : (s.boxDone c b f0 f1).boxEnds = s.boxDone c b f0 f1 := boxEnds_of_none (by rw [boot, hreset])
    exact ⟨_, exec_blackboxWritten hup hrec f0 f1 (if_neg (by rw [hfen]; nofun)) idle, kept.symm ▸ ⟨idle, next, newest, failures, copies⟩⟩
  case resets =>
    obtain ⟨boot, fuses, idle, -, -, -, copy0, -⟩ := boxDone_spec hwait c hlen f0 f1
    have reset : (s.boxDone c b f0 f1).boxEnds = (s.boxDone c b f0 f1).cold .on k := boxEnds_of_some (by rw [boot, hreset])
    exact ⟨_, exec_blackboxWritten hup hrec f0 f1 (if_neg (by rw [hfen]; nofun)) idle, reset.symm ▸ ⟨rfl, rfl, rfl, rfl, fuses, fun h =>
      (boxCopy_of_bytes rfl _ _).trans (copy0 h)⟩⟩
  case lost =>
    obtain ⟨boot, idle⟩ := boxLost_frame s
    refine ⟨_, exec_blackboxWritten hup hrec f0 f1 (if_pos hfen) idle, ?_⟩
    cases hreset : s.boot.resetWait with
    | none => exact boxEnds_of_none (boot ▸ hreset)
    | some k => exact boxEnds_of_some (boot ▸ hreset)
  case out => exact (writes_blackBoxSelect q r).invalid h (Bool.eq_true_of_not_eq_false (fun hinv => hout ((blackBoxSelect_inv s _).mp hinv))) rfl
  case fenced => exact (writes_blackBoxSelect q r).refused h ((blackBoxSelect_inv s _).mpr hin) hfen rfl
  case shown =>
    obtain ⟨first, second, both, neither⟩ := boxShown_spec r.toNat (s.boxCopy 0 (r.toNat % 8192)) (s.boxCopy 1 (r.toNat % 8192))
    refine (writes_blackBoxSelect q r).acts h ((blackBoxSelect_inv s _).mpr hin) hfen ⟨_, _, blackBoxSelect_eff s r.toNat, ?_⟩
    exact ⟨fun is0 tag0 => Prod.ext_iff.mp (first is0 tag0), fun not0 is1 tag1 => Prod.ext_iff.mp (second not0 is1 tag1),
      fun is0 bad0 bad1 => Prod.ext_iff.mp (both is0 bad0 bad1), fun not0 not1 => Prod.ext_iff.mp (neither not0 not1)⟩
  case erased =>
    have flash := flashOnly_boxErases s slot ok0 ok1
    have box : (s.boxErases slot ok0 ok1).box = s.box := congrArg (·.box) flash
    refine ⟨_, exec_backgroundEraseDone herase hlock ok0 ok1, ?_, fun ok d hd => ?_⟩
    · rw [box, flash]
    · have copy := (boxCopy_of_bytes rfl d slot).trans (boxCopy_boxErases ok0 ok1 s slot hd)
      refine ⟨fun hok hfen => ?_, fun hno => ?_⟩
      · exact copy.trans (if_pos (by rw [hok, hfen]; rfl))
      · refine copy.trans (if_neg ?_)
        obtain hno | hno := hno <;> simp [hno]

end Sys2Proof.Machine
